-- ==== Sys2Proof/Word.lean ====
section
/-!
DEFINITION. The words of the Decalko model: bytes, registers of 32 and 64 bits, and instants.
A register is 32 bits (R7); a pair _LO/_HI is 64 bits (R8); a general register of a core is 64 bits and a
vector register 1,024 bits (R226). An instant is a count of nanoseconds.
-/
namespace Sys2Proof

/-- One byte of memory or of a packet. -/
abbrev Byte := BitVec 8
/-- A register (R7). -/
abbrev W32 := BitVec 32
/-- A 64-bit quantity, a register pair (R8) or a general register of a core (R226). -/
abbrev W64 := BitVec 64
/-- A vector register (R226). -/
abbrev V1024 := BitVec 1024
/-- A run of bytes, lowest address first. -/
abbrev Bytes := List Byte
/-- An instant in nanoseconds since VAON became good. -/
abbrev Instant := Nat

/-- A core number: tower in [9:8], row in [7:4], column in [3:0] (Notation, ch. 00). -/
abbrev CoreId := Fin 1024
/-- A partition P0 to P31. -/
abbrev PartId := Fin 32
/-- A tower T0 to T3. -/
abbrev TowerId := Fin 4
/-- A near-bank stack NB0 to NB7. -/
abbrev StackId := Fin 8
/-- A fabric port F0 to F17. -/
abbrev PortId := Fin 18
/-- A channel endpoint of a core, 0 to 63. -/
abbrev EpId := Fin 64
/-- A region index, 0 to 63. -/
abbrev RegionId := Fin 64
/-- A pseudo-channel of a stack, 0 to 63. -/
abbrev ChanId := Fin 64

end Sys2Proof
end

