-- ==== Sys2Proof/Syntax.lean ====
section
/-!
DEFINITION. The commands of the Decalko block: one constructor of `Instr` for each row of spec/opcode_table.json, with
the operands the rule of that row gives it. Every command carries the instant at which it comes (an argument `t`, or
`Issue.time` for an instruction of a core). What only the world outside can know (a sensor's reading, the bytes a DMA read
returns, which module failed to train) is an operand; what the device decides is not.
-/
namespace Sys2Proof

/-- The two variants (R1, R2). -/
inductive Variant where
  | dk48
  | dk36
deriving DecidableEq, Repr

/-- A PCI Express function: PF0, or VF(n+1), which serves Pn (R4, R70). -/
inductive Fn where
  | pf
  | vf (n : PartId)
deriving DecidableEq, Repr

/-- The switched rails of R24. VAON has commands of its own. -/
inductive Rail where
  | vio
  | vddqNb
  | vnb
  | vslice
  | vcore (n : TowerId)
deriving DecidableEq, Repr

/-- What a SEC-DED check finds (R234, R354, R408). -/
inductive Ecc where
  | clean
  | corrected
  | uncorrectable
deriving DecidableEq, Repr

/-- An instruction that a core's control unit issues: the fields of its word (R237) but CLASS and OP, which the row names;
whether the core, where R228 lets it, issues it together with the one before; what the code-store check found on its word
and the near-store check on the words it reads (R234). -/
structure Issue where
  time : Instant
  core : CoreId
  rd : BitVec 5 := 0
  rs1 : BitVec 5 := 0
  rs2 : BitVec 5 := 0
  md : BitVec 7 := 0
  imm : W32 := 0
  paired : Bool := false
  code : Ecc := .clean
  data : Ecc := .clean
deriving DecidableEq, Repr

/-- A physical core site (R105). -/
structure Site where
  tower : TowerId
  row : Fin 16
  col : Fin 17
deriving DecidableEq, Repr

/-- The fuse map read at S1 ("The fuse map", ch. 04; R120, R565, R569, R613). Its repairs to the slices and stacks are laid
out as soft-repair entries are (R127; DESIGN CHOICE, notes/assumptions/78.md). -/
structure FuseMap where
  variant : Variant
  unitId : W64
  faulty : List Site
  repairs : List W64
  policy : W32
  tmxLevel : BitVec 2
  keyDigest : Option Bytes
  sensorsMapped : List Nat
  tripMapped : List Nat
deriving DecidableEq, Repr

/-- Why a stack failed S5: the codes NB_TRAIN, NB_TEST and NB_CAPACITY of R103. -/
inductive StackFail where
  | train
  | test
  | capacity
deriving DecidableEq, Repr

/-- What the slice test of S4 finds wrong in a bank (R113): a row, a column, or more than rows and columns can replace. -/
inductive SliceFlaw where
  | row (r : Fin 2048)
  | column (c : Nat)
  | whole
deriving DecidableEq, Repr

/-- A fault of the slice test: the core site, the layer and the bank, and what is wrong there (R113). -/
structure SliceFault where
  site : Site
  layer : Fin 4
  bank : Fin 16
  flaw : SliceFlaw
deriving DecidableEq, Repr

/-- A row of a stack as a soft-repair entry of KIND 3 names it (R127): pseudo-channel, bank and row. -/
structure StackRow where
  stack : StackId
  pc : ChanId
  bank : Fin 32
  row : Fin 262144
deriving DecidableEq, Repr

/-- The self-check of a sensor (R563); the codes are those of THM_SENS_DATA.FAULT (R573). -/
inductive SensorFault where
  | none
  | isOpen
  | short
  | range
  | stuck
deriving DecidableEq, Repr

/-- What a bring-up step found, of which each step reads its own part (R103): UCIe modules that failed training on the
four hub links and the four ring links, the capability word each tower sent, sites that failed self-test, faults of the
slices' banks, stacks that failed, stack rows that the stack's self-test finds faulty, regulators that did not answer,
sensors that failed, the oscillator, the entropy source, ports that trained. Which faults the spares and the repair
entries take up is the device's own doing. -/
structure StepReport where
  hubModulesFailed : List Nat := []
  ringModulesFailed : List Nat := []
  caps : List W64 := []
  badSites : List Site := []
  sliceFaults : List SliceFault := []
  badStacks : List (StackId × StackFail) := []
  badRows : List StackRow := []
  silentRegulators : List TowerId := []
  badSensors : List (Nat × SensorFault) := []
  oscillatorOk : Bool := true
  entropyOk : Bool := true
  portsUp : List PortId := []
deriving DecidableEq, Repr

/-- A mailbox command as the Operator gives it ("Giving a mailbox command", ch. 03): what is written to MBX_TAG and
MBX_ARG0 to MBX_ARG7 (those not listed as 0), then to MBX_COMMIT. -/
structure MbxCmd where
  tag : W32
  args : List W32
  commit : W32
deriving DecidableEq, Repr

/-- A message through PF0's DOE mailbox, as far as it concerns IDE (R69): the IDE_KM messages that program a stream's key,
start it and stop it, and every other one. Stream 0 is the link stream, 1 to 4 the selective ones (R98). -/
inductive SpdmMsg where
  | keyProg (stream : Fin 5) (key : Bytes)
  | keySetGo (stream : Fin 5)
  | keySetStop (stream : Fin 5)
  | other
deriving DecidableEq, Repr

/-- A message, with the streams that met an integrity failure since the last one (R69). -/
structure SpdmEvent where
  failed : BitVec 5
  msg : SpdmMsg
deriving DecidableEq, Repr

/-- A private write to the sideband that carries no operand: when, and its command byte (R85). -/
structure SbCall where
  time : Instant
  code : Byte := 0x01
deriving DecidableEq, Repr

/-- The hardware side of stage 6 of a commit: it loads, a hardware fault appears, or the DRBG fails its health test
(R154, R207; ch. 07, At the edges). -/
inductive LoadOutcome where
  | ok
  | fault
  | drbg
deriving DecidableEq, Repr

/-- A source of near-bank requests (R204): for a core's stream engine with the queue position of the descriptor that asks. -/
inductive NbSource where
  | core (c : CoreId) (pos : Fin 8)
  | aperture (n : PartId)
  | rma (p : PartId)
deriving DecidableEq, Repr

/-- A near-bank request (R206): who asks, the region it names, the offset, the bytes to write or the count to read, and
what the stack's own correction finds on each 32-byte word touched, by word number in the region (R408); words not
listed are clean. -/
structure NbReq where
  src : NbSource
  region : RegionId
  offset : Nat
  write : Option Bytes
  count : Nat
  urgent : Bool := false
  upsets : List (Nat × Ecc) := []
deriving DecidableEq, Repr

/-- The exact traffic of one 1 ms window (R219, R220): bytes sent and received by each port, bytes of each bridge
direction and of each stack channel, and the package's mean power in W. Entries not listed are 0. -/
structure Traffic where
  portTx : List (PortId × Nat) := []
  portRx : List (PortId × Nat) := []
  bridge : List (Fin 16 × Nat) := []
  chan : List (Fin 256 × Nat) := []
  power : Nat := 0
deriving DecidableEq, Repr

/-- What travels on a channel (R270): a message with its bytes, a token, or a credit, each with its epoch. -/
inductive Item where
  | message (epoch : BitVec 16) (data : Bytes)
  | token (epoch : BitVec 16)
  | credit (epoch : BitVec 16)
deriving DecidableEq, Repr

/-- Directions of mesh links (R267). -/
inductive Dir where
  | east
  | west
  | north
  | south
deriving DecidableEq, Repr

/-- The two inlets of an array. -/
inductive Inlet where
  | west
  | north
deriving DecidableEq, Repr

/-- What moves to a longer band in BAND_RELAX_EXPIRY: a slice layer's refresh, a slice layer's ceiling, a stack's refresh
(R360, R367, R406). -/
inductive BandOf where
  | refresh (tower : TowerId) (layer : Fin 4)
  | ceiling (tower : TowerId) (layer : Fin 4)
  | stack (k : StackId)
deriving DecidableEq, Repr

/-- A unit that reports an imprecise fault (R250, R251), or what the near store's check finds on a word that a unit reads
(R234): the unit's item, such as the endpoint or the descriptor, and what the check found. -/
inductive UnitFault where
  | channel (ep : EpId) (st : Byte)
  | stream (pos : Nat) (reason : Byte)
  | array (detail : Byte)
  | sfu (table : Nat) (reason : Byte)
  | sliceUe (pos : Nat) (detail : Byte) (addr : Nat)
  | nsEcc (item : Byte) (found : Ecc)
deriving DecidableEq, Repr

/-- What the checks of a stream burst find: on the source words (64-bit words of a slice, 32-byte words of a region), and on the
words of a slice that the burst writes in part (R354). -/
structure Found where
  upsets : List (Nat × Ecc) := []
  rmw : List (Nat × Ecc) := []
deriving DecidableEq, Repr

/-- A digit with more than one wire high in a vertical transfer that a stream burst reads, or in one that it writes (R356, R357). -/
structure Digits where
  linkIn : Bool := false
  linkOut : Bool := false
deriving DecidableEq, Repr

/-- What else wants a layer or a pseudo-channel where a refresh command falls due (R361, R407): nothing; a request that waits, with
no moment without one since a command last fell due; or one that waits after such a moment. -/
inductive Foreground where
  | idle
  | waits
  | again
deriving DecidableEq, Repr

/-- A 128-byte vertical transfer: the core, the aligned slice address, what the check finds on each of its sixteen words
(words not listed are clean) and whether a digit had more than one wire high (R44, R352, R354). -/
structure SliceXfer where
  core : CoreId
  addr : Nat
  upsets : List (Fin 16 × Ecc) := []
  violation : Bool := false
deriving DecidableEq, Repr

/-- A link-state record (R481) with its originator's address state. -/
structure Lsr where
  unit : W64
  address : Nat
  astate : Nat
  seq : W32
  adj : List (W64 × Nat × Nat × Nat)
deriving DecidableEq, Repr

/-- A Croak as received (R471), and the IPv6 address that it came from (SWITCHED mode, R464). -/
structure Croak where
  src : Nat
  unit : W64
  address : Nat
  port : Nat
  astate : Nat
  cap : W64
  lsrSeq : W32
  croakSeq : W32
  ip : BitVec 128 := 0
deriving DecidableEq, Repr

/-- What a packet carries whose layout the spec does not give: the item of a DATA packet (R270), the capability word of the
worker that a JOIN comes from (R491), the TYPE and STREAM of the stream that an ACK packet acknowledges, named as a reverse packet
names it (R465 leaves the ACK packet's STREAM 0); and the upsets of the words that an inbound READ or atomic meets. -/
structure Carried where
  item : Option Item := none
  cap : W64 := 0
  acks : Option (Nat × Nat) := none
  upsets : List (Nat × Ecc) := []
deriving DecidableEq, Repr

/-- A SPAN packet's header (R465): SRC, SPAN_ID, SEQ and ACK. -/
structure SpanHead where
  src : Nat
  spanId : W32
  seq : W32 := 0
  ack : W32 := 0
deriving DecidableEq, Repr

/-- An inbound RMA packet: the BFT header's SRC, PART and STREAM fields, its SEQ and ACK, whether a reserved bit is set, and the
RMA header of R513 with its data. `partTo` and `conn` are STREAM[28:24] and STREAM[11:0], `peerConn` is STREAM[23:12]. -/
structure RmaPkt where
  src : Nat
  partFrom : Nat
  partTo : PartId
  peerConn : Nat
  conn : Nat
  seq : W32
  flags : Byte := 0
  window : Fin 64 := 0
  status : Byte := 0
  key : W32 := 0
  roff : W64 := 0
  op0 : W64 := 0
  op1 : W64 := 0
  data : Bytes := []
  ack : W32 := 0
  reserved : Bool := false
deriving DecidableEq, Repr

/-- What a PTP message or timeout tells the unit about its source (R537, R542): the best master clock algorithm of
IEEE 1588-2019 runs outside the model and its outcome stands here. -/
structure PtpMaster where
  valid : Bool
  identity : W64
  slavePort : Nat
  stepsRemoved : Nat
  clockClass : Nat
deriving DecidableEq, Repr

/-- The commands, in the table's order; each is one row of spec/opcode_table.json, named by its docstring's rule. -/
inductive Instr where
  /-- R99. -/
  | vaonWake (t : Instant)
  /-- R28. -/
  | vaonLost (t : Instant)
  /-- R26. -/
  | railGood (t : Instant) (r : Rail)
  /-- R27. -/
  | railLoss (t : Instant) (r : Rail)
  /-- R99; `refclk`: REFCLK is stable. -/
  | s0Complete (t : Instant) (refclk : Bool)
  /-- R104: the two copies of the fuse map, `none` where a copy fails its check. -/
  | s1FuseRead (t : Instant) (first second : Option FuseMap)
  /-- R90. -/
  | perstNAssert (t : Instant)
  /-- R38. -/
  | perstNDeassert (t : Instant)
  /-- R38. -/
  | linkTrainTimeout (t : Instant)
  /-- R67: the SPEED code and the width. -/
  | pcieLinkUp (t : Instant) (speed : BitVec 4) (width : BitVec 6)
  /-- R90. -/
  | hotReset (t : Instant)
  /-- R90. -/
  | pfFlr (t : Instant)
  /-- R93. -/
  | vfFlr (t : Instant) (n : PartId)
  /-- R74: NumVFs, VF Enable, and the Bus Master Enable of each VF. -/
  | vfEnableChange (t : Instant) (numVfs : Fin 33) (vfEnable : Bool) (bme : W32)
  /-- R69. -/
  | doeSpdmMessage (t : Instant) (x : SpdmEvent)
  /-- R146. -/
  | stagingWrite (t : Instant) (offset : Nat) (data : Bytes)
  /-- R80. -/
  | mbxNop (t : Instant) (m : MbxCmd)
  /-- R152; whether each regulator acknowledged the write of R623, listed by tower. -/
  | frameCommit (t : Instant) (m : MbxCmd) (load : LoadOutcome) (vrAck : List TowerId)
  /-- R152. -/
  | partCommit (t : Instant) (m : MbxCmd) (load : LoadOutcome) (vrAck : List TowerId)
  /-- R157. -/
  | moltRelease (t : Instant) (m : MbxCmd)
  /-- R147. -/
  | stageDiscard (t : Instant) (m : MbxCmd)
  /-- R458. -/
  | partRearm (t : Instant) (m : MbxCmd)
  /-- R556. -/
  | setPowerLimit (t : Instant) (m : MbxCmd)
  /-- R606. -/
  | tmxUnlock (t : Instant) (m : MbxCmd)
  /-- R79. -/
  | mbxCommandEnd (t : Instant)
  /-- R160. -/
  | commitResume (t : Instant) (load : LoadOutcome) (vrAck : List TowerId)
  /-- R159. -/
  | regionOverwriteEnd (t : Instant) (n : PartId)
  /-- R100. -/
  | bupRun (t : Instant) (seq : Byte) (step : BitVec 4)
  /-- R114. -/
  | bupRetry (t : Instant) (seq : Byte) (step : BitVec 4)
  /-- R114. -/
  | bupDegrade (t : Instant) (seq : Byte) (step : BitVec 4)
  /-- R100. -/
  | bupSkip (t : Instant) (seq : Byte) (step : BitVec 4)
  /-- R102. -/
  | bupStepEnd (t : Instant) (r : StepReport)
  /-- R118: a write to BUP_SREP_LO or BUP_SREP_HI. -/
  | softRepairWrite (t : Instant) (hi : Bool) (v : W32)
  /-- R82: the dynamic address the controller assigns. -/
  | entdaa (t : Instant) (addr : BitVec 7)
  /-- R82: the static address named and the dynamic address assigned. -/
  | setdasa (t : Instant) (static addr : BitVec 7)
  /-- R82. -/
  | rstdaa (t : Instant)
  /-- R82. -/
  | enec (t : Instant)
  /-- R82. -/
  | disec (t : Instant)
  /-- R82. -/
  | getpid (t : Instant)
  /-- R82. -/
  | getbcr (t : Instant)
  /-- R82. -/
  | getdcr (t : Instant)
  /-- R82. -/
  | getstatus (t : Instant)
  /-- R82. -/
  | getmxds (t : Instant)
  /-- R85: the command byte of the private write; 0x01 is GET_ID, and a byte that no row of R85 lists also comes here. -/
  | getId (x : SbCall)
  /-- R85. -/
  | getState (t : Instant)
  /-- R85. -/
  | getTemp (t : Instant)
  /-- R85. -/
  | getPower (t : Instant)
  /-- R85. -/
  | getTelemetry (t : Instant) (first : BitVec 16) (count : Byte)
  /-- R556. -/
  | sbSetPowerLimit (t : Instant) (seq : Byte) (limit : BitVec 16)
  /-- R85. -/
  | getLimits (t : Instant)
  /-- R87: the three payload bytes. -/
  | setLamp (t : Instant) (seq b0 b1 b2 : Byte)
  /-- R85. -/
  | getLamp (t : Instant) (lamp : Byte)
  /-- R570. -/
  | getTripCause (t : Instant)
  /-- R89. -/
  | clearAlert (t : Instant) (mask : Byte)
  /-- R86. -/
  | emergencyArm (t : Instant) (seq payload : Byte)
  /-- R86. -/
  | emergencyOff (t : Instant) (seq payload : Byte)
  /-- R86. -/
  | emergencyRelease (t : Instant) (seq payload : Byte)
  /-- R567: the trip sensor and its reading in 0.125 °C. -/
  | tripTemp (t : Instant) (sensor : Fin 58) (reading : BitVec 16)
  /-- R567: the trip sensor that fails its self-check, if one does, and its reading. -/
  | tripSelfCheck (t : Instant) (failed : Option (Fin 58)) (reading : BitVec 16)
  /-- R568. -/
  | tripRearmExpiry (t : Instant)
  /-- R570. -/
  | tripCauseClear (t : Instant)
  /-- R558: the window average in W, and for each tower (T0 first) how many consecutive attempts of a PMBus write its regulator leaves unacknowledged. -/
  | powerLoopTick (t : Instant) (average : Nat) (unacked : List Nat)
  /-- R561. -/
  | thermalRound (t : Instant)
  /-- R560, R563: the sensor, its reading in 0.125 °C (signed) and its self-check. -/
  | sensorSample (t : Instant) (sensor : Fin 560) (reading : BitVec 16) (check : SensorFault)
  /-- R360. -/
  | bandRelaxExpiry (t : Instant) (b : BandOf)
  /-- R55: the tempo measured, in Mbeat/s. -/
  | tmonWindowEnd (t : Instant) (c : CoreId) (tempo : BitVec 12)
  /-- R65. -/
  | tmonMinClear (t : Instant) (c : CoreId)
  /-- R59. -/
  | paceToken (t : Instant) (w : TowerId)
  /-- R43: the core at the link's receiving end, the direction the transfer comes in, the wires of its digits, and the endpoint whose channel it belongs to. -/
  | meshTransfer (t : Instant) (c : CoreId) (d : Dir) (wires : List (BitVec 4)) (ep : EpId)
  /-- R203: the bridge direction, the tag, the endpoint addressed and the item. -/
  | bridgeTrafficArrive (t : Instant) (b : Fin 16) (tag : PartId) (c : CoreId) (ep : EpId) (x : Item)
  /-- R206. -/
  | nbRequest (t : Instant) (r : NbReq)
  /-- R217: VF(n+1) BAR2 offset and byte count. -/
  | apertureRead (t : Instant) (n : PartId) (offset count : Nat) (upsets : List (Nat × Ecc))
  /-- R217. -/
  | apertureWrite (t : Instant) (n : PartId) (offset : Nat) (data : Bytes)
  /-- R219. -/
  | quantWindowEnd (t : Instant) (x : Traffic)
  /-- R433: the function, the ring its BAR4 offset names, the value written. -/
  | launchDoorbell (t : Instant) (f : Fn) (ring : Nat) (v : W32)
  /-- R433. -/
  | completionDoorbell (t : Instant) (f : Fn) (ring : Nat) (v : W32)
  /-- R504. -/
  | rmaWorkDoorbell (t : Instant) (f : Fn) (ring : Nat) (v : W32)
  /-- R504. -/
  | rmaEventDoorbell (t : Instant) (f : Fn) (ring : Nat) (v : W32)
  /-- R431: the value written to QUE_CFG. -/
  | ringEnable (t : Instant) (f : Fn) (v : W32)
  /-- R437: the partition, its ring, the 64 bytes read, and the patch block (`none`: its read failed). -/
  | launchRecordRead (t : Instant) (p : PartId) (r : Nat) (record : Bytes) (block : Option Bytes)
  /-- R449: the partition and the launch, by its read order. -/
  | launchStart (t : Instant) (p : PartId) (id : Nat)
  /-- R429. -/
  | launchEnd (t : Instant) (p : PartId) (id : Nat)
  /-- R255. -/
  | preempt (t : Instant) (c : CoreId)
  /-- R256. -/
  | contextSaveComplete (t : Instant) (c : CoreId)
  /-- R450. -/
  | resume (t : Instant) (c : CoreId)
  /-- R452. -/
  | poolTake (t : Instant) (f : Fn) (pool : Fin 1024)
  /-- R454. -/
  | poolFree (t : Instant) (f : Fn) (pool : Fin 1024) (v : W32)
  /-- R240. -/
  | add (i : Issue)
  /-- R240. -/
  | sub (i : Issue)
  /-- R240. -/
  | andReg (i : Issue)
  /-- R240. -/
  | orReg (i : Issue)
  /-- R240. -/
  | xorReg (i : Issue)
  /-- R239. -/
  | sll (i : Issue)
  /-- R239. -/
  | srl (i : Issue)
  /-- R239. -/
  | sra (i : Issue)
  /-- R240. -/
  | slt (i : Issue)
  /-- R240. -/
  | sltu (i : Issue)
  /-- R239. -/
  | minReg (i : Issue)
  /-- R239. -/
  | maxReg (i : Issue)
  /-- R239. -/
  | mul (i : Issue)
  /-- R240. -/
  | mulhu (i : Issue)
  /-- R239. -/
  | divu (i : Issue)
  /-- R239. -/
  | remu (i : Issue)
  /-- R240. -/
  | addi (i : Issue)
  /-- R240. -/
  | andi (i : Issue)
  /-- R240. -/
  | ori (i : Issue)
  /-- R240. -/
  | xori (i : Issue)
  /-- R240. -/
  | slli (i : Issue)
  /-- R240. -/
  | srli (i : Issue)
  /-- R240. -/
  | srai (i : Issue)
  /-- R240. -/
  | slti (i : Issue)
  /-- R240. -/
  | movhi (i : Issue)
  /-- R239. -/
  | beq (i : Issue)
  /-- R239. -/
  | bne (i : Issue)
  /-- R239. -/
  | blt (i : Issue)
  /-- R239. -/
  | bge (i : Issue)
  /-- R239. -/
  | bltu (i : Issue)
  /-- R239. -/
  | bgeu (i : Issue)
  /-- R239. -/
  | jal (i : Issue)
  /-- R239. -/
  | jalr (i : Issue)
  /-- R239. -/
  | loop (i : Issue)
  /-- R239. -/
  | ld8u (i : Issue)
  /-- R239. -/
  | ld16u (i : Issue)
  /-- R239. -/
  | ld32u (i : Issue)
  /-- R239. -/
  | ld64 (i : Issue)
  /-- R239. -/
  | ld8s (i : Issue)
  /-- R239. -/
  | ld16s (i : Issue)
  /-- R239. -/
  | ld32s (i : Issue)
  /-- R239. -/
  | st8 (i : Issue)
  /-- R239. -/
  | st16 (i : Issue)
  /-- R239. -/
  | st32 (i : Issue)
  /-- R239. -/
  | st64 (i : Issue)
  /-- R241. -/
  | ldv (i : Issue)
  /-- R241. -/
  | stv (i : Issue)
  /-- R241. -/
  | ldvb (i : Issue)
  /-- R241. -/
  | vadd (i : Issue)
  /-- R241. -/
  | vsub (i : Issue)
  /-- R241. -/
  | vmul (i : Issue)
  /-- R241. -/
  | vfma (i : Issue)
  /-- R241. -/
  | vmin (i : Issue)
  /-- R241. -/
  | vmax (i : Issue)
  /-- R241. -/
  | vcmp (i : Issue)
  /-- R241. -/
  | vrsum (i : Issue)
  /-- R241. -/
  | vrmax (i : Issue)
  /-- R328. -/
  | vcvt (i : Issue)
  /-- R241. -/
  | vperm (i : Issue)
  /-- R241. -/
  | vbcast (i : Issue)
  /-- R241. -/
  | vmovs (i : Issue)
  /-- R295. -/
  | acfg (i : Issue)
  /-- R295. -/
  | apass (i : Issue)
  /-- R295. -/
  | aout (i : Issue)
  /-- R313. -/
  | arrayQueueStart (t : Instant) (c : CoreId)
  /-- R388. -/
  | stripGrant (t : Instant) (c : CoreId) (n : Inlet)
  /-- R297. -/
  | stripEnd (t : Instant) (c : CoreId)
  /-- R298. -/
  | aoutDone (t : Instant) (c : CoreId)
  /-- R312. -/
  | beatTimeout (t : Instant) (c : CoreId)
  /-- R370. -/
  | sq (i : Issue)
  /-- R372. -/
  | sqdef (i : Issue)
  /-- R373. -/
  | sqstat (i : Issue)
  /-- R371. -/
  | descriptorStart (t : Instant) (c : CoreId)
  /-- R393: the lane of the running descriptor, what the burst's checks find, and the violated digits of its vertical transfers. -/
  | streamBurst (t : Instant) (c : CoreId) (lane : Fin 4) (found : Found) (digits : Digits)
  /-- R371. -/
  | descriptorComplete (t : Instant) (c : CoreId) (lane : Fin 4)
  /-- R389. -/
  | stripStallTimeout (t : Instant) (c : CoreId) (n : Inlet)
  /-- R275. -/
  | send (i : Issue)
  /-- R275. -/
  | recv (i : Issue)
  /-- R275. -/
  | token (i : Issue)
  /-- R275. -/
  | poll (i : Issue)
  /-- R270: the partition and the channel. -/
  | creditArrive (t : Instant) (p : PartId) (ch : Fin 4096)
  /-- R278. -/
  | messageArrive (t : Instant) (p : PartId) (ch : Fin 4096)
  /-- R279. -/
  | sendComplete (t : Instant) (p : PartId) (ch : Fin 4096)
  /-- R333. -/
  | sin (i : Issue)
  /-- R333. -/
  | cos (i : Issue)
  /-- R335. -/
  | rcp (i : Issue)
  /-- R335. -/
  | rsqrt (i : Issue)
  /-- R338: the table the OP names. -/
  | tbl (i : Issue) (n : Fin 4)
  /-- R341. -/
  | tblLoad (i : Issue) (n : Fin 4)
  /-- R343. -/
  | rstat (i : Issue)
  /-- R330. -/
  | sfuOpComplete (t : Instant) (c : CoreId)
  /-- R341. -/
  | tableLoadComplete (t : Instant) (c : CoreId)
  /-- R243. -/
  | wait (i : Issue)
  /-- R245. -/
  | waitt (i : Issue)
  /-- R243. -/
  | waitComplete (t : Instant) (c : CoreId)
  /-- R245. -/
  | waittTimeout (t : Instant) (c : CoreId)
  /-- R246. -/
  | fence (i : Issue)
  /-- R246. -/
  | fenceComplete (t : Instant) (c : CoreId)
  /-- R248. -/
  | endPart (i : Issue)
  /-- R248. -/
  | corePartEnd (t : Instant) (c : CoreId)
  /-- R247. -/
  | rdsys (i : Issue)
  /-- R251. -/
  | softFault (i : Issue)
  /-- R242. -/
  | clrf (i : Issue)
  /-- R250. -/
  | unitFaultReport (t : Instant) (c : CoreId) (f : UnitFault)
  /-- R260: the offset in the core window and the value written, if it is a write. -/
  | pageWindowAccess (t : Instant) (c : CoreId) (offset : Nat) (v : Option W32)
  /-- R353. -/
  | sliceReadTransfer (t : Instant) (x : SliceXfer)
  /-- R354: the 128 bytes and which of them are written. -/
  | sliceWriteTransfer (t : Instant) (x : SliceXfer) (data : Bytes) (mask : BitVec 128)
  /-- R361: a layer of the slice of a core, and the foreground transfers for it. -/
  | sliceRefreshDue (t : Instant) (c : CoreId) (layer : Fin 4) (fg : Foreground)
  /-- R364. -/
  | sliceScrubTransfer (t : Instant) (x : SliceXfer) (waiting : Bool)
  /-- R407: a pseudo-channel, and the requests for it. -/
  | nbRefreshDue (t : Instant) (k : StackId) (pc : ChanId) (fg : Foreground)
  /-- R410: a row of R139, the 32-byte word in its cell, and what the stack's correction finds. -/
  | nbScrubTransfer (t : Instant) (k : StackId) (pc : ChanId) (row word : Nat) (e : Ecc) (waiting : Bool)
  /-- R402. -/
  | farCacheCfgWrite (t : Instant) (w : TowerId) (v : W32)
  /-- R417: the region named in DREGION, the core that sent it and the 32 bytes. -/
  | nbuCommandEnqueue (t : Instant) (k : StackId) (pc : ChanId) (region : RegionId) (c : CoreId) (cmd : Bytes)
  /-- R418. -/
  | nbuNop (t : Instant) (k : StackId) (pc : ChanId)
  /-- R418: what the stack's correction finds on the words read, by word number in the region. -/
  | nbuLoad (t : Instant) (k : StackId) (pc : ChanId) (upsets : List (Nat × Ecc))
  /-- R418. -/
  | nbuSet (t : Instant) (k : StackId) (pc : ChanId)
  /-- R418. -/
  | nbuClracc (t : Instant) (k : StackId) (pc : ChanId)
  /-- R419. -/
  | nbuMac (t : Instant) (k : StackId) (pc : ChanId) (upsets : List (Nat × Ecc))
  /-- R418. -/
  | nbuScore (t : Instant) (k : StackId) (pc : ChanId) (upsets : List (Nat × Ecc))
  /-- R418. -/
  | nbuEmit (t : Instant) (k : StackId) (pc : ChanId)
  /-- R418. -/
  | nbuFence (t : Instant) (k : StackId) (pc : ChanId)
  /-- R418. -/
  | nbuClear (t : Instant) (k : StackId) (pc : ChanId)
  /-- R422: the core that reads and the number of entries it asks for. -/
  | nbuResultRead (t : Instant) (k : StackId) (pc : ChanId) (region : RegionId) (c : CoreId) (entries : Nat)
  /-- R464: the value written to FAB_PORTp_CFG. -/
  | portEnable (t : Instant) (p : PortId) (v : W32)
  /-- R502. -/
  | portTrain (t : Instant) (p : PortId)
  /-- R462. -/
  | portLinkUp (t : Instant) (p : PortId)
  /-- R472. -/
  | portLinkDown (t : Instant) (p : PortId)
  /-- R471. -/
  | croakSend (t : Instant) (p : PortId)
  /-- R472. -/
  | croakReceive (t : Instant) (p : PortId) (x : Croak)
  /-- R472: the neighbour whose Croaks are missed. -/
  | adjacencyTimeout (t : Instant) (p : PortId) (unit : W64)
  /-- R481: the port and the neighbour it came from. -/
  | lsrReceive (t : Instant) (p : PortId) (sender : W64) (x : Lsr)
  /-- R481. -/
  | lsrRefresh (t : Instant)
  /-- R481. -/
  | lsrExpiry (t : Instant) (unit : W64)
  /-- R483. -/
  | routeInstall (t : Instant)
  /-- R477. -/
  | addressClaimTimeout (t : Instant)
  /-- R469: the port, the Ethernet frame without its check sequence (R463, R464) as its header and the rest, and what its packet
  carries besides its bytes. -/
  | bftPacketReceive (t : Instant) (p : PortId) (header body : Bytes) (x : Carried)
  /-- R470: the receiving stream, by its place in the list of streams. -/
  | ackDelayExpiry (t : Instant) (stream : Nat)
  /-- R470: the sending stream and the packet's SEQ. -/
  | retransmitTimeout (t : Instant) (stream : Nat) (seq : W32)
  /-- R491: DIGEST, SELF, HOPS, IMAGE_ID and the worker's CAP. -/
  | spanJoin (t : Instant) (h : SpanHead) (digest : W32) (self hops : Nat) (image : W32) (cap : W64)
  /-- R492. -/
  | spanReady (t : Instant) (h : SpanHead) (digest : W32) (gen : BitVec 16)
  /-- R491. -/
  | spanReject (t : Instant) (h : SpanHead) (reason : Byte)
  /-- R494. -/
  | spanLaunch (t : Instant) (h : SpanHead) (graph : Fin 4096) (epoch : BitVec 16) (serial : W32) (timed : Bool) (start : W64) (params : List (Nat × W64))
  /-- R496. -/
  | spanDone (t : Instant) (h : SpanHead) (graph : Fin 4096) (epoch : BitVec 16) (status cause : Byte) (beats : W64) (preempt : Byte)
  /-- R495. -/
  | spanAbort (t : Instant) (h : SpanHead) (graph : Fin 4096) (epoch : BitVec 16)
  /-- R497. -/
  | spanLeave (t : Instant) (h : SpanHead) (reason : Byte)
  /-- R491. -/
  | joinResend (t : Instant) (n : PartId)
  /-- R498. -/
  | spanLossTimeout (t : Instant) (n : PartId)
  /-- R512: the partition, its WORK queue, the 64 bytes read, and the source bytes. -/
  | rmaWrite (t : Instant) (p : PartId) (r : Nat) (record : Bytes) (source : Bytes)
  /-- R512. -/
  | rmaWriteFlag (t : Instant) (p : PartId) (r : Nat) (record : Bytes) (source : Bytes)
  /-- R512. -/
  | rmaRead (t : Instant) (p : PartId) (r : Nat) (record : Bytes)
  /-- R519. -/
  | rmaFetchAdd (t : Instant) (p : PartId) (r : Nat) (record : Bytes)
  /-- R519. -/
  | rmaCmpSwap (t : Instant) (p : PartId) (r : Nat) (record : Bytes)
  /-- R524. -/
  | rmaSend (t : Instant) (p : PartId) (r : Nat) (record : Bytes) (source : Bytes)
  /-- R514. -/
  | rmaConnect (t : Instant) (p : PartId) (r : Nat) (record : Bytes)
  /-- R531. -/
  | rmaClose (t : Instant) (p : PartId) (r : Nat) (record : Bytes)
  /-- R506. -/
  | rmaInConnect (t : Instant) (x : RmaPkt)
  /-- R513. -/
  | rmaAccept (t : Instant) (x : RmaPkt)
  /-- R513. -/
  | rmaRefuse (t : Instant) (x : RmaPkt)
  /-- R528. -/
  | rmaGone (t : Instant) (x : RmaPkt)
  /-- R522. -/
  | rmaCredit (t : Instant) (x : RmaPkt)
  /-- R515. -/
  | rmaResponse (t : Instant) (x : RmaPkt)
  /-- R517. -/
  | rmaInWrite (t : Instant) (x : RmaPkt)
  /-- R518. -/
  | rmaInWriteFlag (t : Instant) (x : RmaPkt)
  /-- R526: what the stack's correction finds on the words read. -/
  | rmaInRead (t : Instant) (x : RmaPkt) (upsets : List (Nat × Ecc))
  /-- R519. -/
  | rmaInFetchAdd (t : Instant) (x : RmaPkt) (upsets : List (Nat × Ecc))
  /-- R519. -/
  | rmaInCmpSwap (t : Instant) (x : RmaPkt) (upsets : List (Nat × Ecc))
  /-- R524. -/
  | rmaInSend (t : Instant) (x : RmaPkt)
  /-- R531. -/
  | rmaInClose (t : Instant) (x : RmaPkt)
  /-- R522. -/
  | rmaCreditTimer (t : Instant)
  /-- R514. -/
  | rmaConnectResend (t : Instant) (p : PartId) (conn : Fin 4096)
  /-- R515. -/
  | rmaResponseTimeout (t : Instant) (p : PartId) (conn : Fin 4096) (seq : W32)
  /-- R537: whether it stays high for at least 1 µs, and the TIME_REF cycles since the previous edge. -/
  | ppsInEdge (t : Instant) (wide : Bool) (cycles : Nat)
  /-- R537. -/
  | ppsEdgeMissed (t : Instant)
  /-- R537. -/
  | timeRefLost (t : Instant)
  /-- R537: whether it comes from the current grandmaster, the offset measured (for a one-step Sync) in ns, and whether a Follow_Up will bring the timestamp. -/
  | ptpSync (t : Instant) (fromGm : Bool) (offset : Int) (twoStep : Bool)
  /-- R537. -/
  | ptpSyncTimeout (t : Instant)
  /-- R542: the outcome of the best master clock algorithm. -/
  | ptpAnnounce (t : Instant) (m : PtpMaster)
  /-- R542: the port and the requesting port's identity. -/
  | ptpDelayReq (t : Instant) (p : PortId) (requester : W64)
  /-- R542: the path delay computed, in ns. -/
  | ptpDelayResp (t : Instant) (delay : Nat)
  /-- R542. -/
  | ptpSyncSend (t : Instant) (p : PortId)
  /-- R543. -/
  | ptpAnnounceSend (t : Instant) (p : PortId)
  /-- R550. -/
  | ppsOutEdge (t : Instant)
  /-- R547. -/
  | slewEnd (t : Instant)
  /-- R549. -/
  | holdEnd (t : Instant)
  /-- R544. -/
  | uncUpdate (t : Instant)
  /-- R551: the value written to TIM_SET_HI. -/
  | timSet (t : Instant) (hi : W32)
  /-- R537. -/
  | timCfgWrite (t : Instant) (v : W32)
  /-- R579: a tower's counter or, with `none`, the hub's; the counter; the selection word. -/
  | counterSelectWrite (t : Instant) (w : Option TowerId) (i : Fin 64) (v : W32)
  /-- R585: the value written to EVC_SNAP_TIME_HI. -/
  | snapshotArm (t : Instant) (hi : W32)
  /-- R585. -/
  | snapshotTrigger (t : Instant)
  /-- R591: which of the records that wait is written (the arbiter's choice). -/
  | faultLogWrite (t : Instant) (which : Nat)
  /-- R592. -/
  | faultRecordCapture (t : Instant) (f : Fn) (slot : Fin 256)
  /-- R611: the value written to FLT_CLEAR. -/
  | faultLogClear (t : Instant) (v : W32)
  /-- R596. -/
  | lampCfgWrite (t : Instant) (f : Fn) (lamp : Fin 12) (v : W32)
  /-- R597: whether the sink current reaches half its setting in the measured part. -/
  | lampPeriod (t : Instant) (lamp : Fin 12) (current : Bool)
  /-- R601. -/
  | lampUnprovenTimeout (t : Instant) (lamp : Fin 12)
  /-- R605: the offset in the TMX_ block. -/
  | tmxSelectWrite (t : Instant) (offset : Nat) (v : W32)
  /-- R608. -/
  | tapReset (t : Instant)
  /-- R608: the bits shifted through. -/
  | tapBypass (t : Instant) (tdi : List Bool)
  /-- R608: the pins sampled and the bits shifted in. -/
  | tapSamplePreload (t : Instant) (pins tdi : List Bool)
  /-- R608. -/
  | tapExtest (t : Instant) (pins tdi : List Bool)
  /-- R608. -/
  | tapIdcode (t : Instant) (tdi : List Bool)
  /-- R608. -/
  | tapClamp (t : Instant) (tdi : List Bool)
  /-- R608. -/
  | tapHighz (t : Instant) (tdi : List Bool)
  /-- R9: the function and the BAR0 offset. -/
  | pairLoRead (t : Instant) (f : Fn) (offset : Nat)
  /-- R8. -/
  | pairHiWrite (t : Instant) (f : Fn) (offset : Nat) (v : W32)
  /-- R216: also a read of any other register; through PF0 an offset from 0x1000_0000 on is one of BAR2, the staging window (R146). -/
  | registerReadClear (t : Instant) (f : Fn) (offset : Nat)
  /-- R7. -/
  | registerWrite (t : Instant) (f : Fn) (offset : Nat) (v : W32)
  /-- R12: the link, by number, and whether foreground work holds it. -/
  | linkRecalibration (t : Instant) (link : Fin 64) (busy : Bool)
  /-- R568: the trip sensor and its reading. -/
  | rearmThresholdCrossing (t : Instant) (sensor : Fin 58) (reading : BitVec 16)
  /-- R537. -/
  | timeRefReturn (t : Instant)
  /-- R542: the offset the precise timestamp gives, in ns. -/
  | ptpFollowUp (t : Instant) (offset : Int)
  /-- R542: the new outcome of the best master clock algorithm. -/
  | announceReceiptTimeout (t : Instant) (m : PtpMaster)
  /-- R364. -/
  | scrubPeriodExpiry (t : Instant) (c : CoreId)
deriving DecidableEq, Repr

end Sys2Proof
end

