-- ==== Sys2Proof/WellFormed.lean ====
section
/-!
DEFINITION. Which commands the outside can send: the conditions on operands that their types do not state. `exec` does not
test them; a statement may assume them.
-/
namespace Sys2Proof

/-- A mailbox command: eight arguments at most (R96). -/
def MbxCmd.wellFormed (m : MbxCmd) : Bool := decide (m.args.length ≤ 8)

/-- A doorbell goes to a ring of the function: PF0 has the rings of the whole device, a VF those of its partition; both at
most 128 (R94, R95). -/
def ringWellFormed (r : Nat) : Bool := decide (r < 128)

/-- A near-bank request reads at least one byte or writes at least one (R206). -/
def NbReq.wellFormed (r : NbReq) : Bool :=
  match r.write with
  | some bs => decide (bs.length ≠ 0)
  | none => decide (r.count ≠ 0)

/-- The conditions on a command's operands. -/
def Instr.wellFormed : Instr → Bool
  | .stagingWrite _ _ data => decide (data.length ≠ 0)
  | .mbxNop _ m | .frameCommit _ m _ _ | .partCommit _ m _ _ | .moltRelease _ m | .stageDiscard _ m | .partRearm _ m
  | .setPowerLimit _ m | .tmxUnlock _ m => m.wellFormed
  | .nbRequest _ r => r.wellFormed
  | .launchDoorbell _ _ r _ | .completionDoorbell _ _ r _ | .rmaWorkDoorbell _ _ r _ | .rmaEventDoorbell _ _ r _ =>
    ringWellFormed r
  | .meshTransfer _ _ _ wires _ => decide (wires.length ≠ 0)
  | .registerReadClear _ _ off | .registerWrite _ _ off _ | .pairLoRead _ _ off | .pairHiWrite _ _ off _ =>
    decide (off % 4 = 0)
  | .pageWindowAccess _ _ off _ => decide (off % 4 = 0)
  | _ => true

end Sys2Proof
end

