-- ==== Sys2Proof/Decode.lean ====
section
/-!
DEFINITION. Words to commands. The block takes commands from its pins, its PCI Express functions, its sideband and its
ports; spec/opcode_table.json gives its rows no bits, so that no word spells a command.
-/
namespace Sys2Proof

/-- The command that a word spells by the bits of spec/opcode_table.json: the table gives none. -/
def decodeTableWord (_nbits _w : Nat) : Option Instr := none

end Sys2Proof
end

