-- ==== Sys2Proof/Config.lean ====
section
/-!
DEFINITION. What the spec leaves open: free values, each an opaque constant without a body, applied to the count
`State.free` (a fresh value at each draw) or to the operands it depends on. No statement can rest on a value of them.
-/
namespace Sys2Proof

/-- The duration of a command in µs, which MBX_RESULT3 and ADM_TIME report (R150, R193): not stated. -/
opaque Config.duration : Nat → W32
/-- The provisioned ID, BCR, DCR, status word and maximum data speeds that the I3C CCCs of R82 return: not stated. -/
opaque Config.i3cPid : BitVec 48
opaque Config.i3cBcr : Byte
opaque Config.i3cDcr : Byte
opaque Config.i3cStatus : Nat → BitVec 16
opaque Config.i3cMxds : BitVec 16
/-- Which bit of CLEAR_ALERT's mask (R85, R89) names cause `n` (0 trip, 1 rail loss, 2 temperature, 3 emergency hold). -/
opaque Config.alertBit : Fin 4 → Fin 8
/-- The byte that reports a set of alert causes, given by the same numbers (R85). -/
opaque Config.alertByte : List Nat → Byte
/-- How GET_TRIP_CAUSE codes the emergency state beside the trip causes and rail losses (R85). -/
opaque Config.emergencyByte : Bool → Bool → Byte
/-- Whether HUB_ID reads a DK36's code before S1 has read a good fuse map (R1, R39): which variant the silicon is then. -/
opaque Config.unfused36 : Bool
/-- Pentocy's PCI vendor identifier (R68): not stated. -/
opaque Config.vendorId : BitVec 16
/-- Pentocy's JEDEC manufacturer code (R608): not stated. -/
opaque Config.jedec : BitVec 11
/-- A free buffer that POOL_TAKE grants among `n` free ones (R452): which one is not stated. -/
opaque Config.poolPick : Nat → Nat
/-- The ticket of a waiting pool request (R452): not stated. -/
opaque Config.poolTicket : Nat → BitVec 20
/-- SIN and COS where the exact value lies within 2^-30 of its magnitude from a tie (R334): either neighbour. -/
opaque Config.trigPick : Nat → Bool
/-- RCP and RSQRT lie within 1 ulp of the exact value (R335): which of the values that do is not stated. -/
opaque Config.ulpPick : Nat → Nat
/-- The multiplier σ of an RSTAT whose RS2 breaks R343 (not finite, or a bit of [63:32] set): no outcome is stated. -/
opaque Config.sigma : Nat → W32
/-- Which line of a full far cache a fill replaces (R400): not stated. -/
opaque Config.farVictim : Nat → Nat
/-- The path hash of R484 over SRC, DST, TYPE, SPAN_ID, STREAM and the flowlet count: not stated. -/
opaque Config.pathHash : Nat → Nat → Nat → Nat → Nat → Nat → Nat
/-- The bank and the row that a stack reports for a local offset (NBS_UE_LASTj, R426): not stated. -/
opaque Config.nbLocation : Nat → Nat → BitVec 5 × BitVec 18
/-- The value of a poisoned read's bytes (R206, R356, R408): not stated. -/
opaque Config.poison : Nat → Byte
/-- The value of a test pin, of a floating pin or of a private signal that the spec does not give (R604, R608). -/
opaque Config.pin : Nat → Bool
/-- The cost of a link in nanoseconds, and other analog values that no rule states. -/
opaque Config.measured : Nat → W32
/-- Which of several watch entries with the lowest count a new row replaces (R358): not stated. -/
opaque Config.watchVictim : Nat → Nat
/-- CORE_FLT_ADDR for a cause that R251 gives no address: not stated. -/
opaque Config.faultAddr : Nat → W64
/-- A byte of the control state in a context slot (R256), by the PC saved and its offset: its layout is not stated. -/
opaque Config.contextByte : Nat → Nat → Byte
/-- READY of CHN_STATe for a receiving endpoint with more than 255 arrivals (R283): not stated. -/
opaque Config.readyByte : Nat → Byte
/-- What the on-chip entropy source gives the key store's DRBG at a reseed (R207). -/
opaque Config.entropy : Nat → BitVec 384
/-- Host memory's byte at a function's address, where a rule makes the device read it and no operand gives it. -/
opaque Config.hostByte : Nat → Byte

/-- The payload of a DATA packet for an item (0 message, 1 token, 2 credit), its epoch and its data (R270, R465): not stated. -/
opaque Config.itemBytes : Nat → BitVec 16 → Bytes → Bytes

end Sys2Proof
end

