-- ==== Sys2Proof/Machine/State.lean ====
section
/-!
DEFINITION. The state of the Decalko block as plain data: every register, store, queue, mode and pin the spec names, the
queue of waiting commands, and the model's own fields (`clock`, `free`, `out`). A table over numbers is an `AMap`: pairs in
rising order of the number, no pair equal to the default an unlisted number reads as. The field defaults of each structure
are its values at reset.
-/
namespace Sys2Proof.Machine

/-- A table from numbers to values in canonical form (keys strictly rising, no entry equal to the default). -/
abbrev AMap (α : Type) := List (Nat × α)

/-- Bytes by address in canonical form: addresses strictly rising, no entry equal to 0, which an unlisted address reads
as (S4 and the Molt write zeros, R113, R157; an unwritten staged byte reads 0, R146). -/
abbrev Memory := List Host.Cell

/-- The block raises no fault that stops it: the spec gives every command an effect on the state. -/
inductive Fault where
deriving DecidableEq, Repr

/-- Why the model refuses a command. -/
inductive Refusal where
  /-- Raised by an arm of `exec` that has no meaning yet; safe: the model stops where the hardware goes on. -/
  | notModelled (mnemonic : String)
deriving DecidableEq, Repr

/-- An RC count that PF0 and a VF both read: one count for each (R216). -/
structure Dual where
  pf : Nat := 0
  vf : Nat := 0
deriving DecidableEq, Repr

/-! ## Images (ch. 05) -/

/-- PARTITION (R138); `off` is the record's offset in the image, here and below. -/
structure PartRec where
  off : Nat := 0
  part : Nat := 0
  floor : Nat := 0
  ringBase : Nat := 0
  ringCount : Nat := 0
  groups : W64 := 0
  lamps : BitVec 16 := 0
deriving DecidableEq, Repr

/-- REGION (R138). -/
structure RegionRec where
  off : Nat := 0
  index : Nat := 0
  part : Nat := 0
  mode : Nat := 0
  farCached : Bool := false
  target : BitVec 16 := 0
  baseRow : Nat := 0
  size : Nat := 0
deriving DecidableEq, Repr

/-- PORT (R138). -/
structure PortRec where
  off : Nat := 0
  port : Nat := 0
  part : Nat := 0
  share : Nat := 0
deriving DecidableEq, Repr

/-- POOL (R138). -/
structure PoolRec where
  off : Nat := 0
  pool : Nat := 0
  part : Nat := 0
  region : Nat := 0
  bufSize : Nat := 0
  bufCount : Nat := 0
  offset : Nat := 0
deriving DecidableEq, Repr

/-- FABRIC (R138). -/
structure FabricRec where
  off : Nat := 0
  policy : Nat := 0
  address : Nat := 0
deriving DecidableEq, Repr

/-- A frame image as parsed. -/
structure Frame where
  id : Nat := 0
  capVer : Nat := 0
  capFeat : Nat := 0
  variants : List (Nat × Nat) := []
  parts : List PartRec := []
  regions : List RegionRec := []
  ports : List PortRec := []
  pools : List PoolRec := []
  fabric : List FabricRec := []
deriving DecidableEq, Repr

/-- CHANNEL (R141); SRC and DST hold the core in [9:0] and the endpoint in [15:10]. -/
structure ChanRec where
  off : Nat := 0
  chan : Nat := 0
  kind : Nat := 0
  credits : Nat := 0
  src : BitVec 16 := 0
  dst : BitVec 16 := 0
  dstMember : Nat := 0xFFFF
  bw : Nat := 0
  hops : List (BitVec 16) := []
deriving DecidableEq, Repr

/-- STREAM_DEF (R141): descriptors of four words. -/
structure StreamDef where
  off : Nat := 0
  core : Nat := 0
  descs : List (List W64) := []
deriving DecidableEq, Repr

/-- SFU_TABLE (R141, R337). -/
structure SfuTabRec where
  off : Nat := 0
  core : Nat := 0
  table : Nat := 0
  body : Bytes := []
deriving DecidableEq, Repr

/-- GRAPH (R141). -/
structure GraphRec where
  off : Nat := 0
  graph : Nat := 0
  prio : Nat := 0
  cores : Nat := 0
  defaults : List W64 := []
deriving DecidableEq, Repr

/-- PROGRAM (R141). -/
structure ProgRec where
  off : Nat := 0
  graph : Nat := 0
  core : Nat := 0
  words : List W64 := []
deriving DecidableEq, Repr

/-- BINDING (R141). -/
structure BindRec where
  off : Nat := 0
  graph : Nat := 0
  chans : List Nat := []
deriving DecidableEq, Repr

/-- DEADLINE (R141). -/
structure DeadRec where
  off : Nat := 0
  graph : Nat := 0
  deadline : Nat := 0
  period : Nat := 0
deriving DecidableEq, Repr

/-- A term of a phase (R176). -/
structure Term where
  kind : Nat := 0
  id : Nat := 0
  amount : Nat := 0
deriving DecidableEq, Repr

/-- COST (R141, R176); `ok` is false when the phases run past the record's LEN (R178). -/
structure CostRec where
  off : Nat := 0
  graph : Nat := 0
  energy : Nat := 0
  phases : List (List Term) := []
  ok : Bool := true
deriving DecidableEq, Repr

/-- COUNTERS (R141, R576). -/
structure CountersRec where
  off : Nat := 0
  core : Nat := 0
  sels : List W32 := []
deriving DecidableEq, Repr

/-- SPAN (R141); `digest` is the CRC-32C of the payload with SELF taken as 0 (R490). -/
structure SpanRec where
  off : Nat := 0
  spanId : Nat := 0
  self : Nat := 0
  margin : Nat := 0
  members : List Nat := []
  digest : W32 := 0
deriving DecidableEq, Repr

/-- A partition image as parsed; `info` lists its PART_INFO records (offset, PART, FLAGS). -/
structure PartImage where
  id : Nat := 0
  capVer : Nat := 0
  capFeat : Nat := 0
  info : List (Nat × Nat × BitVec 8) := []
  chans : List ChanRec := []
  streams : List StreamDef := []
  tables : List SfuTabRec := []
  graphs : List GraphRec := []
  progs : List ProgRec := []
  binds : List BindRec := []
  deads : List DeadRec := []
  costs : List CostRec := []
  counters : List CountersRec := []
  spans : List SpanRec := []
deriving DecidableEq, Repr

/-! ## Rails, pins and the always-on domain (ch. 01, 03, 19) -/

/-- HUB_RAIL_STAT (R40) and the pins that enter the package. Bits of `good` and `lost`: VCORE_T0-3 in [3:0], VSLICE 4,
VNB 5, VDDQ_NB 6, VIO 7. -/
structure Rails where
  vaon : Bool := false
  good : BitVec 8 := 0
  lost : BitVec 8 := 0
  refclk : Bool := false
  perstN : Bool := false
  allGoodAt : Nat := 0
deriving DecidableEq, Repr

/-- The causes of ALERT_N (R89). -/
inductive AlertCause where
  | trip
  | rail
  | temperature
  | emergency
deriving DecidableEq, Repr

/-- A field of a sideband answer: its width in bits and its value. The order of bytes is not given (DESIGN CHOICE, notes/assumptions/38.md). -/
structure SbField where
  width : Nat
  value : Nat
deriving DecidableEq, Repr

/-- The last sequence byte of a SET_ or EMERGENCY_ command and its first outcome (R84). -/
structure SbLast where
  seq : Byte
  status : Nat
  fields : List SbField
deriving DecidableEq, Repr

/-- The sideband target (R82-R89), in the always-on domain. `last` keeps, for each SET_ or EMERGENCY_ command by its code,
the sequence byte last written and its first outcome; `status` and `resp` are the answer the next private
read returns. -/
structure Sideband where
  addr : Option (BitVec 7) := none
  ibi : Bool := false
  last : AMap (Option SbLast) := []
  armedAt : Option Nat := none
  status : Nat := 0
  resp : List SbField := []
  alerts : List AlertCause := []
  ibis : Nat := 0
deriving DecidableEq, Repr

/-- The trip chain (R566-R570), in the always-on domain. `hold` and `emHold` are the requesters that hold PWR_KILL_N low;
`pin` says that THERM_TRIP_N is low (R32). -/
structure Trip where
  hold : Bool := false
  emHold : Bool := false
  pin : Bool := false
  cause : W32 := 0
  count : Nat := 0
  readings : AMap (BitVec 16) := []
  broken : List Nat := []
  since : Option Nat := none
deriving DecidableEq, Repr

/-! ## Bring-up (ch. 04) -/

inductive StepState where
  | idle
  | running
  | done
  | failed
deriving DecidableEq, Repr

/-- A spare row or column of a slice bank in use (R113): the site as 272 × tower + 17 × physical row + physical column, the
layer and the bank, whether the spare is a column, and the row or column that it replaces. -/
structure SliceRepair where
  site : Nat := 0
  layer : Nat := 0
  bank : Nat := 0
  column : Bool := false
  index : Nat := 0
deriving DecidableEq, Repr

/-- The BUP_ block (R125-R127) and what bring-up found: `sliceReps` and `stackReps` are the repairs of slices (R113) and of
stack rows (R119) in force; `bad` are the sites found faulty, a mask of physical columns for
each 16 × tower + physical row; `hubUp` and `ringUp` count the modules lost on each hub link and ring link. -/
structure BringUp where
  seq : Nat := 0
  code : Nat := 0
  degraded : Bool := false
  st : StepState := .idle
  step : Nat := 0
  nxt : Nat := 0
  cmdErr : Nat := 0
  detail : AMap W32 := []
  mapSel : W32 := 0
  srepIdx : W32 := 0
  srepUsed : Nat := 0
  srepBad : Nat := 0
  bad : AMap (BitVec 17) := []
  sliceReps : List SliceRepair := []
  stackReps : List StackRow := []
  hubLost : AMap Nat := []
  ringLost : AMap Nat := []
  caps : AMap W64 := []
  towersOff : List Nat := []
  groupsOff : W64 := 0
  stacksOff : List Nat := []
  report : StepReport := {}
  keydig : AMap W32 := []
  keyMatch : Bool := false
  keyPresent : Bool := false
deriving DecidableEq, Repr

/-! ## Host link, mailbox, images, admission (ch. 03, 05, 06) -/

/-- HUB_LINK (R98), the SR-IOV enables (R70, R74), the _LO halves most recently written of 64-bit pairs, by pair (R8), the
captures of pairs read, by function and offset (R9), the keys programmed for the IDE streams (R69), and the
words of each function's MSI-X table (R71) that differ from their reset value, as the difference: word i of function f stands
at 1024 × f + i. `owed`: PERST_N was deasserted before S1 was DONE, so training begins when it is (R38). -/
structure Link where
  up : Bool := false
  training : Bool := false
  owed : Bool := false
  speed : BitVec 4 := 0
  width : BitVec 6 := 0
  lastReset : Nat := 0
  ide : BitVec 5 := 0
  ideKeys : AMap Bytes := []
  numVfs : Nat := 0
  vfEnable : Bool := false
  bme : W32 := 0
  los : AMap W32 := []
  captures : AMap (Option W64) := []
  msix : AMap W32 := []
deriving DecidableEq, Repr

/-- The commit that waits under R160, with all that stage 6 needs. -/
structure Parked where
  part : Nat := 0
  keep : Bool := false
  image : PartImage := {}
deriving DecidableEq, Repr

/-- The command being carried out (R76), with the outcome it will report. -/
structure MbxRun where
  tag : W32 := 0
  opcode : Nat := 0
  code : Nat := 0
  results : List W32 := []
  parked : Option Parked := none
deriving DecidableEq, Repr

/-- The MBX_ block (R96, R97). `record` holds the last 64 commands carried out, newest first (R78). -/
structure Mailbox where
  tag : W32 := 0
  opcode : W32 := 0
  args : AMap W32 := []
  done : Bool := false
  code : Nat := 0
  overrun : Bool := false
  repeated : Bool := false
  doneTag : W32 := 0
  results : List W32 := []
  run : Option MbxRun := none
  record : List (W32 × Nat × List W32) := []
deriving DecidableEq, Repr

/-- The staging window (R146-R148). `drop`: a hot reset or a PF FLR discards it when the commit that is BUSY ends (R90). -/
structure Staging where
  bytes : Memory := []
  chunks : List Nat := []
  late : Bool := false
  drop : Bool := false
deriving DecidableEq, Repr

/-- IMG_STATUS, IMG_OFFSET (R166, R167) and the ADM_ outcome registers (R193, R194). -/
structure ImgRegs where
  status : W32 := 0
  offset : W32 := 0xFFFFFFFF
  admStatus : W32 := 0
  admRes : W32 := 0
  admValue : W64 := 0
  admLimit : W64 := 0
  admTime : W32 := 0
deriving DecidableEq, Repr

/-! ## Cores (ch. 08-11, 13) -/

inductive CoreMode where
  | off
  | idle
  | running
  | waiting
  | saving
  | resuming
  | faulted
deriving DecidableEq, Repr

/-- What a core waits for: WAIT and WAITT with their masks and the instant at which WAITT gives up (R243, R245), FENCE (R246), END (R248), or room to
issue (R275, R295, R330, R370). -/
inductive WaitKind where
  | cond (rd : Nat) (units : BitVec 16) (eps : W64) (limit : Option Nat)
  | fence (kind : Nat)
  | ending
  | issue
deriving DecidableEq, Repr

/-- A row-statistics configuration (R343). -/
structure Rstat where
  addr : Nat := 0
  sigma : W32 := 0
  moments : Bool := false
  clear : Bool := false
  emit : Bool := false
  table : Nat := 0
deriving DecidableEq, Repr

/-- An entry of the array queue (R295); AOUT carries the row-statistics configuration before it in program order. -/
inductive ArrOp where
  | cfg (strips : Nat) (opts : W64) (md : BitVec 7)
  | pass
  | out (addr : W64) (md : BitVec 7) (rs : Option Rstat)
deriving DecidableEq, Repr

/-- The configuration ACFG sets (R295, ARR_CFG of R314). -/
structure ArrCfg where
  strips : Nat := 0
  wfmt : BitVec 4 := 0
  nfmt : BitVec 4 := 0
  mixed : Bool := false
  blk16 : Bool := false
  mx : Bool := false
deriving DecidableEq, Repr

/-- The array of a core (R284-R315). `acc` holds accumulator (i, j) at 128 × i + j; `int` says they are INT32;
`begun`: on a pinned core a token has come since the pass's first operands were ready (R62). -/
structure Arr where
  queue : List ArrOp := []
  cfg : Option ArrCfg := none
  acc : AMap W32 := []
  int : Bool := false
  tile : Bool := false
  written : Bool := false
  pass : Bool := false
  begun : Bool := false
  done : Nat := 0
  out : Option ArrOp := none
  stopped : Bool := false
  poison : Bool := false
  lost : Bool := false
  short : Bool := false
  real : Nat := 0
  strips : Nat := 0
  passes : Nat := 0
  beats : Nat := 0
  gated : Nat := 0
deriving DecidableEq, Repr

/-- One inlet (R383-R390, STR_WIN of R396): absolute line numbers `head` (first held) and `tail` (next to write), strip
numbers for the scale slots, the line numbers at which an end of stream stands, the strips granted ahead, and the request
that waits (since when, and whether it counted as a stall). -/
structure InletSt where
  base : Option Nat := none
  fmt : BitVec 4 := 0
  blk16 : Bool := false
  mx : Bool := false
  head : Nat := 0
  tail : Nat := 0
  readStrip : Nat := 0
  writeStrip : Nat := 0
  writeLine : Nat := 0
  ends : List Nat := []
  poison : Bool := false
  ahead : Nat := 0
  since : Option Nat := none
  stalled : Bool := false
deriving DecidableEq, Repr

/-- A running descriptor (R371): its queue position, its four words, how many bursts it has made, and whether its last
burst is done. -/
structure Lane where
  pos : Nat := 0
  words : List W64 := []
  done : Nat := 0
  finished : Bool := false
deriving DecidableEq, Repr

/-- The stream engine (R370-R396). -/
structure Str where
  queue : List (Nat × List W64) := []
  issued : Nat := 0
  lanes : AMap (Option Lane) := []
  west : InletSt := {}
  north : InletSt := {}
  valid : Bool := false
  leftover : Bool := false
  pos : Nat := 0
  reason : Nat := 0
  done : Nat := 0
  bytes : Nat := 0
deriving DecidableEq, Repr

/-- A queued SFU instruction with the operands it read at issue (R330). -/
structure SfuOp where
  op : Nat := 0
  load : Bool := false
  rd : BitVec 5 := 0
  plane : Bool := false
  sc : W64 := 0
  x : V1024 := 0
  lo : V1024 := 0
  hi : V1024 := 0
  rs : Option Rstat := none
deriving DecidableEq, Repr

/-- A function table of the SFU (R337, R350). -/
structure SfuTab where
  loaded : Bool := false
  runtime : Bool := false
  loads : Nat := 0
  body : Bytes := []
deriving DecidableEq, Repr

/-- The part of the SFU that belongs to a launch (R343, R350). -/
structure SfuRun where
  queue : List SfuOp := []
  issued : Option Rstat := none
  rstat : Option Rstat := none
  rows : Nat := 0
  valid : Bool := false
  unit : Nat := 0
  reason : Nat := 0
deriving DecidableEq, Repr

/-- A channel endpoint (R262, R266, R270, R283). `level` counts the credits of a sending endpoint; `posts` and `arrivals`
hold (address, capacity or length), oldest first; `held` the items of a newer epoch. -/
structure Ep where
  valid : Bool := false
  recv : Bool := false
  packet : Bool := false
  chan : Nat := 0
  credits : Nat := 0
  st : Nat := 0
  level : Nat := 0
  posts : List (Nat × Nat) := []
  arrivals : List (Nat × Nat) := []
  count : Nat := 0
  epoch : BitVec 16 := 0
  held : List Item := []
deriving DecidableEq, Repr

/-- An event counter (R575-R585): exact and, for a shared source through a VF, quantised (R583). -/
structure Counter where
  sel : W32 := 0
  val : Nat := 0
  ovf : Bool := false
  qval : Nat := 0
  qovf : Bool := false
  snap : Nat := 0
  snapOvf : Bool := false
  qsnap : Nat := 0
  qsnapOvf : Bool := false
deriving DecidableEq, Repr

/-- The registers of one launch on a core: what begins at zero (R227) and what pre-emption saves (R255, R256); `used` names the
slice layers and stacks it has used, by die (R192); `prev` is the word last issued, where it issued alone and the next can pair
with it (R228). -/
structure CoreRun where
  graph : Nat := 0
  launch : Nat := 0
  serial : W32 := 0
  base : Nat := 0
  words : Nat := 0
  g : AMap W64 := []
  v : AMap V1024 := []
  pc : Nat := 0
  vflags : BitVec 5 := 0
  wait : Option (WaitKind × Nat) := none
  arr : Arr := {}
  str : Str := {}
  sfu : SfuRun := {}
  preempts : Nat := 0
  used : List Nat := []
  prev : Option W64 := none
deriving DecidableEq, Repr

/-- A saved context (R256): the launch's registers and its parameter area. -/
structure Ctx where
  run : CoreRun := {}
  params : Memory := []
  mode : CoreMode := .running
deriving DecidableEq, Repr

/-- A core (R226-R261) with its units. `near` is the near store by near-store address; `slice` the bytes of its slice
and `marks` the 64-bit words of the slice that are bad: 1 a double-bit error, 2 POISONED (R356, R365). `abortedAt`: when it was
stopped because of another core or an abort (R252, R253). Of the scrub sweep of its slice (R363, R364): `scrubbed` counts the
transfers read, `swept` has a bit for each of them, `sweepDone` says that the period's sweep is over, `sweepAt` is when the
period began, `offLayer` lists the layers that scrub stays off. -/
structure Core where
  mode : CoreMode := .off
  abortedAt : Option Nat := none
  last : Nat := 0
  run : CoreRun := {}
  shownPc : Nat := 0
  fltValid : Bool := false
  fltPrecise : Bool := false
  fltDetail : Nat := 0
  fltCause : Nat := 0
  fltPc : Nat := 0
  fltAddr : W64 := 0
  code : AMap W64 := []
  near : Memory := []
  slot0 : Option Ctx := none
  slot1 : Option Ctx := none
  csPage : W32 := 0
  nsPage : W32 := 0
  tmonCfg : W32 := 0x041A0001
  tmonCount : Nat := 0
  tmonValid : Bool := false
  tempo : BitVec 12 := 0
  tmonAt : Nat := 0
  tmonMin : BitVec 12 := 0xFFF
  tmonLow : Bool := false
  slips : Dual := {}
  budgetBeats : Nat := 0
  budgetIssues : Nat := 0
  budgetStream : Nat := 0
  budgetSend : Nat := 0
  tables : AMap SfuTab := []
  eps : AMap Ep := []
  linkErr : Dual := {}
  stallLimit : W32 := 0x3E8
  stalls : Dual := {}
  evc : AMap Counter := []
  slice : Memory := []
  marks : AMap Nat := []
  owed : AMap Nat := []
  scrubbed : Nat := 0
  swept : Nat := 0
  sweepDone : Bool := false
  sweepAt : Nat := 0
  sweeps : Nat := 0
  lagging : Bool := false
  offLayer : List Nat := []
deriving DecidableEq, Repr

/-! ## Towers, stacks, NBUs, regions (ch. 12, 14) -/

/-- An entry of a tower's row watch (R358). -/
structure Watch where
  core : Nat := 0
  layer : Nat := 0
  bank : Nat := 0
  row : Nat := 0
  count : Nat := 0
deriving DecidableEq, Repr

/-- A line of a far cache (R400): the partition and the region that tag it, its 512-byte granule in the region, its data. -/
structure FarLine where
  part : Nat := 0
  region : Nat := 0
  line : Nat := 0
  data : Bytes := []
deriving DecidableEq, Repr

/-- A band (0 to 3) of each layer's refresh and (0 to 2) of each layer's ceiling, once the layer has been read (R359, R366). -/
structure Tower where
  slcCfg : W32 := 0x0418
  bands : AMap Nat := []
  ceils : AMap Nat := []
  forced : Nat := 0
  ceCnt : Nat := 0
  ceLast : W32 := 0
  ueCnt : Nat := 0
  ueLast : W32 := 0
  watch : List Watch := []
  nbuSel : W32 := 0
  farEnable : Bool := true
  far : List FarLine := []
  farHits : Nat := 0
  farMisses : Nat := 0
  farInval : Nat := 0
  evc : AMap Counter := []
deriving DecidableEq, Repr

/-- A near-bank stack (R404-R410, R426). -/
structure Stack where
  cfg : W32 := 0x18
  band : Nat := 0
  ceCnt : Nat := 0
  ueCnt : Nat := 0
  ueLast : W32 := 0
  forced : Nat := 0
  owed : AMap Nat := []
deriving DecidableEq, Repr

/-- How far an NBU's command has come that paused on a full result FIFO (R422): the steps done, whether a sum has saturated,
and the accumulator it began with. -/
structure NbuRun where
  done : Nat := 0
  sat : Bool := false
  acc : W32 := 0
deriving DecidableEq, Repr

/-- A near-bank unit (R412-R424): each queued command with its region and the core that sent it, and how far the first of them
has come. -/
structure Nbu where
  x : AMap (BitVec 256) := []
  a : AMap W32 := []
  queue : List (Nat × Nat × Bytes) := []
  fifo : List W64 := []
  run : Option NbuRun := none
  errOp : Byte := 0
  errStatus : Byte := 0
deriving DecidableEq, Repr

inductive SlotState where
  | empty
  | live
  | discarding
deriving DecidableEq, Repr

/-- A region's key slot (R211, R223) with its AES-256-XTS key pair, which nothing reads (R210). -/
structure KeySlot where
  st : SlotState := .empty
  gen : BitVec 16 := 0
  part : Nat := 0
  key : BitVec 512 := 0
deriving DecidableEq, Repr

/-- The CTR_DRBG of the key store (R207): Key, V and the requests since it was seeded. -/
structure Drbg where
  key : BitVec 256 := 0
  v : BitVec 128 := 0
  count : Nat := 0
deriving DecidableEq, Repr

/-- A region's contents as its owner reads them, and its poisoned 32-byte words (R408). -/
structure Region where
  bytes : Memory := []
  poison : List Nat := []
deriving DecidableEq, Repr

/-! ## Front end, rings, pools (ch. 15) -/

/-- A ring (R430-R434, R460). -/
structure Ring where
  cfg : W32 := 0
  size : W32 := 0
  defc : W32 := 0
  base : W64 := 0
  prod : Nat := 0
  cons : Nat := 0
  lserial : W32 := 0xFFFFFFFF
  enabled : Bool := false
  stopped : Bool := false
  err : Nat := 0
  phase : Bool := false
  cfull : Bool := false
deriving DecidableEq, Repr

/-- What a member of a span reported of a launch (R495, R496). -/
structure MemberEnd where
  index : Nat := 0
  status : Nat := 0
  cause : Nat := 0
  beats : Nat := 0
  preempt : Nat := 0
deriving DecidableEq, Repr

/-- A launch in flight (R437-R450). `reachedAt` is the monotonic instant at which TIM_NOW reached START, once a move of time
has followed it; `ends` lists the cores that ended with their outcome (0 END, otherwise the cause of
R251); `started` is S of R189 once it has started; `late` collects the cause bits of R192; `used` and `hot` the slice layers
and stacks, by die, that its ended cores have used and those that have been too hot since S; on a worker `remote` marks the
manager's launch. -/
structure Launch where
  id : Nat := 0
  ring : Nat := 0
  cring : Nat := 0
  graph : Nat := 0
  serial : W32 := 0
  readAt : Nat := 0
  timed : Bool := false
  startTime : W64 := 0
  reachedAt : Option Nat := none
  params : List W64 := []
  patches : List (Nat × W64) := []
  early : Bool := false
  started : Option Nat := none
  cores : List Nat := []
  ends : List (Nat × Nat) := []
  fault : Option Nat := none
  status : Option Nat := none
  molted : Bool := false
  beats : Nat := 0
  preempts : Nat := 0
  epoch : BitVec 16 := 0
  late : BitVec 6 := 0
  used : List Nat := []
  hot : List Nat := []
  remote : Bool := false
  members : List MemberEnd := []
  owing : List Nat := []
  aborting : Bool := false
  lostAt : Option Nat := none
deriving DecidableEq, Repr

/-- A completion record (R443) before it is written; `ring` is the absolute completion ring. -/
structure Comp where
  ring : Nat := 0
  serial : W32 := 0
  graph : Nat := 0
  status : Nat := 0
  detail : Nat := 0
  stamp : W64 := 0
  beats : Nat := 0
  lring : Nat := 0xFFFF
  slack : Int := 0
  preempt : Nat := 0
  dl : Bool := false
  late : Bool := false
deriving DecidableEq, Repr

/-- Who waits for a buffer of a pool: the host with its ticket, or the RMA engine for a connection (R452, R523). -/
inductive Waiter where
  | host (ticket : BitVec 20)
  | engine (part : Nat) (conn : Nat)
deriving DecidableEq, Repr

/-- A buffer pool (R451-R456, R461): the buffers taken, the wait list, the configuration. -/
structure Pool where
  taken : List Nat := []
  waiters : List Waiter := []
  cfg : W32 := 0
deriving DecidableEq, Repr

/-! ## Remote memory access (ch. 17) -/

/-- An RMA listener (R506, R534). -/
structure Listener where
  enable : Bool := false
  port : Nat := 0
  q : W32 := 0
  units : Nat := 0
  bufs : Nat := 0
deriving DecidableEq, Repr

/-- An RMA window (R507, R534). -/
structure Window where
  enable : Bool := false
  rights : BitVec 3 := 0
  region : Nat := 0
  key : W32 := 0
  base : Nat := 0
  len : Nat := 0
deriving DecidableEq, Repr

inductive ConnState where
  | closed
  | connecting
  | opened
  | closing
deriving DecidableEq, Repr

/-- A work record that has been issued and is not complete (R520): how many pieces are still to end, and where a READ's
data goes (`region` none: host memory). -/
structure Work where
  id : Nat := 0
  serial : W32 := 0
  op : Nat := 0
  silent : Bool := false
  left : Nat := 0
  region : Option Nat := none
  laddr : Nat := 0
  status : Nat := 0
  value : W64 := 0
deriving DecidableEq, Repr

/-- A request packet to send, of work `work`, with its cost in units and buffer credits (R521); `at0` is where its data
starts in the record's bytes. -/
structure OutPkt where
  op : Nat := 0
  pkt : RmaPkt
  work : Nat := 0
  units : Nat := 0
  bufs : Nat := 0
  cls : Nat := 2
  at0 : Nat := 0
deriving DecidableEq, Repr

/-- A request packet sent: its SEQ and its transmissions so far (R515). -/
structure SentPkt where
  seq : Nat := 0
  out : OutPkt
  sends : Nat := 1
  lastAt : Nat := 0
deriving DecidableEq, Repr

/-- A flagged piece held until every packet before it is applied (R518). -/
structure HeldFlag where
  pkt : RmaPkt
  notify : Bool := false
deriving DecidableEq, Repr

/-- A connection (R505, R521-R528, R534). As initiator: `granted`, `used`, `bufGranted`, `bufUsed`, the packets waiting for
credit, the packets sent, the records outstanding. As acceptor of requests: what it has granted and last announced
(`given`, `bufGiven`, `sentGiven`, `sentBufs`), what HELD withholds (`owedUnits`, `bufsOwed`, `bufsHeld`, R198), the buffers that back
its buffer credits, the SEQs received (`next`, `got`), the flags held and the last atomics' results (R526). `cls` is the class of its
CONNECT or CLOSE (R516), `first` what its ACCEPT granted (R514). -/
structure Conn where
  st : ConnState := .closed
  peerAddr : Nat := 0
  peerPart : Nat := 0
  peerConn : Nat := 0
  eventq : Nat := 0
  gen : Nat := 0
  peerGen : Nat := 0
  accepted : Bool := false
  peerCap : W64 := 0
  port : Nat := 0
  serial : W32 := 0
  sends : Nat := 0
  sentAt : Nat := 0
  granted : Nat := 0
  used : Nat := 0
  bufGranted : Nat := 0
  bufUsed : Nat := 0
  given : Nat := 0
  bufGiven : Nat := 0
  sentGiven : Nat := 0
  sentBufs : Nat := 0
  owedUnits : Nat := 0
  bufsOwed : Nat := 0
  bufsHeld : Nat := 0
  pool : Nat := 0
  bufs : List Nat := []
  allowed : Nat := 0
  waiting : List OutPkt := []
  sent : List SentPkt := []
  works : List Work := []
  nextWork : Nat := 0
  next : Nat := 0
  got : List Nat := []
  flags : List HeldFlag := []
  atoms : List (Nat × W64) := []
  closeSerial : Option W32 := none
  cls : Nat := 2
  first : Nat × Nat := (0, 0)
deriving DecidableEq, Repr

/-- An RMA event record (R532); `queue` is the absolute ring. -/
structure Evt where
  queue : Nat := 0
  serial : W32 := 0
  kind : Nat := 0
  status : Nat := 0
  conn : Nat := 0
  value : W64 := 0
  stamp : W64 := 0
deriving DecidableEq, Repr

/-- Pn's RMA block (R534). -/
structure Rma where
  connSel : W32 := 0
  listeners : AMap Listener := []
  windows : AMap Window := []
  conns : AMap Conn := []
  dup : Dual := {}
  access : Dual := {}
  badpeer : Dual := {}
  lost : Dual := {}
  events : List Evt := []
  goneSent : AMap Nat := []
deriving DecidableEq, Repr

/-! ## Partitions (ch. 06, 07, 15, 16) -/

inductive PState where
  | absent
  | empty
  | active
  | held
  | molting
deriving DecidableEq, Repr

inductive SpanState where
  | none
  | joining
  | ready
  | broken
deriving DecidableEq, Repr

/-- A span as FAB_SPANn shows it (R503): `joined` lists the members joined, with the hops each was admitted with. -/
structure Span where
  st : SpanState := .none
  joined : List (Nat × Nat) := []
  lostValid : Bool := false
  reason : Nat := 0
  lost : Nat := 0
  losses : Nat := 0
  gen : BitVec 16 := 0
  hops : Nat := 0
deriving DecidableEq, Repr

/-- Messages, tokens and credits of a channel on their way (R270, R279); `landed`: written at the receiver, not retired; `tag`: the
partition that owns the group they were sent from (R203). -/
structure Flight where
  item : Item
  tag : Nat := 0
  landed : Bool := false
deriving DecidableEq, Repr

/-- A partition. `molting`: a Molt of the command that runs shows MOLTING until the command ends (R197), and `st` is the state
that stands then; `barred`: not ACTIVE since its last Molt began (R217); `poolErr` counts what POOL_ERR shows its VF (R216,
R461); `turn` is the ring at which the round-robin of R438 goes on. -/
structure Part where
  st : PState := .absent
  molting : Bool := false
  barred : Bool := false
  image : Option PartImage := none
  ovw : List RegionRec := []
  aper : W32 := 0
  aperErr : Nat := 0
  lateCnt : Dual := {}
  lateWorst : Dual := {}
  lateLast : W32 := 0
  early : Dual := {}
  dup : Dual := {}
  rej : Dual := {}
  launches : List Launch := []
  comps : List Comp := []
  nextId : Nat := 0
  epochs : AMap (BitVec 16) := []
  prevStart : AMap (Option Nat) := []
  ledger : AMap Nat := []
  flights : AMap (List Flight) := []
  rma : Rma := {}
  span : Span := {}
  queSel : W32 := 0
  badDb : Nat := 0
  poolErr : Nat := 0
  turn : Nat := 0
deriving DecidableEq, Repr

/-! ## The fabric (ch. 16) -/

/-- An adjacency of a port (R471, R472, R474): the neighbour's unit ID, address, port, capability word, when its last Croak came, and
from which IPv6 address. -/
structure Adj where
  unit : W64 := 0
  address : Nat := 0
  port : Nat := 0
  cap : W64 := 0
  mismatch : Bool := false
  lastAt : Nat := 0
  ip : BitVec 128 := 0
deriving DecidableEq, Repr

/-- A port's LINK state (R502). -/
inductive LinkState where
  | down
  | training
  | up
deriving DecidableEq, Repr

/-- A fabric port (R502). -/
structure Port where
  enable : Bool := false
  mode : Bool := false
  cost : Nat := 0xA
  link : LinkState := .down
  adjs : List Adj := []
  ip : AMap W32 := []
  tx : Nat := 0
  rx : Nat := 0
  missed : Nat := 0
  drop : Nat := 0
  croakSeq : W32 := 0
deriving DecidableEq, Repr

/-- The operations of a SPAN packet (R490). -/
inductive SpanOp where
  | join (digest : W32) (self hops : Nat) (image : W32)
  | ready (digest : W32) (gen : BitVec 16)
  | reject (reason : Byte)
  | launch (graph : Nat) (epoch : BitVec 16) (serial : W32) (timed : Bool) (start : W64) (params : List (Nat × W64))
  | done (graph : Nat) (epoch : BitVec 16) (status cause : Byte) (beats : W64) (preempt : Byte)
  | abort (graph : Nat) (epoch : BitVec 16)
  | leave (reason : Byte)
deriving DecidableEq, Repr

/-- What a packet of a DATA or SPAN stream does when its turn in SEQ order comes (R469): the class and the item of a DATA packet, or
the operation of a SPAN packet and the capability word of its sender. -/
inductive Cargo where
  | data (cls : Nat) (item : Option Item)
  | span (op : Option SpanOp) (cap : W64)
deriving DecidableEq, Repr

/-- A sequenced stream as its receiver keeps it (R468, R469): NEXT, the packets held beyond the gap, and how many
accepted packets are unacknowledged. -/
structure RxStream where
  src : Nat := 0
  type : Nat := 0
  spanId : Nat := 0
  stream : Nat := 0
  next : Nat := 0
  held : List (Nat × Cargo) := []
  unacked : Nat := 0
deriving DecidableEq, Repr

/-- A sequenced stream as its sender keeps it: the next SEQ and the packets not acknowledged, each with its transmissions
so far and the time of the last (R470). -/
structure TxStream where
  dst : Nat := 0
  type : Nat := 0
  spanId : Nat := 0
  stream : Nat := 0
  part : Nat := 0
  next : Nat := 0
  sent : List (Nat × Bytes × Nat × Nat) := []
deriving DecidableEq, Repr

/-- An entry of the route table (R482): the next-hop ports, and the neighbour on each. -/
structure Route where
  valid : Bool := false
  hops : Nat := 0
  ports : List Nat := []
  vias : List W64 := []
deriving DecidableEq, Repr

/-- The path that a stream took last (R484): its name, its flowlet count, the port and when it was used. -/
structure Flow where
  src : Nat := 0
  dst : Nat := 0
  type : Nat := 0
  spanId : Nat := 0
  stream : Nat := 0
  count : Nat := 0
  port : Nat := 0
  at0 : Nat := 0
deriving DecidableEq, Repr

/-- State of the device's own fabric address (R475-R479). -/
inductive AddrState where
  | none
  | tentative
  | claimed
  | assigned
  | conflict
  | failed
deriving DecidableEq, Repr

/-- The FAB_ block (R501), the link-state database by unit ID with the time each record was refreshed, the streams, and the paths they
took (R484). -/
structure Fabric where
  addrState : AddrState := .none
  attempt : Nat := 0
  address : Nat := 0
  since : Nat := 0
  flowlet : W32 := 0x10
  udp : W32 := 0xC780
  rto : W32 := 0x32
  mcast0 : W32 := 0xFF050000
  mcast1 : W32 := 0
  mcast2 : W32 := 0
  mcast3 : W32 := 0x88B5
  event : W32 := 0
  lsrSeq : W32 := 0
  rtSel : W32 := 0
  retx : Nat := 0
  seqErr : Nat := 0
  hopExp : Nat := 0
  noRoute : Nat := 0
  memberErr : Nat := 0
  ports : AMap Port := []
  db : AMap (Option (Lsr × Nat)) := []
  routes : AMap Route := []
  rx : List RxStream := []
  tx : List TxStream := []
  flows : List Flow := []
deriving DecidableEq, Repr

/-! ## The time unit (ch. 18) -/

inductive TimState where
  | off
  | free
  | locked
  | brumation
deriving DecidableEq, Repr

/-- The TIM_ block (R552). `base` is the corrected time at the model's clock `at0`; `slew` what remains to be slewed then
(R547); `stepPending` the offset that waits for the PPS_OUT edge; `hold` the reading held after a backward step (R549); `remaining` the
remaining offset of R544 at `at0`; `ppsHigh` the instant at which the PPS_OUT pulse ends. -/
structure Tim where
  st : TimState := .off
  s8At : Nat := 0
  base : Int := 0
  at0 : Nat := 0
  slew : Int := 0
  stepPending : Option Int := none
  hold : Option Nat := none
  source : Nat := 0
  qualPps : Nat := 0
  qualPtp : Nat := 0
  ppsLost : Bool := true
  ppsMissed : Nat := 0
  ppsLastAt : Nat := 0
  timeRef : Bool := true
  ptpOffset : Option Int := none
  ptpDelay : Bool := false
  ptpTwoStep : Bool := false
  master : Option PtpMaster := none
  unc : W32 := 0xFFFFFFFF
  uncEntry : Nat := 0
  entryAt : Nat := 0
  wasSet : Bool := false
  setAt : Nat := 0
  remaining : Int := 0
  valid : Bool := false
  cfg : W32 := 0
  ptpCfg : W32 := 0x01808000
  uncLimit : W32 := 0x3E8
  stepLimit : W32 := 0x186A0
  holdRate : W32 := 0x32
  holdEntry : W32 := 0x14
  srcUnc : W32 := 0x32
  ppsWidth : W32 := 0xC8
  event : W32 := 0
  offset : Int := 0
  steps : Nat := 0
  lastStep : Int := 0
  risk : W32 := 0
  ptpGoodAt : Nat := 0
  ppsHigh : Nat := 0
  ppsOutAt : Option Nat := none
deriving DecidableEq, Repr

/-! ## Power and thermal (ch. 19) -/

/-- A manager sensor (R560, R563): its last good reading in 0.125 °C and its failure; how many samples in a row gave that reading, and
the lowest and highest readings of the die's other sensors since. -/
structure Sensor where
  reading : Int := 0
  fault : SensorFault := .none
  same : Nat := 0
  moved : AMap (Option (Int × Int)) := []
deriving DecidableEq, Repr

/-- The PWR_ and THM_ blocks (R573, R574). `history` keeps each die's counted reading over the last
100 ms, newest first, each with the instant from which it held. -/
structure Power where
  armed : Bool := false
  opLimit : Nat := 0
  sbLimit : Option Nat := none
  steps : Nat := 0
  stepsAt : Nat := 0
  coolSince : Option Nat := none
  now : Nat := 0
  windows : List (Nat × Nat) := []
  energy : Nat := 0
  vcore : AMap Nat := []
  vrFault : BitVec 4 := 0
  throttles : Nat := 0
  event : W32 := 0
  sensors : AMap Sensor := []
  sensSel : W32 := 0
  history : AMap (List (Nat × Int)) := []
deriving DecidableEq, Repr

/-! ## Observation (ch. 20) -/

/-- A fault record (R588, R589); a `kind` of 0 is an empty slot. -/
structure FltRec where
  seq : W32 := 0
  kind : Nat := 0
  sev : Nat := 0
  valid : Bool := false
  part : Nat := 0
  code : Nat := 0
  stamp : W64 := 0
  loc : W32 := 0
  detail : W32 := 0
  info : W64 := 0
deriving DecidableEq, Repr

/-- The fault log (R588-R594, R611): the 256 slots, the records not yet written, and each function's capture of a slot. -/
structure FltLog where
  slots : AMap FltRec := []
  waiting : List FltRec := []
  next : W32 := 0
  evicted : Nat := 0
  captures : AMap (Option FltRec) := []
deriving DecidableEq, Repr

/-- A lamp (R596-R601, R612). -/
structure Lamp where
  cfg : W32 := 0x01640000
  pending : Option W32 := none
  status : Nat := 0
  opens : Dual := {}
  periods : Nat := 0
  fails : Nat := 0
  measuredAt : Nat := 0
deriving DecidableEq, Repr

/-- Snapshots (R585, R610). -/
structure Snap where
  time : W64 := 0
  mask : W32 := 0
  armed : Bool := false
  done : Bool := false
  seq : BitVec 16 := 0
  stamp : W64 := 0
deriving DecidableEq, Repr

/-- The TMX_ block (R605, R613) and the TAP (R608): its instruction, what the chain and the bypass bit hold, and how the
chained pins stand: none while the logic drives them. -/
structure Test where
  unlocked : Bool := false
  outs : AMap W32 := []
  an : W32 := 0
  ins : AMap W32 := []
  err : Nat := 0
  tapInstr : Nat := 0
  chain : List Bool := []
  shifted : List Bool := []
  pins : Option (List Bool) := none
  floating : Bool := false
deriving DecidableEq, Repr

/-- How a read ended (R217, R409). -/
inductive ReadStatus where
  | ok
  | unsupported
  | poisoned
deriving DecidableEq, Repr

/-- A PTP message that the device sends as master (R542, R543): the Delay_Resp names the requesting port's identity; the
Announce carries clockClass, stepsRemoved and the grandmaster's identity with TIM_PTP_CFG. Stamps are TIM_NOW. -/
inductive PtpMsg where
  | sync
  | followUp (stamp : W64)
  | delayResp (requester stamp : W64)
  | announce (clockClass stepsRemoved : Nat) (identity : W64) (cfg : W32)
deriving DecidableEq, Repr

/-- What the block gives out, oldest first: interrupt messages (function, vector) with function 0 for PF0 and n + 1 for
VF(n+1); DMA writes (function, host address, bytes); fabric packets (port or route, bytes); PMBus writes (tower, mV); PTP messages
by port; and what the last read returned. `pba` holds the vectors whose pending bit is set: signalled while their table entry
was masked, and sent when it is unmasked (R71). -/
structure Outputs where
  msix : List (Nat × Nat) := []
  pba : List (Nat × Nat) := []
  dma : List (Nat × Nat × Bytes) := []
  packets : List (Option Nat × Bytes) := []
  vr : List (Nat × Nat) := []
  read : Bytes := []
  readStatus : ReadStatus := .ok
  ptp : List (Nat × PtpMsg) := []
deriving DecidableEq, Repr

/-- Link recalibration (R12): since when one is owed and not done, and until when a forced window occupies the link. -/
structure Recal where
  owed : Option Nat := none
  busyUntil : Nat := 0
deriving DecidableEq, Repr

/-- The state of the block. `clock` is the instant of the latest command (ns since VAON woke); `free` counts the free
values drawn (the model's own fields, as `out` is); `pending` is the queue of waiting commands, first in, first out; `turn` is
the partition at which the round-robin of R438 goes on. -/
structure State where
  clock : Nat := 0
  free : Nat := 0
  pending : List Instr := []
  out : Outputs := {}
  rails : Rails := {}
  fuse : Option FuseMap := none
  digest : Option Bytes := none
  srep : AMap W64 := []
  sb : Sideband := {}
  trip : Trip := {}
  bup : BringUp := {}
  link : Link := {}
  mbx : Mailbox := {}
  stage : Staging := {}
  img : ImgRegs := {}
  frame : Option Frame := none
  parts : AMap Part := []
  tagErr : Nat := 0
  tagErrLast : W32 := 0
  drbgOk : Bool := false
  drbg : Drbg := {}
  keys : AMap KeySlot := []
  window : Traffic := {}
  windows : Nat := 0
  cores : AMap Core := []
  towers : AMap Tower := []
  nbStacks : AMap Stack := []
  nbus : AMap Nbu := []
  regions : AMap Region := []
  rings : AMap Ring := []
  pfQueSel : W32 := 0
  pfBadDb : Nat := 0
  pools : AMap Pool := []
  poolErr : Nat := 0
  turn : Nat := 0
  fab : Fabric := {}
  tim : Tim := {}
  pwr : Power := {}
  evc : AMap Counter := []
  snap : Snap := {}
  flt : FltLog := {}
  lamps : AMap Lamp := []
  recals : AMap Recal := []
  test : Test := {}
deriving DecidableEq, Repr

/-- The block before VAON wakes it: every field at the value the spec gives for reset, and where it gives none at the
value that notes/assumptions/9.md names (DESIGN CHOICE). -/
def State.reset : State := {}

end Sys2Proof.Machine
end

