-- ==== Sys2Proof/Machine/Ops.lean ====
section
/-!
DEFINITION. The named operations over tables, memories and the state that every family of commands shares: tables and
bytes, the clock and fabric time (R535, R547, R549), ownership (R195, R199), interrupts (R72), fault records (R588),
event counters (R575, R584) and the stores of a core.
-/
namespace Sys2Proof.Machine

/-- What a meaning answers. -/
abbrev Result := Host.Outcome State Fault Refusal

/-! ## Tables and memories -/

/-- The value at `i`, `d` where nothing is listed. -/
def AMap.get {α : Type} (d : α) : AMap α → Nat → α
  | [], _ => d
  | (k, v) :: m, i => if i = k then v else AMap.get d m i

/-- An entry put before the first greater number. -/
def AMap.insert {α : Type} : AMap α → Nat → α → AMap α
  | [], i, v => [(i, v)]
  | (k, w) :: m, i, v => if i < k then (i, v) :: (k, w) :: m else (k, w) :: AMap.insert m i v

/-- The table with `v` at `i`; the default is not listed. -/
def AMap.put {α : Type} [DecidableEq α] (d : α) (m : AMap α) (i : Nat) (v : α) : AMap α :=
  let rest := m.filter (fun (p : Nat × α) => decide (p.1 ≠ i))
  if v = d then rest else AMap.insert rest i v

/-- The canonical form: keys strictly rising above `lo`, no default listed. -/
def AMap.wfFrom {α : Type} [DecidableEq α] (d : α) : Nat → AMap α → Bool
  | _, [] => true
  | lo, (k, v) :: m => decide (lo ≤ k) && decide (v ≠ d) && AMap.wfFrom d (k + 1) m

/-- The table is in canonical form. -/
def AMap.wf {α : Type} [DecidableEq α] (d : α) (m : AMap α) : Bool := AMap.wfFrom d 0 m

/-- The memory's canonical form. -/
abbrev Memory.wf (m : Memory) : Bool := AMap.wf (0 : Byte) m

/-- The byte at an address. -/
def Memory.read (m : Memory) (a : Nat) : Byte := AMap.get 0 m a

/-- One byte stored. -/
def Memory.write (m : Memory) (a : Nat) (b : Byte) : Memory := AMap.put 0 m a b

/-- `n` bytes from `a`, lowest first. -/
def Memory.readN (m : Memory) (a n : Nat) : Bytes := (List.range n).map (fun i => Memory.read m (a + i))

/-- Bytes stored from `a`, lowest first. -/
def Memory.writeN : Memory → Nat → Bytes → Memory
  | m, _, [] => m
  | m, a, b :: bs => Memory.writeN (Memory.write m a b) (a + 1) bs

/-- The bytes of `m` at or above `lo` and below `hi`. -/
def Memory.within (m : Memory) (lo hi : Nat) : Memory := m.filter (fun c => decide (lo ≤ c.1) && decide (c.1 < hi))

/-- The bytes of `m` outside `lo` to `hi`. -/
def Memory.without (m : Memory) (lo hi : Nat) : Memory := m.filter (fun c => !(decide (lo ≤ c.1) && decide (c.1 < hi)))

/-- Little-endian bytes as a number (R128, R317). -/
def leNat : Bytes → Nat
  | [] => 0
  | b :: bs => b.toNat + 256 * leNat bs

/-- A number as `n` little-endian bytes. -/
def leBytes : Nat → Nat → Bytes
  | 0, _ => []
  | n + 1, x => BitVec.ofNat 8 x :: leBytes n (x / 256)

/-- Bits `[hi:lo]` of a number, as the notation of ch. 00 writes them. -/
def bits (x hi lo : Nat) : Nat := x / 2 ^ lo % 2 ^ (hi + 1 - lo)

/-- Bit `i` of a number. -/
def bit (x i : Nat) : Bool := decide (x / 2 ^ i % 2 = 1)

/-- A Boolean as a number. -/
def nat (b : Bool) : Nat := if b then 1 else 0

/-- The value of a little-endian field of `n` bytes at `a` in a run of bytes. -/
def field (bs : Bytes) (a n : Nat) : Nat := leNat ((bs.drop a).take n)

/-- A signed reading of a number of `w` bits. -/
def signed (w x : Nat) : Int := if 2 ^ (w - 1) ≤ x % 2 ^ w then (x % 2 ^ w : Nat) - (2 ^ w : Nat) else (x % 2 ^ w : Nat)

/-- A count that saturates at 0xFFFF_FFFF. -/
def sat32 (n : Nat) : Nat := min n 0xFFFFFFFF

/-- One more, for both functions (R216). -/
def Dual.add (d : Dual) (n : Nat) : Dual := { pf := sat32 (d.pf + n), vf := sat32 (d.vf + n) }

/-- The number of a function: 0 for PF0, n + 1 for VF(n+1). -/
def fnNum : Fn → Nat
  | .pf => 0
  | .vf n => n.val + 1

/-! ## Access to the tables of the state -/

def State.core (s : State) (c : Nat) : Core := AMap.get {} s.cores c
def State.setCore (s : State) (c : Nat) (x : Core) : State := { s with cores := AMap.put {} s.cores c x }
def State.part (s : State) (n : Nat) : Part := AMap.get {} s.parts n
def State.setPart (s : State) (n : Nat) (x : Part) : State := { s with parts := AMap.put {} s.parts n x }
def State.tower (s : State) (n : Nat) : Tower := AMap.get {} s.towers n
def State.setTower (s : State) (n : Nat) (x : Tower) : State := { s with towers := AMap.put {} s.towers n x }
def State.stack (s : State) (k : Nat) : Stack := AMap.get {} s.nbStacks k
def State.setStack (s : State) (k : Nat) (x : Stack) : State := { s with nbStacks := AMap.put {} s.nbStacks k x }
def State.nbu (s : State) (i : Nat) : Nbu := AMap.get {} s.nbus i
def State.setNbu (s : State) (i : Nat) (x : Nbu) : State := { s with nbus := AMap.put {} s.nbus i x }
def State.region (s : State) (i : Nat) : Region := AMap.get {} s.regions i
def State.setRegion (s : State) (i : Nat) (x : Region) : State := { s with regions := AMap.put {} s.regions i x }
def State.ring (s : State) (r : Nat) : Ring := AMap.get {} s.rings r
def State.setRing (s : State) (r : Nat) (x : Ring) : State := { s with rings := AMap.put {} s.rings r x }
def State.pool (s : State) (p : Nat) : Pool := AMap.get {} s.pools p
def State.setPool (s : State) (p : Nat) (x : Pool) : State := { s with pools := AMap.put {} s.pools p x }
def State.lamp (s : State) (n : Nat) : Lamp := AMap.get {} s.lamps n
def State.setLamp (s : State) (n : Nat) (x : Lamp) : State := { s with lamps := AMap.put {} s.lamps n x }
def State.key (s : State) (k : Nat) : KeySlot := AMap.get {} s.keys k
def State.setKey (s : State) (k : Nat) (x : KeySlot) : State := { s with keys := AMap.put {} s.keys k x }
def State.port (s : State) (p : Nat) : Port := AMap.get {} s.fab.ports p
def State.setPort (s : State) (p : Nat) (x : Port) : State :=
  { s with fab := { s.fab with ports := AMap.put {} s.fab.ports p x } }

def State.modCore (s : State) (c : Nat) (f : Core → Core) : State := s.setCore c (f (s.core c))
def State.modPart (s : State) (n : Nat) (f : Part → Part) : State := s.setPart n (f (s.part n))
def State.modTower (s : State) (n : Nat) (f : Tower → Tower) : State := s.setTower n (f (s.tower n))
def State.modStack (s : State) (k : Nat) (f : Stack → Stack) : State := s.setStack k (f (s.stack k))
def State.modNbu (s : State) (i : Nat) (f : Nbu → Nbu) : State := s.setNbu i (f (s.nbu i))
def State.modRegion (s : State) (i : Nat) (f : Region → Region) : State := s.setRegion i (f (s.region i))
def State.modRing (s : State) (r : Nat) (f : Ring → Ring) : State := s.setRing r (f (s.ring r))
def State.modPool (s : State) (p : Nat) (f : Pool → Pool) : State := s.setPool p (f (s.pool p))
def State.modPort (s : State) (p : Nat) (f : Port → Port) : State := s.setPort p (f (s.port p))
def State.modRun (s : State) (c : Nat) (f : CoreRun → CoreRun) : State :=
  s.modCore c (fun k => { k with run := f k.run })
def State.modArr (s : State) (c : Nat) (f : Arr → Arr) : State := s.modRun c (fun r => { r with arr := f r.arr })
def State.modStr (s : State) (c : Nat) (f : Str → Str) : State := s.modRun c (fun r => { r with str := f r.str })
def State.modSfu (s : State) (c : Nat) (f : SfuRun → SfuRun) : State := s.modRun c (fun r => { r with sfu := f r.sfu })

/-! ## The clock, free values, fabric time -/

/-- The state at the command's instant; instants never run backward (DESIGN CHOICE, notes/assumptions/1.md). -/
def State.at (s : State) (t : Nat) : State := { s with clock := max s.clock t }

/-- One free value drawn. -/
def State.drawn (s : State) : State := { s with free := s.free + 1 }

/-- TIM_MONO: nanoseconds since S8, never stepped, held or slewed (R535). -/
def State.mono (s : State) : Nat := if s.tim.st = .off then 0 else s.clock - s.tim.s8At

/-- The part of a slew corrected after `d` ns at exactly 20 ppm (R547). -/
def slewDone (slew : Int) (d : Nat) : Int :=
  let most := d * 20 / 1000000
  if 0 ≤ slew then min slew most else max slew (-(most : Int))

/-- The corrected time (R549, R550). -/
def State.corrected (s : State) : Int :=
  if s.tim.st = .off then 0
  else s.tim.base + (s.clock - s.tim.at0 : Nat) + slewDone s.tim.slew (s.clock - s.tim.at0)

/-- TIM_NOW as software reads it: held after a backward step (R549). -/
def State.now (s : State) : Nat :=
  match s.tim.hold with
  | none => s.corrected.toNat
  | some h => max h s.corrected.toNat

/-- The monotonic instant at which TIM_NOW reached a timed launch's START, where it has since moved as the clock does. -/
def State.reachedAt (s : State) (l : Launch) : Nat := s.mono - (s.now - l.startTime.toNat)

/-- TIM_NOW in 64 bits. -/
def State.stamp (s : State) : W64 := BitVec.ofNat 64 s.now

/-! ## Interrupts -/

/-- The Mask bit of a vector's table entry (R71); a stored word is the difference from its reset value, which masks. -/
def State.vecMasked (s : State) (fn vec : Nat) : Bool := !(AMap.get 0 s.link.msix (1024 * fn + 4 * vec + 3)).getLsbD 0

/-- Signals a vector of a function through its MSI-X table (R71, R72): a masked vector's pending bit is set, and the message
goes out when it is unmasked (PRESUMED, notes/assumptions/18.md). -/
def State.signal (s : State) (fn vec : Nat) : State :=
  { s with out :=
      if s.vecMasked fn vec then
        { s.out with pba := if s.out.pba.contains (fn, vec) then s.out.pba else s.out.pba ++ [(fn, vec)] }
      else { s.out with msix := s.out.msix ++ [(fn, vec)] } }

/-- Sets bits of FAB_EVENT; PF0 vector 5 when a bit changes from 0 to 1 (R501). -/
def State.fabEvent (s : State) (b : Nat) : State :=
  let e := s.fab.event ||| BitVec.ofNat 32 (2 ^ b)
  if e = s.fab.event then s else ({ s with fab := { s.fab with event := e } }).signal 0 5

/-- Sets a bit of TIM_EVENT; PF0 vector 4 when it changes from 0 to 1 (R540). -/
def State.timEvent (s : State) (b : Nat) : State :=
  let e := s.tim.event ||| BitVec.ofNat 32 (2 ^ b)
  if e = s.tim.event then s else ({ s with tim := { s.tim with event := e } }).signal 0 4

/-- Sets a bit of THM_EVENT; PF0 vector 3 when it changes from 0 to 1 (R573). -/
def State.thmEvent (s : State) (b : Nat) : State :=
  let e := s.pwr.event ||| BitVec.ofNat 32 (2 ^ b)
  if e = s.pwr.event then s else ({ s with pwr := { s.pwr with event := e } }).signal 0 3

/-- What the last read returned. -/
def State.reads (s : State) (bs : Bytes) : State :=
  { s with out := { s.out with read := bs, readStatus := .ok } }

/-- What a register read returned, in four bytes. -/
def State.readsWord (s : State) (w : W32) : State := s.reads (leBytes 4 w.toNat)

/-- Raises a cause of ALERT_N (R89). An in-band interrupt is raised for each cause newly set while ENEC has enabled them (R82
names no event: DESIGN CHOICE, notes/assumptions/40.md). -/
def State.alert (s : State) (a : AlertCause) : State :=
  if a ∈ s.sb.alerts then s
  else { s with sb := { s.sb with alerts := s.sb.alerts ++ [a], ibis := s.sb.ibis + nat s.sb.ibi } }

/-! ## Variants and ownership -/

/-- The variant is DK36 (R1, R2). -/
def State.dk36 (s : State) : Bool :=
  match s.fuse with
  | some f => decide (f.variant = .dk36)
  | none => false

/-- HUB_ID (R1, R39): before a fuse map has been read, one of the two codes (notes/assumptions/79.md). -/
def State.hubId (s : State) : W32 :=
  match s.fuse with
  | some f => if f.variant = .dk36 then 0xDC36 else 0xDC48
  | none => if Config.unfused36 then 0xDC36 else 0xDC48

/-- The 64-bit unit ID of the fuse map. -/
def State.unitId (s : State) : W64 :=
  match s.fuse with
  | some f => f.unitId
  | none => 0

/-- Fabric ports enabled on the variant (R2). -/
def State.portCount (s : State) : Nat := if s.dk36 then 12 else 18

/-- Rows of a stack (R139). -/
def State.stackRows (s : State) : Nat := if s.dk36 then 288 else 384

def coreTower (c : Nat) : Nat := c / 256
def coreRow (c : Nat) : Nat := c / 16 % 16
def coreCol (c : Nat) : Nat := c % 16
/-- Core group by row of groups (Glossary, R199). -/
def coreGroup (c : Nat) : Nat := 4 * (coreRow c / 4) + coreCol c / 4

/-- Group Gg of tower Tn is in service: present on the variant and not removed by DEGRADE (R105, R107, R116). -/
def State.groupUp (s : State) (n g : Nat) : Bool :=
  decide (n < 4) && decide (g < (if s.dk36 then 12 else 16)) && !bit s.bup.groupsOff.toNat (16 * n + g)
    && !(s.bup.towersOff.contains n) && s.fuse.isSome

/-- Core c is in service. -/
def State.coreUp (s : State) (c : Nat) : Bool := s.groupUp (coreTower c) (coreGroup c)

/-- Stack k is in service: not removed by DEGRADE at S5 (R114). The stacks beside a tower that DEGRADE removed at S2 stay in
service (R116 does not name them: DESIGN CHOICE, notes/assumptions/80.md). -/
def State.stackUp (s : State) (k : Nat) : Bool := decide (k < 8) && !(s.bup.stacksOff.contains k)

/-- The PARTITION record of Pn in the committed frame. -/
def State.partRec (s : State) (n : Nat) : Option PartRec :=
  match s.frame with
  | some f => f.parts.find? (fun p => decide (p.part = n))
  | none => none

/-- The partition that owns group Gg of tower Tn (R195). -/
def State.groupOwner (s : State) (n g : Nat) : Option Nat :=
  match s.frame with
  | some f => (f.parts.find? (fun p => bit p.groups.toNat (16 * n + g))).map PartRec.part
  | none => none

/-- The partition that owns core c. -/
def State.coreOwner (s : State) (c : Nat) : Option Nat := s.groupOwner (coreTower c) (coreGroup c)

/-- The cores of a partition, by its groups. -/
def groupsCores (groups : W64) : List Nat :=
  (List.range 1024).filter (fun c => bit groups.toNat (16 * coreTower c + coreGroup c))

/-- The cores of Pn. -/
def State.partCores (s : State) (n : Nat) : List Nat :=
  match s.partRec n with
  | some p => groupsCores p.groups
  | none => []

/-- The REGION record of a region. -/
def State.regionRec (s : State) (i : Nat) : Option RegionRec :=
  match s.frame with
  | some f => f.regions.find? (fun r => decide (r.index = i))
  | none => none

/-- The POOL record of a pool. -/
def State.poolRec (s : State) (p : Nat) : Option PoolRec :=
  match s.frame with
  | some f => f.pools.find? (fun r => decide (r.pool = p))
  | none => none

/-- The partition that owns an absolute ring (R73). -/
def State.ringOwner (s : State) (r : Nat) : Option Nat :=
  match s.frame with
  | some f => (f.parts.find? (fun p => decide (p.ringBase ≤ r) && decide (r < p.ringBase + p.ringCount))).map PartRec.part
  | none => none

/-- The absolute ring of partition ring r of Pn, where Pn has it. -/
def State.absRing (s : State) (n r : Nat) : Option Nat :=
  match s.partRec n with
  | some p => if r < p.ringCount then some (p.ringBase + r) else none
  | none => none

/-- PART_INFO.PINNED (R145). -/
def PartImage.pinned (i : PartImage) : Bool := i.info.any (fun x => x.2.2.getLsbD 0)
/-- PART_INFO.SPAN. -/
def PartImage.spanned (i : PartImage) : Bool := i.info.any (fun x => x.2.2.getLsbD 1)
/-- The image's SPAN record. -/
def PartImage.span? (i : PartImage) : Option SpanRec := i.spans.head?

def State.image (s : State) (n : Nat) : Option PartImage := (s.part n).image

/-- Pn is pinned (R58). -/
def State.partPinned (s : State) (n : Nat) : Bool :=
  match s.image n with
  | some i => i.pinned
  | none => false

/-- Core c is pinned (R58). -/
def State.pinned (s : State) (c : Nat) : Bool :=
  match s.coreOwner c with
  | some n => s.partPinned n
  | none => false

/-- The floor sum F (R557). -/
def State.floorSum (s : State) : Nat :=
  match s.frame with
  | some f => (f.parts.map PartRec.floor).sum
  | none => 0

/-- The limit in force (R557). -/
def State.limit (s : State) : Nat := max s.floorSum (s.pwr.opLimit - 25 * s.pwr.steps)

/-- VCORE_Tn as set, in mV (R25: 0.75 V at start). -/
def State.vcore (s : State) (n : Nat) : Nat := AMap.get 750 s.pwr.vcore n

/-- R50 applies to tower n: some partition holds a floor, or a pinned partition has cores in the tower. -/
def State.floored (s : State) (n : Nat) : Bool :=
  decide (0 < s.floorSum) ||
    (match s.frame with
     | some f => f.parts.any (fun p => s.partPinned p.part && decide (bits p.groups.toNat (16 * n + 15) (16 * n) ≠ 0))
     | none => false)

/-- The capability word the tower sent at S2 (R109). -/
def State.cap (s : State) (n : Nat) : W64 := AMap.get 0 s.bup.caps n

/-- Feature bit i of tower n: both its capability word and the hub's (B1 sets [6:0]). -/
def State.towerFeature (s : State) (n i : Nat) : Bool := bit (s.cap n).toNat (32 + i) && decide (i < 7)

/-- The device is powered: every switched rail is good (R26). -/
def State.powered (s : State) : Bool := s.rails.vaon && decide (s.rails.good = 0xFF)

/-- TADPOLE is 1 until S9 is DONE (R101). -/
def State.tadpole (s : State) : Bool := decide (s.bup.nxt < 10)

/-! ## Fault records and event counters -/

/-- A record waits for the log's arbiter with the STAMP of its event (R588, R590). -/
def State.report (s : State) (r : FltRec) : State :=
  { s with flt := { s.flt with waiting := s.flt.waiting ++ [{ r with stamp := s.stamp }] } }

/-- A counter advanced by `n`, and whether OVF sets now (R584). -/
def Counter.add (k : Counter) (n : Nat) : Counter × Bool :=
  let v := k.val + n
  if v < 2 ^ 48 - (if k.sel.getLsbD 16 then 0 else 1) then ({ k with val := v }, false)
  else ({ k with val := if k.sel.getLsbD 16 then v % 2 ^ 48 else 2 ^ 48 - 1, ovf := true }, !k.ovf)

/-- The counter counts source `src` of an event tagged `tag` (R576, R579). -/
def Counter.counts (k : Counter) (src : Nat) (tag : Option Nat) (scope : Bool) : Bool :=
  k.sel.getLsbD 31 && decide (bits k.sel.toNat 15 0 = src)
    && (!(scope && k.sel.getLsbD 29) || decide (tag = some (bits k.sel.toNat 28 24)))

/-- The COUNTER record of an overflow (R584, R589): `kind` 0 core, 1 tower, 2 hub. -/
def counterRecord (kind idx i : Nat) (k : Counter) (owner : Option Nat) : FltRec :=
  { kind := 0x0B, sev := 0, valid := owner.isSome, part := owner.getD 0, code := nat (k.sel.getLsbD 16),
    loc := BitVec.ofNat 32 (2 ^ 30 * kind + 64 * idx + i), detail := k.sel }

/-- Adds `n` events of source `src` to the counters of a group of `size`; the records that overflows write. -/
def countAll (kind idx : Nat) (owner : Option Nat) (src n : Nat) (tag : Option Nat) :
    Nat → AMap Counter → AMap Counter × List FltRec
  | 0, m => (m, [])
  | i + 1, m =>
    let (m, rs) := countAll kind idx owner src n tag i m
    let k := AMap.get {} m i
    if k.counts src tag (decide (kind ≠ 0)) then
      let (k', first) := k.add n
      (AMap.put {} m i k', if first && k.sel.getLsbD 17 then rs ++ [counterRecord kind idx i k owner] else rs)
    else (m, rs)

/-- Reports several records. -/
def State.reportAll (s : State) (rs : List FltRec) : State := rs.foldl State.report s

/-- An event of a core source (R580). -/
def State.countCore (s : State) (c src n : Nat) : State :=
  let owner := s.coreOwner c
  let (m, rs) := countAll 0 c owner src n none 8 (s.core c).evc
  (s.modCore c (fun k => { k with evc := m })).reportAll rs

/-- An event of a tower source (R581) with its partition tag. -/
def State.countTower (s : State) (w src n : Nat) (tag : Option Nat) : State :=
  let (m, rs) := countAll 1 w none src n tag 16 (s.tower w).evc
  (s.modTower w (fun k => { k with evc := m })).reportAll rs

/-- An event of a hub source (R582) with its partition tag. -/
def State.countHub (s : State) (src n : Nat) (tag : Option Nat) : State :=
  let (m, rs) := countAll 2 0 none src n tag 64 s.evc
  ({ s with evc := m }).reportAll rs

/-- The running launch of core c has used a slice layer or a stack, by die (R192). -/
def State.noteUse (s : State) (c : Nat) (ds : List Nat) : State :=
  s.modRun c (fun r => { r with used := r.used ++ ds.dedup.filter (fun d => !r.used.contains d) })

/-! ## Functions and DMA -/

/-- The host reaches the device through a function: PF0 always, a VF while it is enabled (R70). -/
def State.reaches (s : State) : Fn → Bool
  | .pf => true
  | .vf n => s.link.vfEnable && decide (n.val < s.link.numVfs)

/-- A read through a function that is not enabled ends as an unsupported request; what it returns is free. -/
def State.unreached (s : State) (n : Nat) : State :=
  { s with free := s.free + n
           out := { s.out with read := (List.range n).map (fun i => Config.poison (s.free + i)), readStatus := .unsupported } }

/-- The front end and the RMA engine may make DMA for Pn: its VF is enabled and bus master (R74), and the link is up. -/
def State.dmaOk (s : State) (n : Nat) : Bool :=
  s.link.up && s.link.vfEnable && decide (n < s.link.numVfs) && s.link.bme.getLsbD n

/-- Bytes that PCIe requests of Pn carry to the device (R582 source 0x34) or from it (0x35): the data of its DMA and of its
aperture (DEDUCED, notes/assumptions/68.md). -/
def State.pcieIn (s : State) (n len : Nat) : State := s.countHub 0x34 len (some n)
def State.pcieOut (s : State) (n len : Nat) : State := s.countHub 0x35 len (some n)

/-- One memory write to host memory under the Requester ID of VF(n+1) (R218). -/
def State.dmaWrite (s : State) (n a : Nat) (bs : Bytes) : State :=
  ({ s with out := { s.out with dma := s.out.dma ++ [(n + 1, a, bs)] } }).pcieOut n bs.length

/-! ## Sensors and dies (R560, R563-R565, R622) -/

/-- The first sensor and the number of sensors of a die (R560); dies are numbered as R573 numbers them. -/
def dieSensors (d : Nat) : Nat × Nat :=
  if d < 4 then (64 * d, 64) else if d < 20 then (256 + 16 * (d - 4), 16) else if d < 28 then (512 + 4 * (d - 20), 4) else (544, 16)

/-- The die of a sensor. -/
def sensorDie (x : Nat) : Nat :=
  if x < 256 then x / 64 else if x < 512 then 4 + (x - 256) / 16 else if x < 544 then 20 + (x - 512) / 4 else 28

/-- The operating maximum of a die, in 0.125 °C. -/
def dieMax (d : Nat) : Int := if d < 4 then 840 else if d < 20 then 800 else if d < 28 then 760 else 840

/-- The band of a reading against a maximum (R560). -/
def bandOf (r max : Int) : Nat := if max < r then 3 else if max - 16 ≤ r then 2 else if max - 40 ≤ r then 1 else 0

def State.sensor (s : State) (x : Nat) : Sensor := AMap.get {} s.pwr.sensors x

/-- The sensor is fuse-mapped (R565). -/
def State.sensorMapped (s : State) (x : Nat) : Bool :=
  match s.fuse with
  | some f => f.sensorsMapped.contains x
  | none => false

/-- A sensor is broken (R563). -/
def State.sensorBroken (s : State) (x : Nat) : Bool := !s.sensorMapped x && decide ((s.sensor x).fault ≠ .none)

/-- The sensors of a die, by number. -/
def sensorsOf (d : Nat) : List Nat := (List.range (dieSensors d).2).map (fun i => (dieSensors d).1 + i)

/-- The hottest reading of the die's good sensors. -/
def State.dieHot (s : State) (d : Nat) : Option Int :=
  ((sensorsOf d).filter (fun x => !s.sensorMapped x && decide ((s.sensor x).fault = .none))).foldl
    (fun (m : Option Int) x => some (match m with
      | some r => max r (s.sensor x).reading
      | none => (s.sensor x).reading)) none

/-- A sensor of the die is broken, or none is good (THM_DIEd.BROKEN, R573, R622). -/
def State.dieBroken (s : State) (d : Nat) : Bool := (sensorsOf d).any s.sensorBroken || (s.dieHot d).isNone

/-- The reading of THM_DIEd (R573). -/
def State.dieReading (s : State) (d : Nat) : Int := (s.dieHot d).getD (dieMax d)

/-- The reading the manager counts: a broken sensor counts as the die's maximum (R360, R367, R406, R564). -/
def State.dieCounted (s : State) (d : Nat) : Int :=
  if s.dieBroken d then max (s.dieReading d) (dieMax d) else s.dieReading d

/-! ## Bands that follow a die's temperature (R359, R360, R366, R367, R406) -/

/-- What moves between bands: the refresh of a layer, the ceiling of a layer, a stack's refresh. -/
def BandOfDie : BandOf → Nat
  | .refresh n j => 4 + 4 * n.val + j.val
  | .ceiling n j => if j.val = 0 then n.val else 4 + 4 * n.val + (j.val - 1)
  | .stack k => 20 + k.val

/-- The upper bounds of its bands, in 0.125 °C: the last one belongs to its band, the others do not. -/
def bandBounds : BandOf → List Int
  | .refresh _ _ => [680, 760, 800]
  | .ceiling n j => [dieMax (BandOfDie (.ceiling n j)) - 80, dieMax (BandOfDie (.ceiling n j))]
  | .stack _ => [600, 680, 760]

/-- The band of a reading (R359, R366, R406). -/
def bandIn : List Int → Int → Nat
  | [], _ => 0
  | [u], r => if r ≤ u then 0 else 1
  | u :: us, r => if r < u then 0 else 1 + bandIn us r

/-- The first band whose upper bound a reading lies at least 2 °C below. -/
def bandBelow : List Int → Int → Nat
  | [], _ => 0
  | u :: us, r => if r + 16 ≤ u then 0 else 1 + bandBelow us r

/-- The band in force. -/
def State.bandNow (s : State) : BandOf → Nat
  | .refresh n j => AMap.get 0 (s.tower n.val).bands j.val
  | .ceiling n j => AMap.get 0 (s.tower n.val).ceils j.val
  | .stack k => (s.stack k.val).band

/-- A band set. -/
def State.setBand (s : State) (b : Nat) : BandOf → State
  | .refresh n j => s.modTower n.val (fun t => { t with bands := AMap.put 0 t.bands j.val b })
  | .ceiling n j => s.modTower n.val (fun t => { t with ceils := AMap.put 0 t.ceils j.val b })
  | .stack k => s.modStack k.val (fun x => { x with band := b })

/-- A move to the shorter interval, or to the lower ceiling, that the die's temperature calls for (R360). -/
def State.raiseBand (s : State) (b : BandOf) : State :=
  let x := bandIn (bandBounds b) (s.dieCounted (BandOfDie b))
  if s.bandNow b < x then s.setBand x b else s

/-! ## Lists -/

/-- Bits of a list of numbers. -/
def maskOf (l : List Nat) : Nat := (l.dedup.map (fun i => 2 ^ i)).sum

/-- The list with the element at `i` replaced. -/
def setAt {α : Type} (l : List α) (i : Nat) (x : α) : List α := l.set i x

/-- Inserts a number in rising order, once. -/
def insertNat : Nat → List Nat → List Nat
  | n, [] => [n]
  | n, m :: l => if n < m then n :: m :: l else if n = m then m :: l else m :: insertNat n l

/-- Folds a state over a list of numbers. -/
def State.each {α : Type} (s : State) (l : List α) (f : State → α → State) : State := l.foldl f s

end Sys2Proof.Machine
end

