-- ==== Sys2Proof/Machine/Packets.lean ====
section
/-!
DEFINITION. Packets of the Barul Fabric Transport: the header and its check (R465-R467), their encapsulation (R463, R464), routes
(R482, R484, R485), the sequenced streams of the sender (R468, R470), and the RMA header (R513).
-/
namespace Sys2Proof.Machine

/-- One bit of CRC-32C (Castagnoli, reflected). -/
def crcBit (c : W32) : W32 := if c.getLsbD 0 then (c >>> 1) ^^^ 0x82F63B78 else c >>> 1

/-- One byte of CRC-32C. -/
def crcByte (c : W32) (b : Byte) : W32 :=
  crcBit (crcBit (crcBit (crcBit (crcBit (crcBit (crcBit (crcBit (c ^^^ b.setWidth 32))))))))

/-- CRC-32C over a run of bytes (R465, R490). -/
def crc32c (bs : Bytes) : W32 := ~~~(bs.foldl crcByte 0xFFFFFFFF)

/-- The fields of a BFT header (R465). -/
structure Bft where
  type : Nat := 0
  retx : Bool := false
  dst : Nat := 0
  src : Nat := 0
  hops : Nat := 32
  cls : Nat := 0
  spanId : Nat := 0
  stream : Nat := 0
  seq : Nat := 0
  ack : Nat := 0
  part : Nat := 0xFF
  payload : Bytes := []
deriving DecidableEq, Repr

/-- The header's bytes with CHECK as given. -/
def Bft.header (h : Bft) (check : Nat) : Bytes :=
  leBytes 1 (0x10 + h.type) ++ leBytes 1 (nat h.retx) ++ leBytes 2 h.dst ++ leBytes 2 h.src ++ leBytes 1 h.hops
    ++ leBytes 1 h.cls ++ leBytes 4 h.spanId ++ leBytes 4 h.stream ++ leBytes 4 h.seq ++ leBytes 4 h.ack
    ++ leBytes 2 h.payload.length ++ leBytes 1 h.part ++ leBytes 1 0 ++ leBytes 4 check

/-- The packet's bytes. -/
def Bft.bytes (h : Bft) : Bytes := h.header (crc32c (h.header 0 ++ h.payload)).toNat ++ h.payload

/-- No bit of the payload that R481, R490 or R513 reserves is set. -/
def Bft.clear (h : Bft) : Bool :=
  let b := h.payload
  if h.type = 2 then decide (field b 28 4 = 0)
  else if h.type = 3 then (List.range (b.length / 16)).all (fun i => decide (field b (16 + 16 * i + 12) 4 = 0))
  else if h.type = 4 then decide (field b 1 3 = 0) && (decide (field b 0 1 ≠ 4) || decide (field b 12 1 < 2))
  else if h.type = 5 then decide (field b 1 1 < 16)
  else true

/-- A received packet parsed, `none` where R467 discards it: VERSION, TYPE, CHECK, LEN, a reserved bit. -/
def Bft.parse (bs : Bytes) : Option Bft :=
  let h : Bft := { type := field bs 0 1 % 16, retx := bit (field bs 1 1) 0, dst := field bs 2 2, src := field bs 4 2,
                   hops := field bs 6 1, cls := field bs 7 1, spanId := field bs 8 4, stream := field bs 12 4,
                   seq := field bs 16 4, ack := field bs 20 4, part := field bs 26 1, payload := bs.drop 32 }
  if bs.length < 32 ∨ field bs 0 1 / 16 ≠ 1 ∨ 5 < h.type ∨ 1 < field bs 1 1 ∨ field bs 27 1 ≠ 0
      ∨ field bs 24 2 ≠ h.payload.length ∨ field bs 28 4 ≠ (crc32c (h.header 0 ++ h.payload)).toNat ∨ !h.clear then none
  else some h

/-! ## Encapsulation (R463, R464, R466) -/

/-- A number as `n` bytes, most significant first. -/
def beBytes (n x : Nat) : Bytes := (leBytes n x).reverse

/-- Bytes, most significant first, as a number. -/
def beNat (bs : Bytes) : Nat := leNat bs.reverse

/-- A port's MAC address (R464), first byte first. -/
def macOf (unit : W64) (p : Nat) : Bytes := [0x02] ++ beBytes 4 (unit.toNat % 2 ^ 32) ++ beBytes 1 p

/-- Four registers as an IPv6 address, most significant word first (R501; for FAB_PORTp_IP0-3 DEDUCED,
notes/assumptions/88.md). -/
def ipOf (w0 w1 w2 w3 : W32) : BitVec 128 := w0 ++ w1 ++ w2 ++ w3

/-- FAB_PORTp_IP0 to IP3. -/
def Port.ipv6 (q : Port) : BitVec 128 := ipOf (AMap.get 0 q.ip 0) (AMap.get 0 q.ip 1) (AMap.get 0 q.ip 2) (AMap.get 0 q.ip 3)

/-- FAB_MCAST0 to MCAST3. -/
def State.mcast (s : State) : BitVec 128 := ipOf s.fab.mcast0 s.fab.mcast1 s.fab.mcast2 s.fab.mcast3

/-- The sum of 16-bit words, the first byte of each the higher. -/
def wordSum : Bytes → Nat
  | a :: b :: l => 256 * a.toNat + b.toNat + wordSum l
  | [a] => 256 * a.toNat
  | [] => 0

/-- The part of a UDP packet that its checksum covers besides itself (RFC 8200). -/
def pseudoHeader (src dst : BitVec 128) (len : Nat) : Bytes := beBytes 16 src.toNat ++ beBytes 16 dst.toNat ++ beBytes 4 len ++ beBytes 4 17

/-- A UDP packet with its checksum (R464). -/
def udpBytes (src dst : BitVec 128) (sport dport : Nat) (data : Bytes) : Bytes :=
  let len := 8 + data.length
  let head := beBytes 2 sport ++ beBytes 2 dport ++ beBytes 2 len
  let sum := wordSum (pseudoHeader src dst len ++ head ++ [0, 0] ++ data) % 0xFFFF
  head ++ beBytes 2 (0xFFFF - sum) ++ data

/-- An IPv6 packet that holds a UDP packet, with hop limit 64 (R464). -/
def ipBytes (src dst : BitVec 128) (udp : Bytes) : Bytes :=
  beBytes 4 0x60000000 ++ beBytes 2 udp.length ++ [17, 64] ++ beBytes 16 src.toNat ++ beBytes 16 dst.toNat ++ udp

/-- The path hash of R484. -/
def Bft.hash (h : Bft) (count : Nat) : Nat := Config.pathHash h.src h.dst h.type h.spanId h.stream count

/-- The Ethernet frame in which port p sends a packet to a neighbour, or a Croak to all (R464), padded to 46 bytes as IEEE 802.3
has it. -/
def State.frameOf (s : State) (p : Nat) (peer : Option Adj) (h : Bft) (count : Nat) : Bytes :=
  let q := s.port p
  let bs := h.bytes
  let own := macOf s.unitId p
  if q.mode then
    let (mac, ip) := match peer with
      | some a => (macOf a.unit a.port, a.ip)
      | none => ([0x33, 0x33] ++ beBytes 4 (s.mcast.toNat % 2 ^ 32), s.mcast)
    mac ++ own ++ [0x86, 0xDD] ++ ipBytes q.ipv6 ip (udpBytes q.ipv6 ip (h.hash count % 2 ^ 16) (bits s.fab.udp.toNat 15 0) bs)
  else
    (match peer with
      | some a => macOf a.unit a.port
      | none => [0x03, 0, 0, 0, 0x88, 0xB5]) ++ own ++ [0x88, 0xB5] ++ bs ++ List.replicate (46 - bs.length) 0

/-- The most payload bytes of a port's mode (R466). -/
def Port.maxPayload (q : Port) : Nat := if q.mode then 9136 else 9184

/-- The packet that a frame brings to a port, `none` where the frame is tagged, no BFT frame of the port's mode or to another
address, or too long, or its UDP checksum is wrong (R463, R464, R466); a short frame's padding is taken off. -/
def State.unwrap (s : State) (p : Nat) (frame : Bytes) : Option Bytes :=
  let q := s.port p
  let body := frame.drop 14
  let cut (bs : Bytes) : Bytes := if bs.length = 46 ∧ 32 + field bs 24 2 < 46 then bs.take (32 + field bs 24 2) else bs
  if frame.length < 14 ∨ 9216 < body.length then none
  else if q.mode then
    let udp := (body.drop 40).take (beNat ((body.drop 4).take 2))
    let src := BitVec.ofNat 128 (beNat ((body.drop 8).take 16))
    let dst := BitVec.ofNat 128 (beNat ((body.drop 24).take 16))
    if (frame.drop 12).take 2 = [0x86, 0xDD] ∧ 48 ≤ body.length ∧ beNat (body.take 1) / 16 = 6 ∧ (body.drop 6).head? = some 17
        ∧ udp.length = beNat ((body.drop 4).take 2) ∧ beNat ((udp.drop 4).take 2) = udp.length
        ∧ beNat ((udp.drop 2).take 2) = bits s.fab.udp.toNat 15 0 ∧ (dst = q.ipv6 ∨ dst = s.mcast)
        ∧ beNat ((udp.drop 6).take 2) ≠ 0 ∧ wordSum (pseudoHeader src dst udp.length ++ udp) % 0xFFFF = 0 then some (udp.drop 8)
    else none
  else if (frame.drop 12).take 2 = [0x88, 0xB5] then some (cut body)
  else none

/-! ## Sending (R474, R477, R484, R485) -/

/-- The port exists on the variant. -/
def State.hasPort (s : State) (p : Nat) : Bool := decide (p < s.portCount)

/-- The port carries packets. -/
def State.portUp (s : State) (p : Nat) : Bool :=
  s.hasPort p && (s.port p).enable && decide ((s.port p).link = .up)

/-- The device's address carries DATA, SPAN, RMA and ACK packets (R477). -/
def State.speaks (s : State) : Bool := decide (s.fab.addrState = .claimed) || decide (s.fab.addrState = .assigned)

/-- The route to an address (R482). -/
def State.route (s : State) (a : Nat) : Route := AMap.get {} s.fab.routes a

/-- A frame goes out on a port, which counts its bytes (R502, R582). -/
def State.emit (s : State) (p : Nat) (frame : Bytes) : State :=
  let s := s.modPort p (fun q => { q with tx := q.tx + frame.length })
  ({ s with out := { s.out with packets := s.out.packets ++ [(some p, frame)] } }).countHub (0x10 + p) 1 none

/-- The neighbour on port p toward an address: the route's, or the first on the port (notes/assumptions/88.md). -/
def State.neighbour (s : State) (p dst : Nat) : Option Adj :=
  let r := s.route dst
  let adjs := (s.port p).adjs
  let via := (r.ports.zip r.vias).find? (fun x => decide (x.1 = p))
  match via.bind (fun x => adjs.find? (fun a => decide (a.unit = x.2))) with
  | some a => some a
  | none => adjs.head?

/-- A packet leaves on a port toward its destination's neighbour: not over a link that is down, an adjacency in MISMATCH (R474) or
where there is none, nor where it would be too long for the port's mode (R466); it is then lost. -/
def State.sendOn (s : State) (p : Nat) (h : Bft) (count : Nat) : State :=
  match s.neighbour p h.dst with
  | some a => if s.portUp p && !a.mismatch && decide (h.payload.length ≤ (s.port p).maxPayload) then s.emit p (s.frameOf p (some a) h count) else s
  | none => s

/-- The path entry of the packet's stream. -/
def Flow.named (f : Flow) (h : Bft) : Bool :=
  decide (f.src = h.src) && decide (f.dst = h.dst) && decide (f.type = h.type) && decide (f.spanId = h.spanId) && decide (f.stream = h.stream)

/-- A DATA or SPAN stream of this device with a packet not acknowledged, besides the one that is sent now. -/
def State.streamBusy (s : State) (h : Bft) : Bool :=
  (decide (h.type = 0) || decide (h.type = 4)) &&
    s.fab.tx.any (fun x => decide (x.dst = h.dst) && decide (x.type = h.type) && decide (x.spanId = h.spanId) && decide (x.stream = h.stream)
      && decide (h.src = s.fab.address) && x.sent.any (fun q => h.retx || decide (q.1 ≠ h.seq)))

/-- The path a packet takes (R484), `none` without a route: the stream's last port while one of its packets is unacknowledged;
after an idle time of FAB_FLOWLET a new choice; otherwise its last port while the route still has it. -/
def State.nextHop (s : State) (h : Bft) : Option Flow :=
  let r := s.route h.dst
  let choice (k : Nat) : Flow :=
    { src := h.src, dst := h.dst, type := h.type, spanId := h.spanId, stream := h.stream, count := k,
      port := r.ports.getD (h.hash k % r.ports.length) 0, at0 := s.clock }
  let gap := 1000 * bits s.fab.flowlet.toNat 15 0
  if !r.valid ∨ r.ports = [] then none
  else
    match s.fab.flows.find? (fun f => f.named h) with
    | none => some (choice 0)
    | some f =>
      if s.streamBusy h then some { f with at0 := s.clock }
      else if gap ≠ 0 ∧ f.at0 + gap ≤ s.clock then some (choice (f.count + 1))
      else if r.ports.contains f.port then some { f with at0 := s.clock }
      else some (choice f.count)

/-- Sends a packet by the route table; without a route it is dropped and counted (R485). -/
def State.sendRouted (s : State) (h : Bft) : State :=
  match s.nextHop h with
  | some f =>
    ({ s with fab := { s.fab with flows := f :: s.fab.flows.filter (fun g => !g.named h) } }).sendOn f.port h f.count
  | none => { s with fab := { s.fab with noRoute := sat32 (s.fab.noRoute + 1) } }

/-- A packet of this device: on the port that a circuit's HUB-out hop names, or by the route table (R484); nothing while its address
does not carry traffic (R477). -/
def State.sendOwn (s : State) (port : Option Nat) (h : Bft) : State :=
  if !s.speaks then s
  else
    match port with
    | some p => s.sendOn p h 0
    | none => s.sendRouted h

/-- The sender's stream of a name (R468). -/
def TxStream.named (x : TxStream) (dst type spanId stream : Nat) : Bool :=
  decide (x.dst = dst) && decide (x.type = type) && decide (x.spanId = spanId) && decide (x.stream = stream)

/-- The receiver's stream of a name. -/
def RxStream.named (x : RxStream) (src type spanId stream : Nat) : Bool :=
  decide (x.src = src) && decide (x.type = type) && decide (x.spanId = spanId) && decide (x.stream = stream)

/-- NEXT of the reverse stream (R469, R470); an RMA stream's is kept with its connection, which STREAM[23:12] names. -/
def State.ackFor (s : State) (n src type spanId stream : Nat) : Nat :=
  if type = 5 then (AMap.get {} (s.part n).rma.conns (stream / 4096 % 4096)).next
  else
    match s.fab.rx.find? (fun x => x.named src type spanId stream) with
    | some x => x.next
    | none => 0

/-- Adds a packet to a sender's stream of that name, or opens the stream at SEQ 0 (R468). -/
def addSent (dst type spanId stream part now : Nat) (mk : Nat → Bytes) : List TxStream → List TxStream × Nat
  | [] => ([{ dst, type, spanId, stream, part, next := 1, sent := [(0, mk 0, 1, now)] }], 0)
  | x :: l =>
    if x.named dst type spanId stream then
      ({ x with next := (x.next + 1) % 2 ^ 32, sent := x.sent ++ [(x.next, mk x.next, 1, now)] } :: l, x.next)
    else
      let (l', q) := addSent dst type spanId stream part now mk l
      (x :: l', q)

/-- Sends a packet in its sequenced stream (R468): it takes the stream's next SEQ and stays until acknowledged; it acknowledges the
reverse stream (R470). `port` is the port a circuit's HUB-out hop names (R484). -/
def State.sendStream (s : State) (dst type spanId stream part cls : Nat) (port : Option Nat) (payload : Bytes) : State :=
  let ack := s.ackFor part dst type spanId stream
  let mk (q : Nat) : Bft :=
    { type, dst, src := s.fab.address, cls, spanId, stream, seq := q, ack, part, payload }
  let (tx, q) := addSent dst type spanId stream part s.clock (fun q => (mk q).bytes) s.fab.tx
  let rx := s.fab.rx.map (fun x => if x.named dst type spanId stream then { x with unacked := 0 } else x)
  ({ s with fab := { s.fab with tx := tx, rx := rx } }).sendOwn port (mk q)

/-- The SEQ the next packet of a stream takes. -/
def State.nextSeq (s : State) (dst type spanId stream : Nat) : Nat :=
  match s.fab.tx.find? (fun x => x.named dst type spanId stream) with
  | some x => x.next
  | none => 0

/-- Forgets the streams of a name, so that both directions restart at SEQ 0 (R468). -/
def State.dropStreams (s : State) (peer type spanId : Nat) (streams : List Nat) : State :=
  { s with fab := { s.fab with
      tx := s.fab.tx.filter (fun x => !(decide (x.dst = peer) && decide (x.type = type) && decide (x.spanId = spanId)
              && streams.contains x.stream)),
      rx := s.fab.rx.filter (fun x => !(decide (x.src = peer) && decide (x.type = type) && decide (x.spanId = spanId)
              && streams.contains x.stream)) } }

/-- Every stream of a span restarts at SEQ 0 (R468, R492). -/
def State.dropSpanStreams (s : State) (spanId : Nat) : State :=
  { s with fab := { s.fab with tx := s.fab.tx.filter (fun x => decide (x.spanId ≠ spanId)),
                               rx := s.fab.rx.filter (fun x => decide (x.spanId ≠ spanId)) } }

/-! ## Acknowledgements (R470) -/

/-- A packet's SEQ lies before ACK. -/
def ackedSeq (ack q : Nat) : Bool := decide ((ack + 2 ^ 32 - 1 - q) % 2 ^ 32 < 2 ^ 31)

/-- The packets of one of our streams that an ACK leaves unacknowledged stay. -/
def State.dropAcked (s : State) (dst type spanId stream ack : Nat) : State :=
  { s with fab := { s.fab with tx := s.fab.tx.map (fun x =>
      if x.named dst type spanId stream then { x with sent := x.sent.filter (fun q => !ackedSeq ack q.1) } else x) } }

/-- An ACK packet (R470); its STREAM is 0 (R465). -/
def State.sendAck (s : State) (dst spanId ack : Nat) : State :=
  s.sendOwn none { type := 1, dst, src := s.fab.address, cls := 0, spanId, ack }

/-- The payload of a SPAN packet (R490). -/
def SpanOp.bytes : SpanOp → Bytes
  | .join d self hops image => [1, 0, 0, 0] ++ leBytes 4 d.toNat ++ leBytes 2 self ++ leBytes 1 hops ++ leBytes 4 image.toNat
  | .ready d gen => [2, 0, 0, 0] ++ leBytes 4 d.toNat ++ leBytes 2 gen.toNat
  | .reject e => [3, 0, 0, 0, e]
  | .launch g ep ser timed start ps =>
    [4, 0, 0, 0] ++ leBytes 2 g ++ leBytes 2 ep.toNat ++ leBytes 4 ser.toNat ++ leBytes 1 (nat timed) ++ leBytes 8 start.toNat
      ++ leBytes 2 ps.length ++ ps.flatMap (fun p => leBytes 2 p.1 ++ leBytes 8 p.2.toNat)
  | .done g ep st cause beats pre =>
    [5, 0, 0, 0] ++ leBytes 2 g ++ leBytes 2 ep.toNat ++ [st, cause] ++ leBytes 8 beats.toNat ++ [pre]
  | .abort g ep => [6, 0, 0, 0] ++ leBytes 2 g ++ leBytes 2 ep.toNat
  | .leave e => [7, 0, 0, 0, e]

/-- The operation a SPAN packet's payload spells; `none` for any other. -/
def SpanOp.parse (b : Bytes) : Option SpanOp :=
  let w (o n : Nat) : Nat := field b o n
  match w 0 1 with
  | 1 => some (.join (BitVec.ofNat 32 (w 4 4)) (w 8 2) (w 10 1) (BitVec.ofNat 32 (w 11 4)))
  | 2 => some (.ready (BitVec.ofNat 32 (w 4 4)) (BitVec.ofNat 16 (w 8 2)))
  | 3 => some (.reject (BitVec.ofNat 8 (w 4 1)))
  | 4 => some (.launch (w 4 2) (BitVec.ofNat 16 (w 6 2)) (BitVec.ofNat 32 (w 8 4)) (bit (w 12 1) 0) (BitVec.ofNat 64 (w 13 8))
      ((List.range (w 21 2)).map (fun i => (w (23 + 10 * i) 2, BitVec.ofNat 64 (w (25 + 10 * i) 8)))))
  | 5 => some (.done (w 4 2) (BitVec.ofNat 16 (w 6 2)) (BitVec.ofNat 8 (w 8 1)) (BitVec.ofNat 8 (w 9 1)) (BitVec.ofNat 64 (w 10 8))
      (BitVec.ofNat 8 (w 18 1)))
  | 6 => some (.abort (w 4 2) (BitVec.ofNat 16 (w 6 2)))
  | 7 => some (.leave (BitVec.ofNat 8 (w 4 1)))
  | _ => none

/-- A SPAN packet (R490) from Pn to a member address: class RESERVED (R486). -/
def State.sendSpan (s : State) (n dst : Nat) (op : SpanOp) : State :=
  match (s.image n).bind PartImage.span? with
  | some r => s.sendStream dst 4 r.spanId 0 n 1 none op.bytes
  | none => s

/-- The RMA header and data (R513). -/
def rmaBytes (op : Nat) (x : RmaPkt) : Bytes :=
  leBytes 1 op ++ [x.flags] ++ leBytes 1 x.window.val ++ [x.status] ++ leBytes 4 x.key.toNat ++ leBytes 8 x.roff.toNat
    ++ leBytes 8 x.op0.toNat ++ leBytes 8 x.op1.toNat ++ x.data

/-- STREAM of an RMA packet (R513): the partition it is sent to, the sender's connection, the receiver's. -/
def rmaStream (partTo mine theirs : Nat) : Nat := 2 ^ 24 * partTo + 2 ^ 12 * mine + theirs

/-- An unsequenced RMA packet (R514); a RESPONSE carries the request's SEQ. -/
def State.sendRmaPlain (s : State) (n dst partTo mine theirs op seq cls : Nat) (x : RmaPkt) : State :=
  let st := rmaStream partTo mine theirs
  let h : Bft := { type := 5, dst, src := s.fab.address, cls, stream := st, seq, ack := s.ackFor n dst 5 0 st, part := n,
                   payload := rmaBytes op x }
  (s.sendOwn none h).countHub 6 1 (some n)

end Sys2Proof.Machine
end

