-- ==== Sys2Proof/Machine/Launches.lean ====
section
/-!
DEFINITION. Operations on rings and launches: writing records into rings (R432, R443, R445), completing a launch (R443,
R444, R190), faults and aborts of cores (R249-R253), the beginning of a launch on a core (R227, R232, R266), and items of
channels at an endpoint (R270).
-/
namespace Sys2Proof.Machine

/-! ## Rings -/

/-- QUE_CFG.TYPE (R460). -/
def Ring.type (r : Ring) : Nat := bits r.cfg.toNat 30 29
/-- QUE_SIZE in entries. -/
def Ring.entries (r : Ring) : Nat := bits r.size.toNat 16 0
/-- QUE_CFG.ROLE: an EVENT queue (R504). -/
def Ring.event (r : Ring) : Bool := r.cfg.getLsbD 27
/-- Records between the consumer and the producer index (R434). -/
def Ring.unread (r : Ring) : Nat := (r.prod + r.entries - r.cons) % r.entries

/-- An enabled completion ring. -/
def Ring.completion (r : Ring) : Bool := r.enabled && decide (r.type = 1)
/-- An enabled EVENT queue. -/
def Ring.eventQueue (r : Ring) : Bool := r.enabled && decide (r.type = 2) && r.event

/-- QUE_STAT.CFULL: a completion ring that holds size − 1 unread records (R445). -/
def Ring.full (r : Ring) : Bool := r.completion && decide (r.entries ≤ r.unread + 1)

/-- The device may write one more record into ring r of Pn: R445, R74, R457. -/
def State.canWrite (s : State) (n r : Nat) : Bool :=
  let q := s.ring r
  q.enabled && !q.stopped && s.dmaOk n && decide (q.unread + 1 < q.entries)

/-- Writes a record of `len` bytes at the write index, steps the index and PHASE (R432), shows CFULL (R445), and
signals the vector (R73). -/
def State.putRecord (s : State) (n r len : Nat) (mk : Bool → Bytes) : State :=
  let q := s.ring r
  let s := s.dmaWrite n (q.base.toNat + q.prod * len) (mk q.phase)
  let wrap := decide (q.prod + 1 = q.entries)
  let q' : Ring := { q with prod := if wrap then 0 else q.prod + 1, phase := if wrap then !q.phase else q.phase }
  let s := s.setRing r { q' with cfull := q'.full }
  if q.cfg.getLsbD 28 then s.signal (if q.cfg.getLsbD 26 then 0 else n + 1) (bits q.cfg.toNat 7 0) else s

/-- Signed nanoseconds in 32 bits, saturating at ±(2^31 - 1) (R443, R552). -/
def satNs (x : Int) : W32 := BitVec.ofInt 32 (max (-(2 ^ 31 - 1)) (min (2 ^ 31 - 1) x))

/-- A completion record's bytes (R443). -/
def Comp.bytes (c : Comp) (phase : Bool) : Bytes :=
  leBytes 4 c.serial.toNat ++ leBytes 2 c.graph ++ leBytes 1 c.status ++ leBytes 1 c.detail ++ leBytes 8 c.stamp.toNat
    ++ leBytes 6 c.beats ++ leBytes 2 c.lring ++ leBytes 4 (satNs c.slack).toNat ++ leBytes 1 (min c.preempt 255)
    ++ leBytes 1 0 ++ leBytes 2 (2 ^ 15 * nat phase + 2 ^ 14 * nat c.dl + 2 ^ 13 * nat c.late)

/-- An event record's bytes (R532). -/
def Evt.bytes (e : Evt) (phase : Bool) : Bytes :=
  leBytes 4 e.serial.toNat ++ leBytes 1 e.kind ++ leBytes 1 e.status ++ leBytes 2 e.conn ++ leBytes 8 e.value.toNat
    ++ leBytes 8 e.stamp.toNat ++ leBytes 6 0 ++ leBytes 2 (2 ^ 15 * nat phase)

/-- Writes the completion records that can be written, in order; a record waits behind an earlier one of its ring. -/
def writeComps (n : Nat) : List Comp → List Nat → State → State × List Comp
  | [], _, s => (s, [])
  | c :: l, blocked, s =>
    if !blocked.contains c.ring && s.canWrite n c.ring && (s.ring c.ring).completion then
      writeComps n l blocked ((s.putRecord n c.ring 32 c.bytes).countHub 2 1 (some n))
    else
      let (s', l') := writeComps n l (c.ring :: blocked) s
      (s', c :: l')

/-- Writes the event records that can be written, in order. -/
def writeEvents (n : Nat) : List Evt → List Nat → State → State × List Evt
  | [], _, s => (s, [])
  | e :: l, blocked, s =>
    if !blocked.contains e.queue && s.canWrite n e.queue && (s.ring e.queue).eventQueue then
      writeEvents n l blocked (s.putRecord n e.queue 32 e.bytes)
    else
      let (s', l') := writeEvents n l (e.queue :: blocked) s
      (s', e :: l')

/-- Writes what can be written of Pn's held completion and event records (R91, R439, R445, R525). -/
def State.flush (s : State) (n : Nat) : State :=
  let (s, l) := writeComps n (s.part n).comps [] s
  let s := s.modPart n (fun p => { p with comps := l })
  let (s, es) := writeEvents n (s.part n).rma.events [] s
  s.modPart n (fun p => { p with rma := { p.rma with events := es } })

/-- A completion record becomes due (R443). -/
def State.complete (s : State) (n : Nat) (c : Comp) : State :=
  (s.modPart n (fun p => { p with comps := p.comps ++ [c] })).flush n

/-- An event record becomes due (R532); its reservation is held until it is written (R525). -/
def State.event (s : State) (n : Nat) (e : Evt) : State :=
  (s.modPart n (fun p => { p with rma := { p.rma with events := p.rma.events ++ [{ e with stamp := s.stamp }] } })).flush n

/-- Completion slots in use: one for each launch read from a ring and each record held (R439). -/
def Part.slots (p : Part) : Nat := (p.launches.filter (fun l => !l.remote)).length + p.comps.length

/-! ## Graphs of a partition -/

def PartImage.graph (i : PartImage) (g : Nat) : Option GraphRec := i.graphs.find? (fun r => decide (r.graph = g))
def PartImage.dead (i : PartImage) (g : Nat) : Option DeadRec := i.deads.find? (fun r => decide (r.graph = g))
def PartImage.bound (i : PartImage) (g : Nat) : List Nat :=
  match i.binds.find? (fun r => decide (r.graph = g)) with
  | some b => b.chans
  | none => []
/-- The cores that have a PROGRAM record for the graph (R428). -/
def PartImage.graphCores (i : PartImage) (g : Nat) : List Nat :=
  (i.progs.filter (fun r => decide (r.graph = g))).map ProgRec.core
/-- BASE and WORDS of the graph's program on a core: PROGRAM records in ascending graph number (R229). -/
def PartImage.program (i : PartImage) (g c : Nat) : Option (Nat × Nat) :=
  (i.progs.find? (fun r => decide (r.graph = g) && decide (r.core = c))).map (fun r =>
    (((i.progs.filter (fun q => decide (q.core = c) && decide (q.graph < g))).map (fun q => q.words.length)).sum,
     r.words.length))
def PartImage.channel (i : PartImage) (ch : Nat) : Option ChanRec := i.chans.find? (fun r => decide (r.chan = ch))

/-- SRC or DST of a CHANNEL record: its core and its endpoint (R141). -/
def endCore (x : BitVec 16) : Nat := bits x.toNat 9 0
def endEp (x : BitVec 16) : Nat := bits x.toNat 15 10

/-- The channel leaves the device: its DST is an endpoint of another member (R269). -/
def ChanRec.leaves (r : ChanRec) : Bool := decide (r.dstMember ≠ 0xFFFF)
/-- The channel comes from another member: its route begins with a HUB-in hop (R269). -/
def ChanRec.enters (r : ChanRec) : Bool := r.hops.head?.any (fun h => decide (bits h.toNat 15 11 = 0b11011))

/-- A credit. -/
def isCredit : Item → Bool
  | .credit _ => true
  | _ => false

/-! ## Endpoints -/

def Core.ep (k : Core) (e : Nat) : Ep := AMap.get {} k.eps e
def State.ep (s : State) (c e : Nat) : Ep := (s.core c).ep e
def State.setEp (s : State) (c e : Nat) (x : Ep) : State :=
  s.modCore c (fun k => { k with eps := AMap.put {} k.eps e x })

/-- `e` is older than `mine`, newer, or equal: modulo 2^16 within a window of 2^15 (R270). -/
def epochNewer (e mine : BitVec 16) : Bool := decide (e ≠ mine) && decide ((e - mine).toNat < 2 ^ 15)

/-- The epoch of an item. -/
def itemEpoch : Item → BitVec 16
  | .message e _ => e
  | .token e => e
  | .credit e => e

/-! ## Launches -/

def State.launch (s : State) (n id : Nat) : Option Launch := (s.part n).launches.find? (fun l => decide (l.id = id))

def State.modLaunch (s : State) (n id : Nat) (f : Launch → Launch) : State :=
  s.modPart n (fun p => { p with launches := p.launches.map (fun l => if l.id = id then f l else l) })

/-- Every core of the launch has ended. -/
def Launch.over (l : Launch) : Bool := l.cores.all (fun c => l.ends.any (fun e => decide (e.1 = c)))

/-- The core runs a launch now. -/
def Core.busy (k : Core) : Bool :=
  match k.mode with
  | .running | .waiting | .saving | .resuming => true
  | _ => false

/-- A core stopped by a fault, an abort or a Molt (R252): the pass is abandoned, the accumulators are discarded, the
stream queue, the SFU queue and the waits are dropped. -/
def Core.stop (k : Core) (last : Nat) : Core :=
  { k with
    last := last,
    run := { k.run with
      wait := none,
      arr := { k.run.arr with queue := [], acc := [], pass := false, done := 0, out := none, tile := false,
                              written := false, stopped := true,
                              short := k.run.arr.short && !k.run.arr.pass, real := if k.run.arr.pass then 0 else k.run.arr.real,
                              strips := if k.run.arr.pass then k.run.arr.done else k.run.arr.strips },
      str := { k.run.str with queue := [], lanes := [], west := { poison := k.run.str.west.poison },
                              north := { poison := k.run.str.north.poison } },
      sfu := { k.run.sfu with queue := [] } } }

/-- A core's part of a launch ends: how, the beats it made (R443), and what memory it used (R192). -/
def State.coreEnds (s : State) (n c id outcome : Nat) (run : CoreRun) : State :=
  (s.modLaunch n id (fun l =>
    { l with ends := if l.ends.any (fun e => decide (e.1 = c)) then l.ends else l.ends ++ [(c, outcome)],
             beats := l.beats + run.arr.beats, used := l.used ++ run.used.filter (fun d => !l.used.contains d) })).countCore c 0x15 1

/-- The messages and tokens of core c on their way to an endpoint of this device and not yet written there are dropped (R252). -/
def State.unsent (s : State) (c : Nat) : State :=
  match s.coreOwner c with
  | none => s
  | some n =>
    let own := (((s.part n).image.map PartImage.chans).getD []).filter (fun r => decide (endCore r.src = c) && !r.enters && !r.leaves)
    s.each own (fun s r => s.modPart n (fun p =>
      { p with flights := AMap.put [] p.flights r.chan ((AMap.get [] p.flights r.chan).filter (fun f => f.landed || isCredit f.item)) }))

/-- Stops the launch on one core without a record (R252, R258): a context saved there is discarded; a core on which the
launch has not begun never begins it. -/
def State.abortCore (s : State) (n id last c : Nat) : State :=
  let k := s.core c
  if k.busy && decide (k.run.launch = id) then
    ((s.drawn.unsent c).setCore c
      { k.stop last with
        mode := .idle, abortedAt := some s.clock, fltValid := true, fltPrecise := false, fltDetail := 0, fltCause := 0x30,
        fltPc := k.run.pc % 8192, fltAddr := Config.faultAddr s.free }).coreEnds n c id 0x30 k.run
  else if k.slot0.any (fun x => decide (x.run.launch = id)) then
    (s.setCore c { k with slot0 := none, last := last }).coreEnds n c id 0x30 ((k.slot0.map Ctx.run).getD {})
  else if k.slot1.any (fun x => decide (x.run.launch = id)) then
    (s.setCore c { k with slot1 := none, last := last }).coreEnds n c id 0x30 ((k.slot1.map Ctx.run).getD {})
  else s.modLaunch n id (fun l => { l with ends := l.ends ++ [(c, 0x30)] })

/-- Aborts a launch on every core that has not ended (R252). -/
def State.abortLaunch (s : State) (n id last : Nat) : State :=
  match s.launch n id with
  | some l => s.each (l.cores.filter (fun c => !l.ends.any (fun e => decide (e.1 = c)))) (fun s c => s.abortCore n id last c)
  | none => s

/-- The causes whose CORE_FLT_ADDR R251 and R356 name: FETCH_RANGE, NS_RANGE, NS_ALIGN, SLICE_UE. -/
def namesAddr (cause : Nat) : Bool := [2, 3, 4, 0x14].contains cause

/-- A fault of the core's part (R249-R253): the core stops and shows the cause, one CORE record is written, and the front
end aborts the graph on its other cores; the first fault to arrive is the launch's. A core that was stopped a moment before has
ended its part already. The address of a cause for which R251 names none is a free value. -/
def State.fault (s : State) (c : Nat) (precise : Bool) (cause detail pc : Nat) (addr : W64) : State :=
  let k := s.core c
  let addr := if namesAddr cause then addr else Config.faultAddr s.free
  let s := s.drawn
  let n := (s.coreOwner c).getD 0
  let id := k.run.launch
  let s := s.setCore c { k.stop 2 with mode := .faulted, fltValid := true, fltPrecise := precise, fltDetail := detail,
                                       fltCause := cause, fltPc := pc % 8192, fltAddr := addr }
  let s := s.report { kind := 1, sev := 1, valid := (s.coreOwner c).isSome, part := n, code := cause,
                      loc := BitVec.ofNat 32 (detail * 2 ^ 16 + c),
                      detail := BitVec.ofNat 32 (k.run.graph * 2 ^ 20 + pc % 8192), info := addr }
  let s := s.unsent c
  let s := if k.busy then s.coreEnds n c id cause k.run else s
  let s := s.modLaunch n id (fun l => { l with fault := if l.fault.isNone then some cause else l.fault })
  s.abortLaunch n id 3

/-- A precise fault of the instruction at the PC (R249). -/
def State.precise (s : State) (c cause detail : Nat) (addr : W64) : State :=
  s.fault c true cause detail (s.core c).run.pc addr

/-- The core was stopped because of another core less than 2 µs ago: what it had in hand may still fault (R252, R253). -/
def Core.halting (k : Core) (now : Nat) : Bool :=
  decide (k.mode = .idle) && k.abortedAt.any (fun t => decide (now ≤ t + 2000))

/-- An imprecise fault of a unit (R250); CORE_FLT_PC is the next instruction not issued. -/
def State.imprecise (s : State) (c cause detail : Nat) (addr : W64) : State :=
  if (s.core c).busy || (s.core c).halting s.clock then s.fault c false cause detail (s.core c).run.pc addr else s

/-- A CHANNEL fault of an endpoint (R280). -/
def State.channelFault (s : State) (c e st : Nat) : State :=
  (s.setEp c e { s.ep c e with st := st }).imprecise c 0x10 e 0

/-- An item applied to an endpoint of its own epoch (R270, R275, R280). -/
def State.applyItem (s : State) (c e : Nat) (x : Item) : State :=
  let p := s.ep c e
  match x with
  | .credit _ => s.setEp c e { p with level := p.level + 1 }
  | .token _ =>
    match p.posts with
    | (a, _) :: l => s.setEp c e { p with posts := l, arrivals := p.arrivals ++ [(a, 0)] }
    | [] => s
  | .message _ d =>
    match p.posts with
    | (a, cap) :: l =>
      if cap < d.length then s.channelFault c e 7
      else (s.setEp c e { p with posts := l, arrivals := p.arrivals ++ [(a, d.length)] }).modCore c
             (fun k => { k with near := Memory.writeN k.near a d })
    | [] => s

/-- An item that reaches an endpoint (R270): applied, discarded or held, at most CREDITS items. -/
def State.receiveItem (s : State) (c e : Nat) (x : Item) : State :=
  let p := s.ep c e
  if !p.valid then s
  else if itemEpoch x = p.epoch then s.applyItem c e x
  else if epochNewer (itemEpoch x) p.epoch then
    if p.held.length < p.credits then s.setEp c e { p with held := p.held ++ [x] } else s
  else s

/-- The endpoints of core c that graph g binds (R264, R266). -/
def PartImage.boundEps (i : PartImage) (g c : Nat) : List Nat :=
  (i.bound g).flatMap (fun ch =>
    match i.channel ch with
    | some r =>
      (if endCore r.dst = c ∧ r.dstMember = 0xFFFF then [endEp r.dst] else [])
        ++ (if endCore r.src = c ∧ !r.enters then [endEp r.src] else [])
    | none => [])

/-- A bound endpoint is reset, its epoch set, and the items held for that epoch applied (R266). -/
def State.resetEp (s : State) (c : Nat) (epoch : BitVec 16) (e : Nat) : State :=
  let p := s.ep c e
  let s := s.setEp c e { p with st := 0, level := 0, posts := [], arrivals := [], count := 0, epoch := epoch,
                                held := p.held.filter (fun x => epochNewer (itemEpoch x) epoch) }
  s.each (p.held.filter (fun x => decide (itemEpoch x = epoch))) (fun s x => s.applyItem c e x)

/-- The launch begins on core c: registers cleared, PC at the first word (R227), the parameter area written (R232), the
bound endpoints reset (R266). -/
def State.beginCore (s : State) (n c : Nat) (l : Launch) : State :=
  match s.image n with
  | none => s
  | some i =>
    let (base, words) := (i.program l.graph c).getD (0, 0)
    let s := s.modCore c (fun k =>
      { k with
        mode := .running, abortedAt := none, fltValid := false, fltPrecise := false, fltDetail := 0, fltCause := 0,
        run := { graph := l.graph, launch := l.id, serial := l.serial, base := base, words := words, pc := base,
                 str := { west := if k.busy then {} else { k.run.str.west with poison := false },
                          north := if k.busy then {} else { k.run.str.north with poison := false } } },
        near := Memory.writeN k.near 0x5B800 (l.params.flatMap (fun p => leBytes 8 p.toNat)) })
    s.each (i.boundEps l.graph c) (fun s e => s.resetEp c l.epoch e)

/-! ## Lateness (R190-R192) -/

/-- Some member of Pn's span stands more hops away than it was admitted with: on a worker, its manager; on the manager, by its
own routes, a worker that joined (DEDUCED, notes/assumptions/30.md). -/
def State.routeGrown (s : State) (n : Nat) : Bool :=
  ((s.image n).bind PartImage.span?).any (fun r =>
    let x := (s.part n).span
    if r.self = 0 then x.joined.any (fun m => decide (m.2 < (s.route (r.members.getD m.1 0)).hops))
    else decide (x.hops < (s.route (r.members.headD 0)).hops))

/-- The cause bits GUARD, TIME and ROUTE of R192 that hold now for a launch of Pn; FABRIC is noted where a packet is
retransmitted, HOT_MEM at the end by what the launch used. -/
def State.lateNow (s : State) (n : Nat) (l : Launch) : BitVec 6 :=
  let guard := l.cores.any (fun c => (s.core c).tmonValid && decide ((s.core c).tempo.toNat < 1050))
  let time := ((s.image n).bind PartImage.span?).any (fun r => decide (r.margin < s.tim.unc.toNat))
  BitVec.ofNat 6 (nat guard + 4 * nat time + 16 * nat (s.routeGrown n))

/-- The slice layers above 100 °C and the stacks above their operating maximum now, by die (R192, R560). -/
def State.hotDies (s : State) : List Nat := ((List.range 24).map (· + 4)).filter (fun d => decide (dieMax d < s.dieCounted d))

/-- The launch with the conditions of R192 that hold now noted. -/
def State.noted (s : State) (n : Nat) (l : Launch) : Launch :=
  { l with late := l.late ||| s.lateNow n l, hot := l.hot ++ s.hotDies.filter (fun d => !l.hot.contains d) }

/-- Notes the causes that hold now in every running launch. -/
def State.watchLate (s : State) : State :=
  { s with parts := s.parts.map (fun (n, p) =>
      (n, { p with launches := p.launches.map (fun l => if l.started.isSome then s.noted n l else l) })) }

/-- The cause bits of a launch that ends: those noted, and HOT_MEM where a die it used has been too hot. -/
def Launch.causes (l : Launch) : BitVec 6 := l.late ||| BitVec.ofNat 6 (2 * nat (l.used.any (fun d => l.hot.contains d)))

/-- Counts a late launch (R190, R193) and tells the Tenant (R72). -/
def State.countLate (s : State) (n g ns : Nat) (causes : BitVec 6) : State :=
  let cause := if causes &&& 0x1F = 0 then 0x20 else causes.toNat
  (s.modPart n (fun p =>
    { p with lateCnt := p.lateCnt.add 1,
             lateWorst := { pf := max p.lateWorst.pf (sat32 ns), vf := max p.lateWorst.vf (sat32 ns) },
             lateLast := BitVec.ofNat 32 (cause * 2 ^ 24 + g) })).signal (n + 1) 0

/-- A ring by its partition's number, as records and completions show it. -/
def State.ringNumber (s : State) (n a : Nat) : Nat := a - ((s.partRec n).map PartRec.ringBase).getD 0

/-- The launch ends (R190, R191, R443): it leaves the front end, counts as late where it ended OK and is, and its record, whose
LATE says that SLACK is negative, becomes due;
a worker reports DONE to its manager instead (R495). -/
def State.endLaunch (s : State) (n : Nat) (l : Launch) (status detail : Nat) : State :=
  let s := s.modPart n (fun p => { p with launches := p.launches.filter (fun x => decide (x.id ≠ l.id)) })
  if l.remote then
    s.sendSpan n ((((s.image n).bind PartImage.span?).bind (fun r => r.members.head?)).getD 0)
      (.done l.graph l.epoch (BitVec.ofNat 8 status) (BitVec.ofNat 8 detail) (BitVec.ofNat 64 l.beats) (BitVec.ofNat 8 (min l.preempts 255)))
  else
    let dead := (s.image n).bind (fun i => i.dead l.graph)
    let dl := dead.isSome && l.started.isSome
    let slack : Int := match dead, l.started with
      | some d, some t => (d.deadline : Int) - ((s.mono - t : Nat) : Int)
      | _, _ => 0
    let late := dl && decide (slack < 0)
    let s := if late && decide (status = 0) then s.countLate n l.graph (-slack).toNat (s.noted n l).causes else s
    s.complete n { ring := l.cring, serial := l.serial, graph := l.graph, status := status, detail := detail,
                   stamp := s.stamp, beats := l.beats + (l.members.map MemberEnd.beats).sum, lring := s.ringNumber n l.ring,
                   slack := if dl then slack else 0,
                   preempt := (l.members.map MemberEnd.preempt).foldl max l.preempts, dl := dead.isSome,
                   late := late }

end Sys2Proof.Machine
end

