-- ==== Sys2Proof/Machine/Numbers.lean ====
section
/-!
DEFINITION. The number formats of ch. 11: values, rounding once into a format with its flags (R321, R322), special values
(R323), conversions (R324-R327) and block scales (R329). Flags are laid out as CORE_VFLAGS (R259): [0] NV, [1] OF, [2] UF,
[3] NX, [4] SAT.
-/
namespace Sys2Proof.Machine

/-- A value: NaN, an infinity, or (-1)^neg × m × 2^e, where m = 0 is a signed zero. -/
inductive Num where
  | nan
  | inf (neg : Bool)
  | fin (neg : Bool) (m : Nat) (e : Int)
deriving DecidableEq, Repr

/-- The sticky flags. -/
abbrev Flags := BitVec 5
def flagNV : Flags := 1
def flagOF : Flags := 2
def flagUF : Flags := 4
def flagNX : Flags := 8
def flagSAT : Flags := 16

/-! ## Layouts (R316) -/

/-- Bits of a format; 0 for a code that names none. -/
def fmtBits (f : Nat) : Nat :=
  match f with
  | 0 => 32 | 1 => 16 | 2 => 16 | 3 => 8 | 4 => 8 | 5 => 6 | 6 => 6 | 7 => 4
  | 8 => 32 | 9 => 16 | 10 => 8 | 11 => 4 | 12 => 8
  | _ => 0

/-- Exponent bits of a floating-point format. -/
def fmtExp (f : Nat) : Nat :=
  match f with
  | 0 => 8 | 1 => 5 | 2 => 8 | 3 => 4 | 4 => 5 | 5 => 3 | 6 => 2 | 7 => 2
  | _ => 0

/-- Fraction bits. -/
def fmtFrac (f : Nat) : Nat :=
  match f with
  | 0 => 23 | 1 => 10 | 2 => 7 | 3 => 3 | 4 => 2 | 5 => 2 | 6 => 3 | 7 => 1
  | _ => 0

/-- Bias. -/
def fmtBias (f : Nat) : Nat :=
  match f with
  | 0 => 127 | 1 => 15 | 2 => 127 | 3 => 7 | 4 => 15 | 5 => 3 | 6 => 1 | 7 => 1
  | _ => 0

/-- A floating-point format. -/
def fmtFloat (f : Nat) : Bool := decide (f < 8)
/-- An integer format. -/
def fmtInt (f : Nat) : Bool := decide (8 ≤ f) && decide (f < 12)
/-- The format has infinities. -/
def fmtInf (f : Nat) : Bool := decide (f = 0) || decide (f = 1) || decide (f = 2) || decide (f = 4)

/-- The canonical NaN of a format that has NaNs (R318). -/
def fmtNan (f : Nat) : Option Nat :=
  match f with
  | 0 => some 0x7FC00000
  | 1 => some 0x7E00
  | 2 => some 0x7FC0
  | 3 => some 0x7F
  | 4 => some 0x7E
  | _ => none

/-- The largest finite magnitude's encoding without sign. -/
def fmtMax (f : Nat) : Nat :=
  if fmtInf f then (2 ^ fmtExp f - 1) * 2 ^ fmtFrac f - 1
  else if f = 3 then 0x7E
  else 2 ^ (fmtExp f + fmtFrac f) - 1

/-- Values a register of vectors holds of a format (R317). -/
def fmtCount (f : Nat) : Nat :=
  match fmtBits f with
  | 32 => 32
  | 16 => 64
  | 8 => 128
  | 6 => 128
  | 4 => 256
  | _ => 0

/-! ## Reading a value -/

/-- The value of an encoding (R316, R318, R319); an integer is its number. -/
def decodeNum (f x : Nat) : Num :=
  if fmtInt f then
    let v := signed (fmtBits f) x
    .fin (decide (v < 0)) v.natAbs 0
  else if f = 12 then (if x % 256 = 255 then .nan else .fin false 1 ((x % 256 : Nat) - 127))
  else
    let fr := x % 2 ^ fmtFrac f
    let ex := x / 2 ^ fmtFrac f % 2 ^ fmtExp f
    let neg := bit x (fmtBits f - 1)
    if fmtInf f ∧ ex = 2 ^ fmtExp f - 1 then (if fr = 0 then .inf neg else .nan)
    else if f = 3 ∧ ex = 15 ∧ fr = 7 then .nan
    else if ex = 0 then .fin neg fr (1 - (fmtBias f : Int) - fmtFrac f)
    else .fin neg (2 ^ fmtFrac f + fr) ((ex : Int) - fmtBias f - fmtFrac f)

/-! ## Rounding (R321, R322) -/

/-- Whether a magnitude with quotient `q`, remainder `r` of `den` is rounded up (`rm`: 0 RNE, 1 toward zero, 2 toward
minus infinity, 3 toward plus infinity). -/
def roundsUp (rm : Nat) (neg : Bool) (q r den : Nat) : Bool :=
  if r = 0 then false
  else if rm = 0 then decide (den < 2 * r) || (decide (2 * r = den) && decide (q % 2 = 1))
  else if rm = 1 then false
  else if rm = 2 then neg
  else !neg

/-- Quotient and remainder of num / den × 2^k, with the divisor the remainder belongs to. -/
def scaled (num den : Nat) (k : Int) : Nat × Nat × Nat :=
  if 0 ≤ k then (num * 2 ^ k.toNat / den, num * 2 ^ k.toNat % den, den)
  else (num / (den * 2 ^ (-k).toNat), num % (den * 2 ^ (-k).toNat), den * 2 ^ (-k).toNat)

/-- ⌊log₂(num / den × 2^e)⌋ for a positive value. -/
def log2Of (num den : Nat) (e : Int) : Int :=
  let a : Int := (Nat.log2 num : Int) - Nat.log2 den
  let ge := if 0 ≤ a then decide (den * 2 ^ a.toNat ≤ num) else decide (den ≤ num * 2 ^ (-a).toNat)
  e + a - (if ge then 0 else 1)

/-- The magnitude num / den × 2^e rounded to a whole number of units of 2^u; and whether that was inexact. -/
def roundUnits (rm : Nat) (neg : Bool) (num den : Nat) (e u : Int) : Nat × Bool :=
  let (q, r, d) := scaled num den (e - u)
  (if roundsUp rm neg q r d then q + 1 else q, decide (r ≠ 0))

/-- The encoding's magnitude of `q` units of 2^u, where q < 2^(fraction bits + 1) and u is at least the least unit. -/
def packMag (f q : Nat) (u : Int) : Nat :=
  if q < 2 ^ fmtFrac f then q
  else ((u + fmtFrac f + fmtBias f).toNat) * 2 ^ fmtFrac f + (q - 2 ^ fmtFrac f)

/-- IEEE 754-2019's overflow gives an infinity under this rounding. -/
def overInf (rm : Nat) (neg : Bool) : Bool := decide (rm = 0) || (decide (rm = 2) && neg) || (decide (rm = 3) && !neg)

/-- The sign bit of an encoding. -/
def signBit (f : Nat) (neg : Bool) : Nat := if neg then 2 ^ (fmtBits f - 1) else 0

/-- An exact value (-1)^neg × num / den × 2^e rounded once into a floating-point format (R321, R322). -/
def roundInto (f rm : Nat) (sat neg : Bool) (num den : Nat) (e : Int) : Nat × Flags :=
  if num = 0 then (signBit f neg, 0)
  else
    let emin : Int := 1 - fmtBias f
    let lg := log2Of num den e
    let u := max lg emin - fmtFrac f
    let (q0, inexact) := roundUnits rm neg num den e u
    let (q, u) := if q0 = 2 ^ (fmtFrac f + 1) then (2 ^ fmtFrac f, u + 1) else (q0, u)
    let (qu, _) := roundUnits rm neg num den e (lg - fmtFrac f)
    let tiny := decide (lg + (if qu = 2 ^ (fmtFrac f + 1) then 1 else 0) < emin)
    let mag := packMag f q u
    if fmtMax f < mag then
      let oi := overInf rm neg
      if fmtInf f ∧ !sat ∧ oi then (signBit f neg + (fmtMax f + 1), flagOF ||| flagNX)
      else (signBit f neg + fmtMax f, flagOF ||| flagNX ||| (if oi then flagSAT else 0))
    else (signBit f neg + mag, if inexact then flagNX ||| (if tiny then flagUF else 0) else 0)

/-- An integer value rounded and narrowed to an integer format (R326): outside the range, the nearest bound and SAT. -/
def intoInt (f rm : Nat) (neg : Bool) (m : Nat) (e : Int) : Nat × Flags :=
  let (n, inexact) := roundUnits rm neg m 1 e 0
  let v : Int := if neg then -(n : Int) else n
  let w := fmtBits f
  let hi : Int := 2 ^ (w - 1) - 1
  let lo : Int := -(2 ^ (w - 1) : Nat)
  if hi < v then (hi.toNat, flagSAT)
  else if v < lo then (2 ^ (w - 1), flagSAT)
  else ((v % (2 ^ w : Nat)).toNat, if inexact then flagNX else 0)

/-- ⌊log₂|x|⌋ + 127 limited to 0-254 (R327). -/
def intoScale (x : Num) : Nat × Flags :=
  match x with
  | .nan => (255, 0)
  | .inf _ => (254, flagSAT)
  | .fin _ m e => if m = 0 then (0, 0) else ((max 0 (min 254 (log2Of m 1 e + 127))).toNat, 0)

/-- A value given a format, rounded once (R322, R325, R326, R327). -/
def Num.into (x : Num) (f rm : Nat) (sat : Bool) : Nat × Flags :=
  if f = 12 then intoScale x
  else
    match x with
    | .nan =>
      match fmtNan f with
      | some c => (c, 0)
      | none => (0, flagNV)
    | .inf neg =>
      if fmtInt f then ((if neg then 2 ^ (fmtBits f - 1) else 2 ^ (fmtBits f - 1) - 1), flagSAT)
      else if fmtInf f then (signBit f neg + (fmtMax f + 1), 0)
      else (signBit f neg + fmtMax f, flagSAT)
    | .fin neg m e => if fmtInt f then intoInt f rm neg m e else roundInto f rm sat neg m 1 e

/-! ## Exact arithmetic (R323) -/

/-- A finite value as an integer number of units of 2^e. -/
def unitsAt (neg : Bool) (m : Nat) (e e0 : Int) : Int :=
  let v : Int := m * 2 ^ (e - e0).toNat
  if neg then -v else v

/-- The exact sum; an exact zero of operands of both signs takes the sign of IEEE 754-2019 (minus only toward minus
infinity). -/
def Num.add (x y : Num) (rm : Nat) : Num × Flags :=
  match x, y with
  | .nan, _ => (.nan, 0)
  | _, .nan => (.nan, 0)
  | .inf a, .inf b => if a = b then (.inf a, 0) else (.nan, flagNV)
  | .inf a, .fin .. => (.inf a, 0)
  | .fin .., .inf b => (.inf b, 0)
  | .fin a m e, .fin b n g =>
    let e0 := min e g
    let v := unitsAt a m e e0 + unitsAt b n g e0
    if v = 0 then (.fin (if m = 0 ∧ n = 0 ∧ a = b then a else decide (rm = 2)) 0 0, 0)
    else (.fin (decide (v < 0)) v.natAbs e0, 0)

/-- The negated value. -/
def Num.neg : Num → Num
  | .nan => .nan
  | .inf a => .inf (!a)
  | .fin a m e => .fin (!a) m e

/-- The exact product. -/
def Num.mul (x y : Num) : Num × Flags :=
  match x, y with
  | .nan, _ => (.nan, 0)
  | _, .nan => (.nan, 0)
  | .inf a, .inf b => (.inf (a != b), 0)
  | .inf a, .fin b n _ => if n = 0 then (.nan, flagNV) else (.inf (a != b), 0)
  | .fin a m _, .inf b => if m = 0 then (.nan, flagNV) else (.inf (a != b), 0)
  | .fin a m e, .fin b n g => (.fin (a != b) (m * n) (e + g), 0)

/-- x × y + z exactly; NV for 0 × ∞ and ∞ - ∞, unless an operand is NaN. -/
def Num.fma (x y z : Num) (rm : Nat) : Num × Flags :=
  match z with
  | .nan => (.nan, 0)
  | _ =>
    let (p, f) := x.mul y
    if f = 0 then p.add z rm else (p, f)

/-- Order of two values that are not NaN: -0 below +0 (R323). -/
def Num.lt (x y : Num) : Bool :=
  match x, y with
  | .nan, _ => false
  | _, .nan => false
  | .inf a, .inf b => a && !b
  | .inf a, .fin .. => a
  | .fin .., .inf b => !b
  | .fin a m e, .fin b n g =>
    let e0 := min e g
    let u := unitsAt a m e e0
    let v := unitsAt b n g e0
    if m = 0 ∧ n = 0 then a && !b else decide (u < v)

/-- Numerical equality: -0 equals +0, a NaN equals nothing. -/
def Num.eq (x y : Num) : Bool :=
  match x, y with
  | .fin _ 0 _, .fin _ 0 _ => true
  | .nan, _ => false
  | _, .nan => false
  | _, _ => !x.lt y && !y.lt x

/-- Numerical order: -0 is not below +0. -/
def Num.below (x y : Num) : Bool := !x.eq y && x.lt y

/-- A sum rounded into a format: the encoding and the flags. -/
def addInto (f rm : Nat) (sat : Bool) (x y : Num) : Nat × Flags :=
  let (z, g) := x.add y rm
  let (v, h) := z.into f rm sat
  (v, g ||| h)

/-- A product rounded into a format. -/
def mulInto (f rm : Nat) (sat : Bool) (x y : Num) : Nat × Flags :=
  let (z, g) := x.mul y
  let (v, h) := z.into f rm sat
  (v, g ||| h)

/-- A fused multiply-add rounded into a format. -/
def fmaInto (f rm : Nat) (sat : Bool) (x y z : Num) : Nat × Flags :=
  let (w, g) := x.fma y z rm
  let (v, h) := w.into f rm sat
  (v, g ||| h)

/-- A quotient of two values by a positive integer or another finite value, rounded into a format (R346). -/
def divInto (f rm : Nat) (sat : Bool) (x y : Num) : Nat × Flags :=
  match x, y with
  | .nan, _ => Num.nan.into f rm sat
  | _, .nan => Num.nan.into f rm sat
  | .inf _, .inf _ => ((Num.nan.into f rm sat).1, flagNV)
  | .inf a, .fin b _ _ => (Num.inf (a != b)).into f rm sat
  | .fin a _ _, .inf b => (signBit f (a != b), 0)
  | .fin a m e, .fin b n g =>
    if n = 0 then
      (if m = 0 then ((Num.nan.into f rm sat).1, flagNV) else ((Num.inf (a != b)).into f rm sat))
    else roundInto f rm sat (a != b) m n (e - g)

/-! ## Elements of runs of bits (R317) -/

/-- Element i of width w of a run of bits. -/
def elem (x w i : Nat) : Nat := x / 2 ^ (w * i) % 2 ^ w

/-- Elements placed side by side from bit 0. -/
def packElems (w : Nat) : List Nat → Nat
  | [] => 0
  | x :: l => x % 2 ^ w + 2 ^ w * packElems w l

/-- The `n` elements of width w of a run of bits. -/
def elems (x w n : Nat) : List Nat := (List.range n).map (elem x w)

/-! ## Conversions between formats (R324-R327) -/

/-- The pair of formats has a conversion. -/
def convertible (src dst : Nat) : Bool :=
  decide (src < 13) && decide (dst < 13)
    && (!(decide (src = 12)) || decide (dst = 0) || decide (dst = 2))
    && (!(decide (dst = 12)) || decide (src = 0) || decide (src = 2))

/-- One element converted. -/
def convert (src dst rm : Nat) (sat : Bool) (x : Nat) : Nat × Flags := (decodeNum src x).into dst rm sat

/-! ## Block scales (R320, R329) -/

/-- e of R329. -/
def blockE (f : Nat) : Nat := if f = 3 then 8 else if f = 4 then 15 else if f = 5 then 4 else if f = 6 ∨ f = 7 then 2 else 0

/-- A format a block's elements can have (R291). -/
def blockFmt (f : Nat) : Bool := (decide (3 ≤ f) && decide (f ≤ 7)) || decide (f = 10)

/-- The scale chosen for a block of values (R329). -/
def blockScale (f : Nat) (xs : List Num) : Nat :=
  if xs.contains .nan then 255
  else
    let logs := xs.filterMap (fun x => match x with
      | .fin _ m e => if m = 0 then none else some (log2Of m 1 e)
      | _ => none)
    match logs with
    | [] => 0
    | l :: ls => (max 0 (min 254 (ls.foldl max l - blockE f + 127))).toNat

/-- A value times 2^k. -/
def Num.shift (x : Num) (k : Int) : Num :=
  match x with
  | .fin a m e => .fin a m (e + k)
  | y => y

/-- A block element given its format (R329): an INT8 element stands for its integer times 2^-6 (R320). -/
def blockElem (f rm : Nat) (sat : Bool) (scale : Nat) (x : Num) : Nat × Flags :=
  if scale = 255 then (0, flagNV)
  else
    let k : Int := 127 - (scale : Int)
    (x.shift (if f = 10 then k + 6 else k)).into f rm sat

/-- The value of a block element under its scale (R320). -/
def blockValue (f scale x : Nat) : Num :=
  if scale = 255 then .nan
  else
    match decodeNum f x with
    | .fin a m e => .fin a m (e + (scale : Int) - 127 - (if f = 10 then 6 else 0))
    | y => y

end Sys2Proof.Machine
end

