-- ==== Sys2Proof/Machine/Operands.lean ====
section
/-!
DEFINITION. What the instructions of a core share: its registers (R226), the operand forms of its word (R237, R238), the
checks of a near-store access (R231, R233, R239), and issue itself (R228, R230, R234, R249, R60).
-/
namespace Sys2Proof.Machine

/-! ## Registers (R226) -/

/-- A general register; g0 reads 0. -/
def Core.reg (k : Core) (r : Nat) : W64 := if r = 0 then 0 else AMap.get 0 k.run.g r

/-- A write of a general register; g0 discards it. -/
def State.setReg (s : State) (c r : Nat) (v : W64) : State :=
  if r = 0 then s else s.modRun c (fun x => { x with g := AMap.put 0 x.g r v })

/-- A vector register. -/
def Core.vreg (k : Core) (r : Nat) : V1024 := AMap.get 0 k.run.v r

/-- A write of a vector register. -/
def State.setVreg (s : State) (c r : Nat) (v : V1024) : State :=
  s.modRun c (fun x => { x with v := AMap.put 0 x.v r v })

/-- The next instruction's word. -/
def State.setPc (s : State) (c pc : Nat) : State := s.modRun c (fun x => { x with pc := pc })

end Sys2Proof.Machine

namespace Sys2Proof

/-! ## The word's fields -/

/-- The core that issues. -/
def Issue.c (i : Issue) : Nat := i.core.val
/-- RS1's value. -/
def Issue.a (i : Issue) (k : Machine.Core) : W64 := k.reg i.rs1.toNat
/-- RS2's value. -/
def Issue.b (i : Issue) (k : Machine.Core) : W64 := k.reg i.rs2.toNat
/-- RD's number. -/
def Issue.d (i : Issue) : Nat := i.rd.toNat
/-- IMM sign-extended (R237). -/
def Issue.simm (i : Issue) : W64 := i.imm.signExtend 64
/-- IMM zero-extended. -/
def Issue.zimm (i : Issue) : W64 := i.imm.setWidth 64
/-- The near-store address RS1 + IMM, modulo 2^64 (R239). -/
def Issue.address (i : Issue) (k : Machine.Core) : Nat := (i.a k + i.simm).toNat
/-- The branch target PC + IMM in words, modulo 2^64. -/
def Issue.target (i : Issue) (k : Machine.Core) : Nat := (BitVec.ofNat 64 k.run.pc + i.simm).toNat

/-- The instruction's word, for its row's CLASS and OP (R237). -/
def Issue.word (i : Issue) (cls op : Nat) : W64 :=
  BitVec.ofNat 4 cls ++ BitVec.ofNat 6 op ++ i.rd ++ i.rs1 ++ i.rs2 ++ i.md ++ i.imm

/-- The fields an operation does not use are 0 (R238): `rd`, `rs1`, `rs2` say which registers it uses; `md` and `imm` are
the bits it uses of MOD and of IMM. -/
def Issue.uses (i : Issue) (rd rs1 rs2 : Bool) (md : BitVec 7) (imm : W32) : Bool :=
  (rd || decide (i.rd = 0)) && (rs1 || decide (i.rs1 = 0)) && (rs2 || decide (i.rs2 = 0))
    && decide (i.md &&& ~~~md = 0) && decide (i.imm &&& ~~~imm = 0)

end Sys2Proof

namespace Sys2Proof.Machine

/-- All bits of IMM. -/
def immAll : W32 := 0xFFFFFFFF

/-! ## The near store (R231, R233, R239) -/

/-- The end of what loads may read: the context slots begin here. -/
def nsLoadEnd : Nat := 0x5C000
/-- The end of what stores may write: the parameter area begins here. -/
def nsStoreEnd : Nat := 0x5B800

/-- The precise fault of a load of `n` bytes, if any: range before alignment (DEDUCED, notes/assumptions/42.md). -/
def loadFault (a n align : Nat) : Option (Nat × W64) :=
  if nsLoadEnd < a + n then some (3, BitVec.ofNat 64 a)
  else if a % align ≠ 0 then some (4, BitVec.ofNat 64 a) else none

/-- The precise fault of a store of `n` bytes, if any. -/
def storeFault (a n align : Nat) : Option (Nat × W64) :=
  if nsStoreEnd < a + n then some (3, BitVec.ofNat 64 a)
  else if a % align ≠ 0 then some (4, BitVec.ofNat 64 a) else none

/-- A near-store check's result on words read by the control unit: an uncorrectable error is NS_ECC (R234, R251). -/
def eccFault (e : Ecc) : Option (Nat × W64) := if e = .uncorrectable then some (6, 0) else none

/-- Bytes of the near store as a number. -/
def Core.nearNat (k : Core) (a n : Nat) : Nat := leNat (Memory.readN k.near a n)

/-- Bytes stored into the near store. -/
def State.nearStore (s : State) (c a : Nat) (bs : Bytes) : State :=
  s.modCore c (fun k => { k with near := Memory.writeN k.near a bs })

/-- A corrected near-store error counts (R234, R580). -/
def State.noteNear (s : State) (c : Nat) (e : Ecc) : State := if e = .corrected then s.countCore c 0x11 1 else s

/-! ## Waiting -/

/-- A wait ends: its time counts (source 0x0006 of R580) and the core runs on. -/
def State.endWait (s : State) (c : Nat) : State :=
  match (s.core c).run.wait with
  | some (_, since) =>
    ((s.modCore c (fun k => { k with mode := .running, run := { k.run with wait := none } })).countCore c 6 (s.clock - since))
  | none => s.modCore c (fun k => { k with mode := .running })

/-- The core waits. -/
def State.beginWait (s : State) (c : Nat) (w : WaitKind) : State :=
  s.modCore c (fun k => { k with mode := .waiting, run := { k.run with wait := some (w, s.clock) } })

/-- The core issues now: it runs, or it waits at issue for the very instruction that comes. -/
def Core.issuing (k : Core) : Bool :=
  match k.mode, k.run.wait with
  | .running, _ => true
  | .waiting, some (.issue, _) => true
  | _, _ => false

/-! ## Issue -/

/-- The PC lies in the program of the launch (R230). -/
def Core.inProgram (k : Core) : Bool := decide (k.run.base ≤ k.run.pc) && decide (k.run.pc < k.run.base + k.run.words)

/-- The word of the code store at the PC (R229). -/
def Core.word (k : Core) : W64 := AMap.get 0 k.code k.run.pc

/-- A CLASS has an operation with this OP (R237-R239). -/
def definedOp (cls op : Nat) : Bool :=
  match cls with
  | 0 => decide (op < 0x10) || (decide (0x20 ≤ op) && decide (op ≤ 0x28))
  | 1 => decide (op ≤ 5) || (decide (8 ≤ op) && decide (op ≤ 0xA))
  | 2 => decide (op ≤ 6) || (decide (8 ≤ op) && decide (op ≤ 0xB)) || (decide (0x10 ≤ op) && decide (op ≤ 0x12))
  | 3 => decide (op ≤ 6) || op == 8 || op == 9 || op == 0x10 || (decide (0x18 ≤ op) && decide (op ≤ 0x1A))
  | 4 => decide (op ≤ 2)
  | 5 => decide (op ≤ 2)
  | 6 => decide (op ≤ 3)
  | 7 => decide (op ≤ 8)
  | 8 => decide (op ≤ 2)
  | 9 => decide (op ≤ 3)
  | _ => false

/-- The word's CLASS has an operation with its OP. -/
def definedWord (w : W64) : Bool := definedOp (bits w.toNat 63 60) (bits w.toNat 59 54)

/-! ## Pairs (R228) -/

/-- The registers an instruction reads, by its word: general ones by number, vector ones from 32; g0 is none. -/
def wordReads (w : W64) : List Nat :=
  let op := bits w.toNat 59 54
  let d := bits w.toNat 53 49
  let a := bits w.toNat 48 44
  let b := bits w.toNat 43 39
  let used := match bits w.toNat 63 60 with
    | 0 => if op < 0x10 then [a, b] else [a]
    | 1 => if op ≤ 5 then [a, b] else if op = 9 then [a] else if op = 0xA then [d] else []
    | 2 => if op = 0x11 then [a, 32 + d] else if 8 ≤ op ∧ op ≤ 0xB then [a, b] else [a]
    | 3 =>
      if op = 0x19 then [a]
      else if op = 3 then [32 + a, 32 + b, 32 + d]
      else if op = 0x10 then [32 + a, 32 + d]
      else if op = 8 ∨ op = 9 ∨ op = 0x1A then [32 + a]
      else [32 + a, 32 + b]
    | 4 => if op = 0 then [a, b] else if op = 2 then [a] else []
    | 5 => if op = 0 then [a] else []
    | 6 => if op ≤ 1 then [a, b] else []
    | 7 =>
      if op ≤ 1 then [if bit w.toNat 32 then 32 + a else a, 32 + b, 32 + b + 1]
      else if op = 8 then [a, b]
      else if 4 ≤ op ∧ bit w.toNat 32 then [a]
      else [32 + a]
    | 8 => if op ≤ 1 then [a, b] else []
    | _ => []
  used.filter (fun r => decide (r ≠ 0))

/-- The registers an instruction writes. -/
def wordWrites (w : W64) : List Nat :=
  let op := bits w.toNat 59 54
  let d := bits w.toNat 53 49
  let used := match bits w.toNat 63 60 with
    | 0 => [d]
    | 1 => if 8 ≤ op then [d] else []
    | 2 => if op ≤ 6 then [d] else if op = 0x10 ∨ op = 0x12 then [32 + d] else []
    | 3 => if op = 0x1A then [d] else [32 + d]
    | 5 => if op = 2 then [d] else []
    | 6 => if op = 3 then [d] else []
    | 7 => if op = 8 ∨ (4 ≤ op ∧ bit w.toNat 32) then [] else [32 + d]
    | 8 => if op ≤ 1 then [d, d + 1] else []
    | 9 => if op = 1 then [d] else []
    | _ => []
  used.filter (fun r => decide (r ≠ 0))

/-- The instruction accesses the near store: its class, or SQ, which reads a descriptor. -/
def wordNear (w : W64) : Bool :=
  decide (bits w.toNat 63 60 = 2) || (decide (bits w.toNat 63 60 = 5) && decide (bits w.toNat 59 54 = 0))

/-- Two consecutive instructions may issue together (R228). -/
def canPair (first second : W64) : Bool :=
  let unit (w : W64) : Bool := decide (4 ≤ bits w.toNat 63 60)
  (wordWrites first).all (fun r => !(wordReads second).contains r) && !(wordNear first && wordNear second)
    && !(unit first && unit second) && decide (bits first.toNat 63 60 ≠ 1)

/-- The instruction issues together with the one before it (R228). -/
def Core.pairs (k : Core) (i : Issue) : Bool := i.paired && k.run.prev.any (fun w => canPair w k.word)

/-- What every issued instruction does: CORE_PC (R259), the counts of R580, one issue of a pinned core's budget (R60). -/
def State.counted (s : State) (i : Issue) : State :=
  let c := i.c
  let pair := (s.core c).pairs i
  let s := if (s.core c).mode = .waiting then s.endWait c else s
  let s := s.modCore c (fun k => { k with shownPc := k.run.pc, budgetIssues := k.budgetIssues - 1,
                                          run := { k.run with prev := if pair then none else some k.word } })
  let s := s.countCore c 4 1
  if pair then s.countCore c 5 1 else s

/-- One instruction comes to issue on its core, which is the one at the PC (R237): a row that the word there does not spell has
no effect. Nothing happens while the core does not issue (R249, R252) or, pinned, has no issue left in its budget (R60).
Then, in order: the fetch (R230, R234), the decode (R238: `legal`), the operation's own precise fault (`check`: cause, DETAIL,
address), room to issue (`ready`), and the effect, after the PC has advanced. On a core that another has just stopped only a
fault is left of it (R253). -/
def State.issue (s : State) (i : Issue) (cls op : Nat) (legal : Bool) (check : Core → Option (Nat × Nat × W64))
    (ready : Core → Bool) (body : State → State) : State :=
  let s := s.at i.time
  let c := i.c
  let k := s.core c
  let halting := k.halting s.clock
  if (!k.issuing && !halting) || (s.pinned c && decide (k.budgetIssues = 0)) then s
  else if !k.inProgram then s.precise c 2 0 (BitVec.ofNat 64 k.run.pc)
  else if i.code = .uncorrectable then s.precise c 7 0 0
  else if definedWord k.word && decide (k.word ≠ i.word cls op) then s
  else
    let s := if i.code = .corrected then s.countCore c 0x12 1 else s
    if !legal || !definedWord k.word then s.precise c 1 0 0
    else
      match check k with
      | some (cause, detail, a) => (s.counted i).precise c cause detail a
      | none =>
        if halting then s
        else if ready k then body ((s.counted i).modRun c (fun x => { x with pc := x.pc + 1 }))
        else if k.mode = .running then s.beginWait c .issue
        else s

/-- No precise fault of its own. -/
def noFault (_ : Core) : Option (Nat × Nat × W64) := none
/-- Nothing to wait for. -/
def always (_ : Core) : Bool := true

/-- The faults of a near-store access in order, with DETAIL 0. -/
def faults (l : List (Option (Nat × W64))) : Option (Nat × Nat × W64) :=
  (l.findSome? id).map (fun (c, a) => (c, 0, a))

/-- No queued SFU operation writes one of these vector registers (R330). -/
def Core.sfuFree (k : Core) (rs : List Nat) : Bool :=
  k.run.sfu.queue.all (fun o => o.load || decide (o.op = 8) || !rs.contains o.rd.toNat)

end Sys2Proof.Machine
end

