-- ==== Sys2Proof/Machine/NearStore.lean ====
section
/-!
DEFINITION. Class 0x2 of R239: the loads and stores of the near store (R231, R233, R234, R241).
-/
namespace Sys2Proof.Machine

/-- A scalar load of `n` bytes: naturally aligned, from RS1 + IMM (R239). -/
def State.load (s : State) (i : Issue) (op : Nat) (n : Nat) (f : Nat → W64) : State :=
  s.issue i 2 op (i.uses true true false 0 immAll)
    (fun k => faults [loadFault (i.address k) n n, eccFault i.data]) always
    (fun s => (s.setReg i.c i.d (f ((s.core i.c).nearNat (i.address (s.core i.c)) n))).noteNear i.c i.data)

/-- A scalar store of `n` bytes of RS2: narrower than 64 bits, a read-modify-write of its word (R234). -/
def State.store (s : State) (i : Issue) (op : Nat) (n : Nat) : State :=
  s.issue i 2 op (i.uses false true true 0 immAll)
    (fun k => faults [storeFault (i.address k) n n, if n < 8 then eccFault i.data else none]) always
    (fun s =>
      let k := s.core i.c
      let s := s.nearStore i.c (i.address k) (leBytes n (i.b k).toNat)
      if n < 8 then s.noteNear i.c i.data else s)

/-- LD8U (R239). -/
def execLd8u (i : Issue) (s : State) : Result := .next (s.load i 0x00 1 (fun x => BitVec.ofNat 64 x))
/-- LD16U (R239). -/
def execLd16u (i : Issue) (s : State) : Result := .next (s.load i 0x01 2 (fun x => BitVec.ofNat 64 x))
/-- LD32U (R239). -/
def execLd32u (i : Issue) (s : State) : Result := .next (s.load i 0x02 4 (fun x => BitVec.ofNat 64 x))
/-- LD64 (R239). -/
def execLd64 (i : Issue) (s : State) : Result := .next (s.load i 0x03 8 (fun x => BitVec.ofNat 64 x))
/-- LD8S (R239). -/
def execLd8s (i : Issue) (s : State) : Result := .next (s.load i 0x04 1 (fun x => BitVec.ofInt 64 (signed 8 x)))
/-- LD16S (R239). -/
def execLd16s (i : Issue) (s : State) : Result := .next (s.load i 0x05 2 (fun x => BitVec.ofInt 64 (signed 16 x)))
/-- LD32S (R239). -/
def execLd32s (i : Issue) (s : State) : Result := .next (s.load i 0x06 4 (fun x => BitVec.ofInt 64 (signed 32 x)))
/-- ST8 (R239). -/
def execSt8 (i : Issue) (s : State) : Result := .next (s.store i 0x08 1)
/-- ST16 (R239). -/
def execSt16 (i : Issue) (s : State) : Result := .next (s.store i 0x09 2)
/-- ST32 (R239). -/
def execSt32 (i : Issue) (s : State) : Result := .next (s.store i 0x0A 4)
/-- ST64 (R239). -/
def execSt64 (i : Issue) (s : State) : Result := .next (s.store i 0x0B 8)

/-- LDV loads 128 bytes into vRD; the address is aligned to 128 (R241). -/
def execLdv (i : Issue) (s : State) : Result :=
  .next (s.issue i 2 0x10 (i.uses true true false 0 immAll)
    (fun k => faults [loadFault (i.address k) 128 128, eccFault i.data]) (fun k => k.sfuFree [i.d])
    (fun s => (s.setVreg i.c i.d (BitVec.ofNat 1024 ((s.core i.c).nearNat (i.address (s.core i.c)) 128))).noteNear i.c i.data))

/-- STV stores vRD's 128 bytes (R241). -/
def execStv (i : Issue) (s : State) : Result :=
  .next (s.issue i 2 0x11 (i.uses true true false 0 immAll)
    (fun k => faults [storeFault (i.address k) 128 128]) (fun k => k.sfuFree [i.d])
    (fun s => s.nearStore i.c (i.address (s.core i.c)) (leBytes 128 ((s.core i.c).vreg i.d).toNat)))

/-- LDVB loads a 32-bit word, aligned to 4 bytes, into every 32-bit lane of vRD (R241). -/
def execLdvb (i : Issue) (s : State) : Result :=
  .next (s.issue i 2 0x12 (i.uses true true false 0 immAll)
    (fun k => faults [loadFault (i.address k) 4 4, eccFault i.data]) (fun k => k.sfuFree [i.d])
    (fun s =>
      let w := (s.core i.c).nearNat (i.address (s.core i.c)) 4
      (s.setVreg i.c i.d (BitVec.ofNat 1024 (packElems 32 (List.replicate 32 w)))).noteNear i.c i.data))

end Sys2Proof.Machine
end

