-- ==== Sys2Proof/Machine/Flags.lean ====
section
/-!
DEFINITION. CORE_VFLAGS (R242, R259) and the results of vector elements with the flags they set (R321-R323).
-/
namespace Sys2Proof.Machine

/-- Sticky flags set in CORE_VFLAGS. -/
def State.raise (s : State) (c : Nat) (f : Flags) : State := s.modRun c (fun x => { x with vflags := x.vflags ||| f })

/-- Every flag that some element set. -/
def orFlags (l : List (Nat × Flags)) : Flags := l.foldl (fun f x => f ||| x.2) 0

/-- An integer result: it wraps, or with SAT 1 saturates and sets SAT (R322). -/
def intResult (f : Nat) (sat : Bool) (v : Int) : Nat × Flags :=
  let w := fmtBits f
  let hi : Int := 2 ^ (w - 1) - 1
  let lo : Int := -(2 ^ (w - 1) : Nat)
  if sat ∧ hi < v then (hi.toNat, flagSAT)
  else if sat ∧ v < lo then (2 ^ (w - 1), flagSAT)
  else ((v % (2 ^ w : Nat)).toNat, 0)

/-- The smaller (`least`) or larger of two elements: a NaN gives NaN, -0 lies below +0 (R323); integers are signed. -/
def pick (f : Nat) (least : Bool) (x y : Nat) : Nat :=
  match decodeNum f x, decodeNum f y with
  | .nan, _ => (fmtNan f).getD 0
  | _, .nan => (fmtNan f).getD 0
  | a, b => if (if least then b.lt a else a.lt b) then y else x

/-- VCMP's condition IMM[2:0] on two values; a NaN compares false, except under NE (R241). -/
def compares (cond : Nat) (a b : Num) : Bool :=
  match cond with
  | 0 => a.eq b
  | 1 => !a.eq b
  | 2 => a.below b
  | 3 => a.below b || a.eq b
  | 4 => b.below a
  | 5 => b.below a || a.eq b
  | _ => false

end Sys2Proof.Machine
end

