-- ==== Sys2Proof/Machine/Messages.lean ====
section
/-!
DEFINITION. Message channels (ch. 09): class 0x6 of R239 (R275-R280), items on their way (R270, R278, R279), mesh transfers
and their code violations (R43, R44, R281), the tags of bridge traffic (R203).
-/
namespace Sys2Proof.Machine

/-! ## Channels -/

/-- The port of a HUB-out hop; `none` for any port (R267). -/
def ChanRec.outPort (r : ChanRec) : Option Nat :=
  (r.hops.getLast?.map (fun h => bits h.toNat 4 0)).bind (fun p => if p = 0x1F then none else some p)

/-- The address of a member of Pn's span. -/
def State.member (s : State) (n i : Nat) : Nat := ((((s.image n).bind PartImage.span?).map SpanRec.members).getD []).getD i 0

/-- The bytes of an item in a DATA packet. -/
def itemPayload : Item → Bytes
  | .message e d => Config.itemBytes 0 e d
  | .token e => Config.itemBytes 1 e []
  | .credit e => Config.itemBytes 2 e []

/-- Items of a channel on their way. -/
def State.flights (s : State) (n ch : Nat) : List Flight := AMap.get [] (s.part n).flights ch
def State.setFlights (s : State) (n ch : Nat) (l : List Flight) : State :=
  s.modPart n (fun p => { p with flights := AMap.put [] p.flights ch l })

/-- A DATA packet to a member (R465, R486): one packet for each item. -/
def State.sendData (s : State) (n : Nat) (r : ChanRec) (memberIdx : Nat) (port : Option Nat) (x : Item) : State :=
  match (s.image n).bind PartImage.span? with
  | some sp => s.sendStream (s.member n memberIdx) 0 sp.spanId r.chan n (if r.kind = 0 then 1 else 2) port (itemPayload x)
  | none => s

/-- The tag of an item that enters its route: the partition that owns the sending group (R203). -/
def State.tagSent (s : State) (n : Nat) (r : ChanRec) (x : Item) : Nat :=
  (s.coreOwner (endCore (if isCredit x then r.dst else r.src))).getD n

/-- An item enters its route (R269, R270): a message or token toward DST, a credit toward SRC. -/
def State.sendItem (s : State) (n : Nat) (r : ChanRec) (x : Item) : State :=
  if isCredit x && r.enters then s.sendData n r (r.src.toNat % 256) none x
  else
    let s := s.setFlights n r.chan (s.flights n r.chan ++ [{ item := x, tag := s.tagSent n r x }])
    if r.leaves then s.sendData n r r.dstMember r.outPort x else s

/-! ## The operations (R275-R280) -/

/-- The endpoint an operation names. -/
def epOf (i : Issue) : Nat := bits i.imm.toNat 5 0

/-- The running graph binds the endpoint's channel (R264). -/
def State.epBound (s : State) (c e : Nat) : Bool :=
  let p := s.ep c e
  p.valid && (match (s.coreOwner c).bind s.image with
    | some i => (i.bound (s.core c).run.graph).contains p.chan
    | none => false)

/-- R280 at issue: 0, or the ST of the first condition that holds. `recv`: the operation is one of a receiving endpoint;
`poll`: of either. -/
def State.epCheck (s : State) (c e : Nat) (recv poll : Bool) (a len fin : Nat) : Nat :=
  let p := s.ep c e
  if !s.epBound c e then 1
  else if !poll && decide (p.recv ≠ recv) then 2
  else if 4096 < len then 3
  else if fin < a + len then 4
  else if a % 16 ≠ 0 then 5
  else if recv && decide (p.credits ≤ p.posts.length) then 6
  else 0

/-- The payload of a send against a pinned core's budget (R279). -/
def sendCost (len : Nat) : Nat := if len = 0 then 16 else len

/-- A send can go: it faults, or a credit is held and, on a pinned core, the budget holds the message whole (R275, R279). -/
def State.sendReady (s : State) (c e a len : Nat) : Bool :=
  decide (s.epCheck c e false false a len nsLoadEnd ≠ 0)
    || (decide (0 < (s.ep c e).level) && !(s.pinned c && decide ((s.core c).budgetSend < sendCost len)))

/-- A send: one credit is taken and the message, or for length 0 a token, enters the route (R275). -/
def State.send (s : State) (c e a len : Nat) : State :=
  match s.epCheck c e false false a len nsLoadEnd with
  | 0 =>
    let p := s.ep c e
    let n := (s.coreOwner c).getD 0
    let x : Item := if len = 0 then .token p.epoch else .message p.epoch (Memory.readN (s.core c).near a len)
    let s := (s.setEp c e { p with level := p.level - 1, count := p.count + 1 }).modCore c
      (fun k => { k with budgetSend := k.budgetSend - sendCost len })
    let s := s.countCore c (if len = 0 then 0xE else 0xC) 1
    match (s.image n).bind (fun i => i.channel p.chan) with
    | some r => s.sendItem n r x
    | none => s
  | st => s.channelFault c e st

/-- SEND (R275). -/
def execSend (i : Issue) (s : State) : Result :=
  let a (k : Core) : Nat := (i.a k).toNat
  let len (k : Core) : Nat := (i.b k).toNat
  .next (s.issue i 6 0x00 (i.uses false true true 0 0x3F) noFault
    (fun k => s.sendReady i.c (epOf i) (a k) (len k))
    (fun s => s.send i.c (epOf i) (a (s.core i.c)) (len (s.core i.c))))

/-- TOKEN (R275). -/
def execToken (i : Issue) (s : State) : Result :=
  .next (s.issue i 6 0x02 (i.uses false false false 0 0x3F) noFault (fun _ => s.sendReady i.c (epOf i) 0 0)
    (fun s => s.send i.c (epOf i) 0 0))

/-- RECV (R275): a buffer is posted and one credit returns. -/
def execRecv (i : Issue) (s : State) : Result :=
  .next (s.issue i 6 0x01 (i.uses false true true 0 0x3F) noFault always
    (fun s =>
      let c := i.c
      let e := epOf i
      let a := (i.a (s.core c)).toNat
      let cap := (i.b (s.core c)).toNat
      match s.epCheck c e true false a cap nsStoreEnd with
      | 0 =>
        let p := s.ep c e
        let n := (s.coreOwner c).getD 0
        let s := s.setEp c e { p with posts := p.posts ++ [(a, cap)] }
        match (s.image n).bind (fun i => i.channel p.chan) with
        | some r => s.sendItem n r (.credit p.epoch)
        | none => s
      | st => s.channelFault c e st))

/-- What POLL of a receiving endpoint writes for an arrival. -/
def pollWord (a len : Nat) : W64 := BitVec.ofNat 64 (2 ^ 63 + a % 2 ^ 19 * 2 ^ 32 + len % 2 ^ 13)

/-- POLL (R275). -/
def execPoll (i : Issue) (s : State) : Result :=
  .next (s.issue i 6 0x03 (i.uses true false false 0 0x3F) noFault always
    (fun s =>
      let c := i.c
      let e := epOf i
      let p := s.ep c e
      if !s.epBound c e then s.channelFault c e 1
      else if !p.recv then s.setReg c i.d (BitVec.ofNat 64 ((if p.level = 0 then 0 else 2 ^ 63) + p.level % 256))
      else
        match p.arrivals with
        | [] => s.setReg c i.d 0
        | (a, len) :: l =>
          ((s.setEp c e { p with arrivals := l, count := p.count + 1 }).countCore c 0xD 1).setReg c i.d (pollWord a len)))

/-! ## Arrivals -/

/-- The first item of a list that satisfies a test, and the list without it. -/
def takeFirst {α : Type} (f : α → Bool) : List α → Option (α × List α)
  | [] => none
  | x :: l => if f x then some (x, l) else (takeFirst f l).map (fun (y, r) => (y, x :: r))

/-- The first message or token that has not landed lands. -/
def landFirst : List Flight → List Flight
  | [] => []
  | f :: l => if !f.landed && !isCredit f.item then { f with landed := true } :: l else f :: landFirst l

/-- CREDIT_ARRIVE (R270): the oldest credit on its way reaches SRC. -/
def execCreditArrive (t : Instant) (p : PartId) (ch : Fin 4096) (s : State) : Result :=
  let s := s.at t
  let n := p.val
  match (s.image n).bind (fun i => i.channel ch.val), takeFirst (fun (f : Flight) => isCredit f.item) (s.flights n ch.val) with
  | some r, some (f, l) => .next ((s.setFlights n ch.val l).receiveItem (endCore r.src) (endEp r.src) f.item)
  | _, _ => .next s

/-- MESSAGE_ARRIVE (R278): the oldest message or token on its way to an endpoint of this device lands at DST. -/
def execMessageArrive (t : Instant) (p : PartId) (ch : Fin 4096) (s : State) : Result :=
  let s := s.at t
  let n := p.val
  let l := s.flights n ch.val
  match (s.image n).bind (fun i => i.channel ch.val), l.find? (fun f => !f.landed && !isCredit f.item) with
  | some r, some f =>
    if r.leaves then .next s
    else .next ((s.setFlights n ch.val (landFirst l)).receiveItem (endCore r.dst) (endEp r.dst) f.item)
  | _, _ => .next s

/-- SEND_COMPLETE (R279): the oldest send whose last transfer has been written completes. -/
def execSendComplete (t : Instant) (p : PartId) (ch : Fin 4096) (s : State) : Result :=
  let s := s.at t
  match takeFirst (fun (f : Flight) => f.landed) (s.flights p.val ch.val) with
  | some (_, l) => .next (s.setFlights p.val ch.val l)
  | none => .next s

/-- The sends of core c that have not completed (R246, R248). -/
def State.sending (s : State) (c : Nat) : Bool :=
  match s.coreOwner c with
  | none => false
  | some n =>
    match s.image n with
    | none => false
    | some i => i.chans.any (fun r => decide (endCore r.src = c) && !r.enters &&
        (s.flights n r.chan).any (fun f => !isCredit f.item))

/-! ## Links and bridges -/

/-- Wires that are high in a digit. -/
def wiresHigh (d : BitVec 4) : Nat := ((List.range 4).filter (fun i => d.getLsbD i)).length

/-- The core at the sending end of the mesh link on which a transfer that runs in direction `d` reaches core c, where the mesh
has one. -/
def meshFrom (c : Nat) : Dir → Option Nat
  | .east => if 0 < coreCol c then some (c - 1) else none
  | .west => if coreCol c < 15 then some (c + 1) else none
  | .north => if 0 < coreRow c then some (c - 16) else none
  | .south => if coreRow c < 15 then some (c + 16) else none

/-- The mesh link into core c carries transfers: both its cores are in service, and no severed boundary lies between them
(R200, R201). -/
def State.meshOpen (s : State) (c : Nat) (d : Dir) : Bool :=
  (meshFrom c d).any (fun b => s.coreUp b && s.coreUp c
    && (decide (coreGroup b = coreGroup c) || ((s.coreOwner c).isSome && decide (s.coreOwner b = s.coreOwner c))))

/-- MESH_TRANSFER (R43, R44, R201, R281): a digit with more than one wire high discards the transfer, counts, and faults the
core at the receiving end; at a severed boundary the wires stay at the spacer. -/
def execMeshTransfer (t : Instant) (c : CoreId) (d : Dir) (wires : List (BitVec 4)) (ep : EpId) (s : State) : Result :=
  let s := s.at t
  if !s.meshOpen c.val d || wires.all (fun x => decide (wiresHigh x ≤ 1)) then .next s
  else
    .next (((s.modCore c.val (fun k => { k with linkErr := k.linkErr.add 1 })).countTower (coreTower c.val) 0x16 1
      (s.coreOwner c.val)).channelFault c.val ep.val 8)

/-- Bridge traffic that the receiving die delivers to an endpoint (R203, R272): the oldest item of the endpoint's channel on
its way there, under the tag it was sent with; transfers of a channel never overtake one another. -/
def State.deliver (s : State) (n c e : Nat) (x : Item) : State :=
  let p := s.ep c e
  let l := s.flights n p.chan
  let due (f : Flight) : Bool := decide (f.item = x) && decide (f.tag = n) && decide (p.recv = !isCredit x)
  let s' := if isCredit x then
      (match takeFirst (fun f => isCredit f.item) l with
       | some (f, l') => if due f then some (s.setFlights n p.chan l') else none
       | none => none)
    else
      (match l.find? (fun f => !f.landed && !isCredit f.item) with
       | some f => if due f then some (s.setFlights n p.chan (landFirst l)) else none
       | none => none)
  match s' with
  | some s => s.receiveItem c e x
  | none => s

/-- BRIDGE_TRAFFIC_ARRIVE (R203): delivered to an endpoint in a group of the tag's partition, else discarded, counted and
recorded. -/
def execBridgeTrafficArrive (t : Instant) (b : Fin 16) (tag : PartId) (c : CoreId) (ep : EpId) (x : Item) (s : State) : Result :=
  let s := s.at t
  if s.coreOwner c.val = some tag.val then .next (s.deliver tag.val c.val ep.val x)
  else
    let s := { s with tagErr := sat32 (s.tagErr + 1), tagErrLast := BitVec.ofNat 32 (tag.val * 2 ^ 24 + 0x3FF) }
    .next ((s.countTower (coreTower c.val) 0x17 1 (some tag.val)).report
      { kind := 2, sev := 1, code := 1, loc := 0x3FF, detail := BitVec.ofNat 32 b.val })

end Sys2Proof.Machine
end

