-- ==== Sys2Proof/Machine/Regions.lean ====
section
/-!
DEFINITION. Operations on near-bank regions: placement and its inverse (R397-R399), the tag check (R206), reads and writes
with the stacks' correction (R408), and the far caches (R400-R402).
-/
namespace Sys2Proof.Machine

/-- A region's bytes: SIZE granules of 256 MiB (R138, R398). -/
def RegionRec.bytes (r : RegionRec) : Nat := r.size * 2 ^ 28

/-- w of R397: 9, 7, 6 for the spread modes, 0 for PIN. -/
def RegionRec.w (r : RegionRec) : Nat := if r.mode = 0 then 9 else if r.mode = 1 then 7 else if r.mode = 2 then 6 else 0

/-- Pseudo-channels a region covers. -/
def RegionRec.chans (r : RegionRec) : Nat := 2 ^ r.w

/-- H(l): the XOR of the successive w-bit slices of l (R397); `fuel` slices suffice for l below 2^(w × fuel). -/
def foldXor (w : Nat) : Nat → Nat → Nat
  | 0, _ => 0
  | fuel + 1, l => if l = 0 then 0 else (l % 2 ^ w) ^^^ foldXor w fuel (l / 2 ^ w)

/-- The stack and pseudo-channel of position q (the table under R397). -/
def RegionRec.at (r : RegionRec) (q : Nat) : Nat × Nat :=
  let t := r.target.toNat
  if r.mode = 0 then (q % 8, q / 8 % 64)
  else if r.mode = 1 then (2 * (t % 4) + q % 2, q / 2 % 64)
  else if r.mode = 2 then (t % 8, q % 64)
  else (t % 8, t / 256 % 64)

/-- The stack, the pseudo-channel and the local offset of a region offset (R397). -/
def RegionRec.place (r : RegionRec) (a : Nat) : Nat × Nat × Nat :=
  if r.mode = 3 then (r.at 0).1 |> fun k => (k, (r.at 0).2, a)
  else
    let g := a / 512
    let l := g / 2 ^ r.w
    let q := (g % 2 ^ r.w) ^^^ foldXor r.w 40 l
    ((r.at q).1, (r.at q).2, 512 * l + a % 512)

/-- The position of a stack and pseudo-channel: the table under R397 read backwards. -/
def RegionRec.position (r : RegionRec) (k p : Nat) : Nat :=
  if r.mode = 0 then 8 * p + k else if r.mode = 1 then 2 * p + k % 2 else if r.mode = 2 then p else 0

/-- The region offset of a local offset of a stack's pseudo-channel (R399). -/
def RegionRec.offset (r : RegionRec) (k p l0 : Nat) : Nat :=
  if r.mode = 3 then l0
  else
    let l := l0 / 512
    512 * (2 ^ r.w * l + (r.position k p ^^^ foldXor r.w 40 l)) + l0 % 512

/-- Pseudo-channel p of stack k holds cells of the region (R139). -/
def RegionRec.covers (r : RegionRec) (k p : Nat) : Bool :=
  let t := r.target.toNat
  if r.mode = 0 then true
  else if r.mode = 1 then decide (k / 2 = t % 4)
  else if r.mode = 2 then decide (k = t % 8)
  else decide (k = t % 8) && decide (p = t / 256 % 64)

/-- Rows (cells) of the region in each pseudo-channel it covers (R139). -/
def RegionRec.rows (r : RegionRec) : Nat :=
  if r.mode = 0 then r.size / 8 else if r.mode = 1 then r.size / 2 else if r.mode = 2 then r.size else 64 * r.size

/-- The region's local size in one pseudo-channel (R418). -/
def RegionRec.localSize (r : RegionRec) : Nat := r.bytes / r.chans

/-- The owner of NBk.p: the one partition whose regions have cells there (R412). -/
def State.nbuOwner (s : State) (k p : Nat) : Option Nat :=
  let owners := ((s.frame.map Frame.regions).getD []).filter (fun r => r.covers k p) |>.map RegionRec.part
  match owners with
  | [] => none
  | n :: l => if l.all (fun m => decide (m = n)) then some n else none

/-- The region names, the owner and the bounds let the request pass (R206). -/
def State.tagOk (s : State) (n r off len : Nat) : Bool :=
  match s.regionRec r with
  | some x => decide (x.part = n) && decide (off + len ≤ x.bytes)
  | none => false

/-- A request refused by the tag check (R206, R589): counted, and a SEPARATION record for the requester's view; `core` is
0x3FF for a source that is not a core. -/
def State.refuseTag (s : State) (n r core off : Nat) : State :=
  let s := { s with tagErr := sat32 (s.tagErr + 1),
                    tagErrLast := BitVec.ofNat 32 (n * 2 ^ 24 + r * 2 ^ 16 + core) }
  let s := if core < 0x3FF then s.countTower (coreTower core) 0x17 1 (some n) else s
  s.report { kind := 2, sev := 1, valid := true, part := n, code := 2, loc := BitVec.ofNat 32 core,
             detail := BitVec.ofNat 32 r, info := BitVec.ofNat 64 off }

/-- Bytes of a request by stack, for the counters of R581. -/
def RegionRec.split (r : RegionRec) : Nat → Nat → Nat → List (Nat × Nat)
  | 0, _, _ => []
  | fuel + 1, off, len =>
    if len = 0 then []
    else
      let k := min len (512 - off % 512)
      ((r.place off).1, k) :: r.split fuel (off + k) (len - k)

/-- Counts the bytes a request moves in each stack's tower: 0x10 + j read, 0x12 + j written (R581). -/
def State.countStack (s : State) (n r off len base : Nat) : State :=
  match s.regionRec r with
  | some x => s.each (x.split (len / 512 + 2) off len) (fun s (k, b) => s.countTower (k / 2) (base + k % 2) b (some n))
  | none => s

/-- Lines of the far caches that hold bytes of a run of a region (R401); each line dropped counts in its tower. -/
def State.farDrop (s : State) (r lo hi : Nat) : State :=
  s.each [0, 1, 2, 3] (fun s w =>
    let t := s.tower w
    let keep := t.far.filter (fun x => !(decide (x.region = r) && decide (lo ≤ x.line) && decide (x.line ≤ hi)))
    s.setTower w { t with far := keep, farInval := sat32 (t.farInval + (t.far.length - keep.length)) })

/-- Every line of a region in every far cache (R402, R213). -/
def State.farDropRegion (s : State) (r : Nat) : State := s.farDrop r 0 (2 ^ 40)

/-- The words a run covers whole: 32-byte words that a write frees from poison (R408). -/
def wholeWord (off len w : Nat) : Bool := decide (off ≤ 32 * w) && decide (32 * w + 32 ≤ off + len)

/-- Writes bytes of a region (R408, R401): invalidates far-cache lines first, clears the poison of whole words. -/
def State.regionStore (s : State) (n r off : Nat) (bs : Bytes) : State :=
  let s := if (s.regionRec r).any RegionRec.farCached ∧ bs ≠ [] then s.farDrop r (off / 512) ((off + bs.length - 1) / 512) else s
  (s.modRegion r (fun x =>
    { bytes := Memory.writeN x.bytes off bs, poison := x.poison.filter (fun w => !wholeWord off bs.length w) })).countStack
      n r off bs.length 0x12

/-- The words a run touches. -/
def wordsOf (off len : Nat) : List Nat :=
  if len = 0 then [] else (List.range ((off + len - 1) / 32 - off / 32 + 1)).map (fun i => off / 32 + i)

/-- What the stacks find on a word of a region: an upset of this read, or the poison it already holds. -/
def State.wordState (s : State) (r : Nat) (upsets : List (Nat × Ecc)) (w : Nat) : Ecc :=
  if (s.region r).poison.contains w then .uncorrectable
  else match upsets.find? (fun u => decide (u.1 = w)) with
    | some u => u.2
    | none => .clean

/-- Counts what the correction found on one word (R408): NBS_CE_CNT, NBS_UE_CNT, NBS_UE_LAST, and the poison. -/
def State.noteWord (s : State) (r w : Nat) (e : Ecc) : State :=
  match s.regionRec r with
  | none => s
  | some x =>
    let (k, p, l) := x.place (32 * w)
    match e with
    | .clean => s
    | .corrected => s.modStack k (fun t => { t with ceCnt := sat32 (t.ceCnt + 1) })
    | .uncorrectable =>
      let row := x.baseRow + l / 2 ^ 22
      let at0 := Config.nbLocation row (l % 2 ^ 22)
      (s.modStack k (fun t => { t with ueCnt := sat32 (t.ueCnt + 1),
                                       ueLast := BitVec.ofNat 32 (at0.1.toNat * 2 ^ 27 + p * 2 ^ 18 + at0.2.toNat) })).modRegion
        r (fun g => { g with poison := insertNat w g.poison })

/-- The words among `ws` that the stacks cannot correct. -/
def State.badWords (s : State) (r : Nat) (upsets : List (Nat × Ecc)) (ws : List Nat) : List Nat :=
  ws.filter (fun w => decide (s.wordState r upsets w = .uncorrectable))

/-- What the correction does with each of some words of a region (R408). -/
def State.noteWords (s : State) (r : Nat) (upsets : List (Nat × Ecc)) (ws : List Nat) : State :=
  s.each ws (fun t w => t.noteWord r w (s.wordState r upsets w))

/-- Reads bytes of a region (R408): the bytes and whether a word among them is poisoned; bytes of a poisoned word are
free values. -/
def State.regionLoad (s : State) (n r off len : Nat) (upsets : List (Nat × Ecc)) : Bytes × Bool × State :=
  let ws := wordsOf off len
  let bad := s.badWords r upsets ws
  let bs := (List.range len).map (fun i =>
    if bad.contains ((off + i) / 32) then Config.poison (s.free + i) else Memory.read (s.region r).bytes (off + i))
  let s' := s.noteWords r upsets ws
  let s' := if bad = [] then s' else { s' with free := s'.free + len }
  (bs, !bad.isEmpty, s'.countStack n r off len 0x10)

/-! ## Reads and writes of a core's stream engine: the far caches (R400-R402) -/

/-- The numbers of the 512-byte granules that a run touches. -/
def granules (off len : Nat) : List Nat :=
  if len = 0 then [] else (List.range ((off + len - 1) / 512 - off / 512 + 1)).map (fun i => off / 512 + i)

/-- Granule g of a region lies in a stack that tower w reads through its far cache (R400). -/
def RegionRec.farOf (x : RegionRec) (w g : Nat) : Bool := x.farCached && decide ((x.place (512 * g)).1 / 2 ≠ w)

/-- The line of a tower's far cache that holds granule g of a partition's region. -/
def Tower.farLine (t : Tower) (n r g : Nat) : Option FarLine :=
  t.far.find? (fun l => decide (l.part = n) && decide (l.region = r) && decide (l.line = g))

/-- A request that tower w's far cache serves (R427 counts a hit). -/
def State.farHit (s : State) (w n : Nat) : State :=
  (s.modTower w (fun t => { t with farHits := sat32 (t.farHits + 1) })).countTower w 6 1 (some n)

/-- A request that it does not (R427 counts a miss); the line that the read fills. -/
def State.farMiss (s : State) (w n : Nat) (line : Option FarLine) : State :=
  let t := s.tower w
  let kept := if t.far.length < 65536 ∨ line.isNone then t.far else t.far.eraseIdx (Config.farVictim s.free % 65536)
  (s.drawn.setTower w { t with farMisses := sat32 (t.farMisses + 1), far := kept ++ line.toList }).countTower w 7 1 (some n)

/-- The dies of the stacks that hold some granules of a region (R192). -/
def RegionRec.dies (x : RegionRec) (gs : List Nat) : List Nat := gs.map (fun g => 20 + (x.place (512 * g)).1)

/-- A read of runs of bytes of a region by core c's stream engine, each word met once (R400, R408): a granule of another
tower's stack comes from the tower's far cache, or whole from its stack, and then fills a line unless a word of it is poisoned
(a fill reads its line whole: DEDUCED, notes/assumptions/87.md). The bytes in turn, and whether one is poisoned. -/
def State.coreLoads (s : State) (n r c : Nat) (x : RegionRec) (runs : List (Nat × Nat)) (ups : List (Nat × Ecc)) :
    Bytes × Bool × State :=
  let w := coreTower c
  let t := s.tower w
  let far (g : Nat) : Bool := t.farEnable && x.farOf w g
  let held (g : Nat) : Option FarLine := if far g then t.farLine n r g else none
  let gs := (runs.flatMap (fun q => granules q.1 q.2)).dedup
  let missed := gs.filter (fun g => far g && (held g).isNone)
  let near := ((runs.flatMap (fun q => wordsOf q.1 q.2)).filter (fun v => !far (v / 16))).dedup
  let ws := near ++ missed.flatMap (fun g => wordsOf (512 * g) 512)
  let bad := s.badWords r ups ws
  let addrs := runs.flatMap (fun q => (List.range q.2).map (fun i => q.1 + i))
  let poisoned := addrs.any (fun a => bad.contains (a / 32))
  let mem := (s.region r).bytes
  let bs := addrs.zipIdx.map (fun (a, i) =>
    match held (a / 512) with
    | some l => l.data.getD (a % 512) 0
    | none => if bad.contains (a / 32) then Config.poison (s.free + i) else Memory.read mem a)
  let fill (g : Nat) : Option FarLine :=
    if (wordsOf (512 * g) 512).any bad.contains then none
    else some { part := n, region := r, line := g, data := Memory.readN mem (512 * g) 512 }
  let s := s.noteWords r ups ws
  let s := if poisoned then { s with free := s.free + addrs.length } else s
  let s := s.each (runs.flatMap (fun q => (granules q.1 q.2).map (fun g => (g, max q.1 (512 * g), min (q.1 + q.2) (512 * g + 512)))))
    (fun s p => if far p.1 then s else s.countStack n r p.2.1 (p.2.2 - p.2.1) 0x10)
  let s := s.each missed (fun s g => (s.countStack n r (512 * g) 512 0x10).farMiss w n (fill g))
  let s := s.each (gs.filter (fun g => (held g).isSome)) (fun s _ => s.farHit w n)
  (bs, poisoned, s.noteUse c (x.dies (gs.filter (fun g => (held g).isNone))))

end Sys2Proof.Machine
end

