-- ==== Sys2Proof/Machine/NearBank.lean ====
section
/-!
DEFINITION. Near-bank requests (R204-R206), the BAR2 apertures (R217), refresh and scrub of the stacks (R407, R410), the far
caches' configuration (R402).
-/
namespace Sys2Proof.Machine

/-! ## Requests -/

/-- A read of a region that is refused (R206): its bytes are free values. -/
def State.refusedRead (s : State) (n r core off len : Nat) : Bytes × State :=
  ((List.range len).map (fun i => Config.poison (s.free + i)), ({ s with free := s.free + len }).refuseTag n r core off)

/-- A read of a region for a source that is not a core: bytes, whether poisoned, whether refused, and the state (R206, R408). -/
def State.regionRead (s : State) (n r off len : Nat) (ups : List (Nat × Ecc)) : Bytes × Bool × Bool × State :=
  if s.tagOk n r off len then
    let (bs, bad, s) := s.regionLoad n r off len ups
    (bs, bad, false, s)
  else
    let (bs, s) := s.refusedRead n r 0x3FF off len
    (bs, true, true, s)

/-- Reads of runs of bytes of a region by core c's stream engine, up to the first that is refused (R206): bytes, whether
poisoned, whether refused, and the state. -/
def State.coreReads (s : State) (n r c : Nat) (runs : List (Nat × Nat)) (ups : List (Nat × Ecc)) : Bytes × Bool × Bool × State :=
  let ok := runs.takeWhile (fun q => s.tagOk n r q.1 q.2)
  let (bs, bad, s') := match s.regionRec r with
    | some x => s.coreLoads n r c x ok ups
    | none => ([], false, s)
  let s' := s'.countCore c 0xA (ok.map Prod.snd).sum
  match runs.drop ok.length with
  | [] => (bs, bad, false, s')
  | q :: _ =>
    if bad then (bs, true, false, s')
    else
      let (more, s') := s'.refusedRead n r c q.1 q.2
      (bs ++ more, true, true, s')

/-- A write of a region for a partition; a refused write is dropped (R206). -/
def State.regionWrite (s : State) (n r off core : Nat) (bs : Bytes) : State :=
  if s.tagOk n r off bs.length then s.regionStore n r off bs else s.refuseTag n r core off

/-- A write of a region by core c's stream engine. -/
def State.coreWrites (s : State) (n r off c : Nat) (bs : Bytes) : State :=
  let s := if s.tagOk n r off bs.length then
      match s.regionRec r with
      | some x => s.noteUse c (x.dies (granules off bs.length))
      | none => s
    else s
  (s.regionWrite n r off c bs).countCore c 0xB bs.length

/-! ## Apertures (R217) -/

/-- The region and the offset that a BAR2 access of VF(n+1) reaches, while the VF is enabled (R70); none where the access is
refused: always from the start of a Molt until the partition is ACTIVE again. -/
def State.aperture (s : State) (n off len : Nat) : Option (Nat × Nat) :=
  let p := s.part n
  let r := bits p.aper.toNat 5 0
  let a := bits p.aper.toNat 23 8 * 2 ^ 32 + off
  if s.reaches (.vf (Fin.ofNat 32 n)) && p.aper.getLsbD 31 && decide (p.st = .active ∨ p.st = .held) && !p.molting && !p.barred && decide (off + len ≤ 2 ^ 32) && s.tagOk n r a len then some (r, a)
  else none

/-- APERTURE_READ (R217, R409). -/
def execApertureRead (t : Instant) (n : PartId) (offset count : Nat) (upsets : List (Nat × Ecc)) (s : State) : Result :=
  let s := s.at t
  match s.aperture n.val offset count with
  | none => .next { s with out := { s.out with read := [], readStatus := .unsupported } }
  | some (r, a) =>
    let (bs, bad, s) := (s.pcieOut n.val count).regionLoad n.val r a count upsets
    .next { s.reads bs with out := { (s.reads bs).out with readStatus := if bad then .poisoned else .ok } }

/-- APERTURE_WRITE (R217). -/
def execApertureWrite (t : Instant) (n : PartId) (offset : Nat) (data : Bytes) (s : State) : Result :=
  let s := s.at t
  match s.aperture n.val offset data.length with
  | none => .next (if !s.reaches (.vf n) then s else s.modPart n.val (fun p => { p with aperErr := sat32 (p.aperErr + 1) }))
  | some (r, a) => .next ((s.pcieIn n.val data.length).regionStore n.val r a data)

/-! ## Refresh, scrub, far caches -/

/-- The stacks are powered. -/
def State.stacksOn (s : State) (k : Nat) : Bool := s.rails.good.getLsbD 5 && s.rails.good.getLsbD 6 && s.stackUp k

/-- A stack's count of the commands a pseudo-channel owes. -/
def State.setStackOwed (s : State) (k : Nat) (pc n : Nat) : State :=
  s.modStack k (fun x => { x with owed := AMap.put 0 x.owed pc n })

/-- Refresh commands run on a pseudo-channel: what it owes is paid, and the stack's shorter interval takes effect (R360, R406,
R407). -/
def State.refreshChan (s : State) (k : StackId) (pc : Nat) : State := (s.setStackOwed k.val pc 0).raiseBand (.stack k)

/-- NB_REFRESH_DUE (R407): what is owed has run where there was a moment without a waiting request; then the command that falls
due is issued, owed, or forced with four others back to back. -/
def execNbRefreshDue (t : Instant) (k : StackId) (pc : ChanId) (fg : Foreground) (s : State) : Result :=
  let s := s.at t
  if !s.stacksOn k.val then .next s
  else
    let s := if fg = .again ∧ AMap.get 0 (s.stack k.val).owed pc.val ≠ 0 then s.refreshChan k pc.val else s
    let owed := AMap.get 0 (s.stack k.val).owed pc.val
    if fg = .idle then .next (s.refreshChan k pc.val)
    else if owed < 4 then .next (s.setStackOwed k.val pc.val (owed + 1))
    else .next ((s.modStack k.val (fun x => { x with forced := sat32 (x.forced + 1) })).refreshChan k pc.val)

/-- The region that has a cell in a row of a pseudo-channel, and the local offset of the row's first byte (R398). -/
def State.cellAt (s : State) (k p row : Nat) : Option (RegionRec × Nat) :=
  (((s.frame.map Frame.regions).getD []).find? (fun r =>
      r.covers k p && decide (r.baseRow ≤ row) && decide (row < r.baseRow + r.rows))).map
    (fun r => (r, (row - r.baseRow) * 2 ^ 22))

/-- NB_SCRUB_TRANSFER (R410): a word of a row's 4 MiB is read and written back; none runs while a request waits or
SCRUB_HOURS is 0, and a pseudo-channel that owes refresh runs what it owes instead (R12, R407). -/
def execNbScrubTransfer (t : Instant) (k : StackId) (pc : ChanId) (row word : Nat) (e : Ecc) (waiting : Bool) (s : State) : Result :=
  let s := s.at t
  if !s.stacksOn k.val || waiting || decide (bits (s.stack k.val).cfg.toNat 7 0 = 0) then .next s
  else if AMap.get 0 (s.stack k.val).owed pc.val ≠ 0 then .next (s.refreshChan k pc.val)
  else
    let loc := Config.nbLocation row (32 * word)
    let last := BitVec.ofNat 32 (loc.1.toNat * 2 ^ 27 + pc.val * 2 ^ 18 + loc.2.toNat)
    let known := match s.cellAt k.val pc.val row with
      | some (r, l) => (s.region r.index).poison.contains (r.offset k.val pc.val (l + 32 * word) / 32)
      | none => false
    match e with
    | .clean => .next s
    | .corrected => .next (if known then s else s.modStack k.val (fun x => { x with ceCnt := sat32 (x.ceCnt + 1) }))
    | .uncorrectable =>
      let s := s.modStack k.val (fun x => { x with ueCnt := sat32 (x.ueCnt + 1), ueLast := last })
      let s := match s.cellAt k.val pc.val row with
        | some (r, l) =>
          s.modRegion r.index (fun g => { g with poison := insertNat (r.offset k.val pc.val (l + 32 * word) / 32) g.poison })
        | none => s
      .next (s.report { kind := 6, sev := 1, loc := BitVec.ofNat 32 k.val, detail := last })

/-- FAR_CACHE_CFG_WRITE (R402): ENABLE 0 drops every line. -/
def execFarCacheCfgWrite (t : Instant) (w : TowerId) (v : W32) (s : State) : Result :=
  .next ((s.at t).modTower w.val (fun x =>
    if v.getLsbD 0 then { x with farEnable := true }
    else { x with farEnable := false, far := [], farInval := sat32 (x.farInval + x.far.length) }))

end Sys2Proof.Machine
end

