-- ==== Sys2Proof/Machine/Nbus.lean ====
section
/-!
DEFINITION. Near-bank units (R412-R424): their window, their commands and their results.
-/
namespace Sys2Proof.Machine

/-- NBk.p's number. -/
def nbuIndex (k p : Nat) : Nat := 64 * k + p

/-! ## The window (R414, R417, R422) -/

/-- The tag check of the NBU window (R414). -/
def State.nbuTagOk (s : State) (n r k p : Nat) : Bool :=
  match s.regionRec r with
  | some x => decide (x.part = n) && x.covers k p && decide (s.nbuOwner k p = some n)
  | none => false

/-- A command from core c enters the queue whole (R417); `none` while the queue is full. A refused one is dropped (R414). -/
def State.nbuPush (s : State) (k p r c : Nat) (cmd : Bytes) : Option State :=
  match s.coreOwner c with
  | none => some s
  | some n =>
    if !s.nbuTagOk n r k p then some (s.refuseTag n r c (k * 2 ^ 18 + p * 2 ^ 12))
    else
      let u := s.nbu (nbuIndex k p)
      if 16 ≤ u.queue.length then none
      else
        some ((s.setNbu (nbuIndex k p) { u with queue := u.queue ++ [(r, c, cmd)] }).countTower (k / 2) (0x14 + k % 2) 1 (some n))

/-- A read of the result port by core c (R422): the oldest entries, zeros where none is present; refused, the third
component is true and the bytes are free values. -/
def State.nbuResults (s : State) (k p r c entries : Nat) : Bytes × Bool × State :=
  match s.coreOwner c with
  | none => ([], true, s)
  | some n =>
    if !s.nbuTagOk n r k p then
      ((List.range (8 * entries)).map (fun i => Config.poison (s.free + i)), true,
        ({ s with free := s.free + 8 * entries }).refuseTag n r c (k * 2 ^ 18 + p * 2 ^ 12 + 2 ^ 11))
    else
      let u := s.nbu (nbuIndex k p)
      let got := (u.fifo.take entries).flatMap (fun e => leBytes 8 e.toNat)
      (got ++ List.replicate (8 * entries - got.length) 0, false, s.setNbu (nbuIndex k p) { u with fifo := u.fifo.drop entries })

/-- NBU_COMMAND_ENQUEUE (R417). -/
def execNbuCommandEnqueue (t : Instant) (k : StackId) (pc : ChanId) (region : RegionId) (c : CoreId) (cmd : Bytes) (s : State) :
    Result :=
  let s := s.at t
  .next ((s.nbuPush k.val pc.val region.val c.val ((cmd ++ List.replicate 32 0).take 32)).getD s)

/-- NBU_RESULT_READ (R422). -/
def execNbuResultRead (t : Instant) (k : StackId) (pc : ChanId) (region : RegionId) (c : CoreId) (entries : Nat) (s : State) :
    Result :=
  let (bs, bad, s) := (s.at t).nbuResults k.val pc.val region.val c.val entries
  .next { s.reads bs with out := { (s.reads bs).out with readStatus := if bad then .poisoned else .ok } }

/-! ## Entries (R422, R423) -/

/-- An entry of the result FIFO. -/
def nbuEntry (kind info : Nat) (value : W32) : W64 := BitVec.ofNat 64 (2 ^ 63 + kind * 2 ^ 48 + info * 2 ^ 32 + value.toNat)

/-- An ERROR entry. -/
def Nbu.error (u : Nbu) (op status : Nat) : Nbu :=
  { u with fifo := u.fifo ++ [nbuEntry 3 (op * 256 + status) 0], errOp := BitVec.ofNat 8 op, errStatus := BitVec.ofNat 8 status }

/-! ## Commands (R418-R420) -/

def cmdOp (b : Bytes) : Nat := field b 0 1
def cmdFlags (b : Bytes) : Nat := field b 1 1
def cmdFmt (b : Bytes) : Nat := field b 2 1
def cmdSel (b : Bytes) : Nat := bits (field b 3 1) 3 0
def cmdAcc (b : Bytes) : Nat := bits (field b 3 1) 5 4
def cmdCount (b : Bytes) : Nat := field b 4 4
def cmdAddr (b : Bytes) : Nat := field b 8 4
def cmdStride (b : Bytes) : Nat := field b 12 4
def cmdPayload (b : Bytes) : Bytes := (b.drop 16).take 16
def cmdTag (b : Bytes) : Nat := field b 16 2
def cmdScale (b : Bytes) : Nat := field b 16 4

/-- The operations of R418. -/
def nbuOps : List Nat := [0, 1, 2, 3, 4, 5, 6, 7, 0xF]

/-- A Refused field (R420): an OP, FMT, register, NREG or TAG out of range. -/
def badCommand (b : Bytes) : Bool :=
  let op := cmdOp b
  !nbuOps.contains op
    || ((decide (op = 4) || decide (op = 5)) && !(([1, 2, 9] : List Nat).contains (cmdFmt b)))
    || ((decide (op = 1) || decide (op = 2) || decide (op = 4)) && decide (8 ≤ cmdSel b))
    || (decide (op = 5) && (decide (cmdSel b = 0) || decide (8 < cmdSel b)))
    || (decide (op = 7) && decide (0x7FFF < cmdTag b))

/-- The local offsets a command reads, 32 bytes each, step by step: MAC one per step, SCORE NREG per step. -/
def cmdReads (b : Bytes) : List (List Nat) :=
  if cmdOp b = 1 then [[cmdAddr b]]
  else if cmdOp b = 4 then (List.range (cmdCount b)).map (fun i => [cmdAddr b + i * cmdStride b])
  else if cmdOp b = 5 then
    (List.range (cmdCount b)).map (fun j => (List.range (cmdSel b)).map (fun m => cmdAddr b + j * cmdStride b + 32 * m))
  else []

/-- The sixteen lanes of 256 bits. -/
def lanes16 (x : BitVec 256) : List Nat := elems x.toNat 16 16

/-- One dot product added to a running value of 32 bits (R419): the encoding, and whether an INT16 sum saturated. -/
def dot (fmt : Nat) (run : Nat) (x y : BitVec 256) : Nat × Bool :=
  if fmt = 9 then
    let v : Int := (List.zipWith (fun a b => signed 16 a * signed 16 b) (lanes16 x) (lanes16 y)).foldl (· + ·) (signed 32 run)
    let (r, f) := intResult9 v
    (r, f)
  else
    let z := (List.zipWith (fun a b => ((decodeNum fmt a).mul (decodeNum fmt b)).1) (lanes16 x) (lanes16 y)).foldl
      (fun acc p => (acc.add p 0).1) (decodeNum 0 run)
    ((z.into 0 0 false).1, false)
where
  /-- An INT32 sum saturated at its bounds. -/
  intResult9 (v : Int) : Nat × Bool :=
    if 2 ^ 31 - 1 < v then (2 ^ 31 - 1, true)
    else if v < -(2 ^ 31 : Nat) then (2 ^ 31, true)
    else ((v % (2 ^ 32 : Nat)).toNat, false)

/-- The larger of two binary32 values (R323). -/
def max32 (x y : Nat) : Nat :=
  match decodeNum 0 x, decodeNum 0 y with
  | .nan, _ => 0x7FC00000
  | _, .nan => 0x7FC00000
  | a, b => if a.lt b then y else x

/-- One score (R418, R419): the running sum over m, converted for INT16, times SCALE. -/
def nbuScore (u : Nbu) (fmt scale : Nat) (ys : List (BitVec 256)) : Nat × Bool :=
  let (sum, sat) := (ys.zipIdx).foldl (fun (acc : Nat × Bool) (y, m) =>
    let (v, t) := dot fmt acc.1 (AMap.get 0 u.x m) y
    (v, acc.2 || t)) (0, false)
  let f := if fmt = 9 then (convert 8 0 0 false sum).1 else sum
  ((mulInto 0 0 false (decodeNum 0 f) (decodeNum 0 scale)).1, sat)

/-- Some steps of SCORE: each appends its entry, and whether a sum saturated. -/
def Nbu.score (u : Nbu) (b : Bytes) (ys : List (List (BitVec 256))) : Nbu × Bool :=
  ys.foldl (fun (r : Nbu × Bool) y =>
    let (v, t) := nbuScore r.1 (cmdFmt b) (cmdScale b) y
    let w := { r.1 with fifo := r.1.fifo ++ [nbuEntry 0 0 (BitVec.ofNat 32 v)] }
    (if bit (cmdFlags b) 0 then { w with a := AMap.put 0 w.a (cmdAcc b) (BitVec.ofNat 32 (max32 (AMap.get 0 w.a (cmdAcc b)).toNat v)) }
     else w, r.2 || t)) (u, false)

/-- The effect of a command that appends at most one entry and whose bank reads gave `ys` (a list for each step). -/
def Nbu.once (u : Nbu) (b : Bytes) (ys : List (List (BitVec 256))) : Nbu :=
  let maxacc := bit (cmdFlags b) 0
  let acc := cmdAcc b
  match cmdOp b with
  | 1 => { u with x := AMap.put 0 u.x (cmdSel b) ((ys.headD []).headD 0) }
  | 2 =>
    let old := (AMap.get 0 u.x (cmdSel b)).toNat
    let p := leNat (cmdPayload b)
    let v := if bit (cmdFlags b) 1 then old % 2 ^ 128 + p * 2 ^ 128 else old / 2 ^ 128 * 2 ^ 128 + p
    { u with x := AMap.put 0 u.x (cmdSel b) (BitVec.ofNat 256 v) }
  | 3 =>
    let v : W32 := if maxacc then 0xFF800000 else 0
    { u with a := [0, 1, 2, 3].foldl (fun a i => if bit (cmdSel b) i then AMap.put 0 a i v else a) u.a }
  | 4 =>
    let (v, sat) := ys.foldl (fun (r : Nat × Bool) y =>
      let (v, t) := dot (cmdFmt b) r.1 (AMap.get 0 u.x (cmdSel b)) (y.headD 0)
      (v, r.2 || t)) ((AMap.get 0 u.a acc).toNat, false)
    let u := { u with a := AMap.put 0 u.a acc (BitVec.ofNat 32 v) }
    if sat then u.error 4 5 else u
  | 7 => { u with fifo := u.fifo ++ [nbuEntry 2 (cmdTag b) 0] }
  | 15 => { u with x := [], a := [], fifo := [] }
  | _ => u

/-- The bank reads of a command, in order: what they give, whether one is poisoned, and the state (R408, R409). -/
def State.bankReads (s : State) (n k p : Nat) (r : RegionRec) (ups : List (Nat × Ecc)) :
    List Nat → List (BitVec 256) × Bool × State
  | [] => ([], false, s)
  | l :: ls =>
    let (bs, bad, s) := s.regionLoad n r.index (r.offset k p l) 32 ups
    let (ys, bad', s) := State.bankReads s n k p r ups ls
    (BitVec.ofNat 256 (leNat bs) :: ys, bad || bad', s)

/-- All steps of a command. -/
def State.bankSteps (s : State) (n k p : Nat) (r : RegionRec) (ups : List (Nat × Ecc)) :
    List (List Nat) → List (List (BitVec 256)) × Bool × State
  | [] => ([], false, s)
  | l :: ls =>
    let (y, bad, s) := s.bankReads n k p r ups l
    let (ys, bad', s) := State.bankSteps s n k p r ups ls
    (y :: ys, bad || bad', s)

/-- Entries of the result FIFO that are free (R422). -/
def Nbu.room (u : Nbu) : Nat := 1024 - u.fifo.length

/-- The command at the front of the queue has ended. -/
def Nbu.ended (u : Nbu) : Nbu := { u with queue := u.queue.drop 1, run := none }

/-- The command fails (R423): the results it formed that nobody has read are discarded, and its ERROR entry stands in their
place. -/
def Nbu.failed (u : Nbu) (b : Bytes) (status : Nat) : Nbu :=
  let kept := match u.run with
    | some x => { u with fifo := u.fifo.take (u.fifo.length - x.done), a := AMap.put 0 u.a (cmdAcc b) x.acc }
    | none => u
  (kept.error (cmdOp b) status).ended

/-- Why a command fails before it reads (R418, R420, R423): BAD_CMD, ALIGN or RANGE. -/
def RegionRec.refuses (x : RegionRec) (b : Bytes) : Option Nat :=
  if badCommand b then some 1
  else if cmdAddr b % 32 ≠ 0 ∨ cmdStride b % 32 ≠ 0 then some 3
  else if (cmdReads b).any (fun l => l.any (fun a => decide (x.localSize ≤ a))) then some 2
  else none

/-- SCORE goes on as far as the FIFO has room; its ERROR entry for SAT follows its results (R422, R423). -/
def Nbu.scoreOn (u : Nbu) (b : Bytes) (left : Nat) (ys : List (List (BitVec 256))) : Nbu :=
  let at0 := u.run.getD { acc := AMap.get 0 u.a (cmdAcc b) }
  let (v, sat) := u.score b ys
  let sat := at0.sat || sat
  if left = 0 ∧ !sat then v.ended
  else if left = 0 ∧ v.fifo.length < 1024 then (v.error 5 5).ended
  else { v with run := some { at0 with done := at0.done + ys.length, sat := sat } }

/-- EMIT goes on as far as the FIFO has room. -/
def Nbu.emitOn (u : Nbu) : Nbu :=
  let at0 := u.run.getD {}
  let n := min (4 - at0.done) u.room
  let v := { u with fifo := u.fifo ++ (List.range n).map (fun i => nbuEntry 1 0 (AMap.get 0 u.a (at0.done + i))) }
  if at0.done + n = 4 then v.ended else { v with run := some { at0 with done := at0.done + n } }

/-- NBk.p takes the command at the front of its queue, or goes on with it, if it names `op` or names no operation (R418, R423).
While the result FIFO is full the NBU pauses (R422). -/
def State.nbuStep (s : State) (k p op : Nat) (ups : List (Nat × Ecc)) : State :=
  let i := nbuIndex k p
  let u := s.nbu i
  match u.queue with
  | [] => s
  | (r, _, b) :: _ =>
    if u.room = 0 ∨ (nbuOps.contains (cmdOp b) ∧ cmdOp b ≠ op) then s
    else
      match s.regionRec r with
      | none => s.setNbu i (u.failed b 1)
      | some x =>
        match x.refuses b with
        | some e => s.setNbu i (u.failed b e)
        | none =>
          let todo := (cmdReads b).drop (u.run.getD {}).done
          let now := if cmdOp b = 5 then todo.take u.room else todo
          let (ys, bad, s) := s.bankSteps x.part k p x ups now
          if bad then s.setNbu i (u.failed b 4)
          else if cmdOp b = 5 then s.setNbu i (u.scoreOn b (todo.length - now.length) ys)
          else if cmdOp b = 6 then s.setNbu i u.emitOn
          else s.setNbu i (u.once b ys).ended

/-- NBU_NOP (R418). -/
def execNbuNop (t : Instant) (k : StackId) (pc : ChanId) (s : State) : Result := .next ((s.at t).nbuStep k.val pc.val 0 [])
/-- NBU_LOAD (R418). -/
def execNbuLoad (t : Instant) (k : StackId) (pc : ChanId) (upsets : List (Nat × Ecc)) (s : State) : Result :=
  .next ((s.at t).nbuStep k.val pc.val 1 upsets)
/-- NBU_SET (R418). -/
def execNbuSet (t : Instant) (k : StackId) (pc : ChanId) (s : State) : Result := .next ((s.at t).nbuStep k.val pc.val 2 [])
/-- NBU_CLRACC (R418). -/
def execNbuClracc (t : Instant) (k : StackId) (pc : ChanId) (s : State) : Result := .next ((s.at t).nbuStep k.val pc.val 3 [])
/-- NBU_MAC (R419). -/
def execNbuMac (t : Instant) (k : StackId) (pc : ChanId) (upsets : List (Nat × Ecc)) (s : State) : Result :=
  .next ((s.at t).nbuStep k.val pc.val 4 upsets)
/-- NBU_SCORE (R418). -/
def execNbuScore (t : Instant) (k : StackId) (pc : ChanId) (upsets : List (Nat × Ecc)) (s : State) : Result :=
  .next ((s.at t).nbuStep k.val pc.val 5 upsets)
/-- NBU_EMIT (R418). -/
def execNbuEmit (t : Instant) (k : StackId) (pc : ChanId) (s : State) : Result := .next ((s.at t).nbuStep k.val pc.val 6 [])
/-- NBU_FENCE (R418): every earlier command has ended when it is taken. -/
def execNbuFence (t : Instant) (k : StackId) (pc : ChanId) (s : State) : Result := .next ((s.at t).nbuStep k.val pc.val 7 [])
/-- NBU_CLEAR (R418). -/
def execNbuClear (t : Instant) (k : StackId) (pc : ChanId) (s : State) : Result := .next ((s.at t).nbuStep k.val pc.val 0xF [])

end Sys2Proof.Machine
end

