-- ==== Sys2Proof/Machine/Slices.lean ====
section
/-!
DEFINITION. Slice memory (ch. 12): the address map (R351), transfers with their checks (R352-R358), refresh (R361), scrub
(R363-R365).
-/
namespace Sys2Proof.Machine

/-! ## The address map (R351) -/

/-- Bytes of a slice. -/
def sliceBytes : Nat := 2 ^ 27
def sliceLayer (a : Nat) : Nat := bits a 11 10
def sliceBank (a : Nat) : Nat := bits a 15 12
def sliceRow (a : Nat) : Nat := bits a 26 16
def sliceTransfer (a : Nat) : Nat := bits a 9 7

/-- SLC_CE_LAST and SLC_UE_LAST (R369). -/
def sliceLast (c a low : Nat) : W32 :=
  BitVec.ofNat 32 (coreRow c * 2 ^ 28 + coreCol c * 2 ^ 24 + sliceLayer a * 2 ^ 22 + sliceBank a * 2 ^ 18
    + sliceRow a * 2 ^ 7 + sliceTransfer a * 2 ^ 4 + low)

/-! ## Physical sites (R105, R106) -/

/-- The sites of a tower's physical row that are not good, a mask of columns. -/
def State.badSites (s : State) (w row : Nat) : BitVec 17 := AMap.get 0 s.bup.bad (16 * w + row)

/-- The physical column of logical column `col` (R106). -/
def State.physCol (s : State) (w row col : Nat) : Nat :=
  ((List.range 17).filter (fun p => !(s.badSites w row).getLsbD p)).getD col 0

/-! ## Errors -/

/-- One more correctable error of a row in the tower's watch (R358): the watch, and whether the row's count has reached
WATCH now. -/
def watchRow (limit pick : Nat) (w : List Watch) (c a : Nat) : List Watch × Bool :=
  let same (x : Watch) : Bool := decide (x.core = c) && decide (x.layer = sliceLayer a) && decide (x.bank = sliceBank a)
    && decide (x.row = sliceRow a)
  match w.find? same with
  | some e => (w.map (fun x => if same x then { x with count := x.count + 1 } else x), decide (e.count + 1 = limit))
  | none =>
    let fresh : Watch := { core := c, layer := sliceLayer a, bank := sliceBank a, row := sliceRow a, count := 1 }
    let kept :=
      if w.length < 16 then w
      else
        let least := (w.map Watch.count).foldl min (w.headD fresh).count
        let low := (w.zipIdx.filter (fun x => decide (x.1.count = least))).map Prod.snd
        w.eraseIdx (low.getD (pick % low.length) 0)
    (kept ++ [fresh], decide (1 = limit))

/-- A correctable error on a word of a slice (R355, R358, R580, R581). -/
def State.noteSliceCe (s : State) (c a : Nat) : State :=
  let w := coreTower c
  let t := s.tower w
  let limit := bits t.slcCfg.toNat 11 8
  let (watch, full) := watchRow limit (Config.watchVictim s.free) t.watch c a
  let s := s.drawn.setTower w { t with ceCnt := sat32 (t.ceCnt + 1), ceLast := sliceLast c a 0, watch := watch }
  let s := (s.countTower w 4 1 (s.coreOwner c)).countCore c 0x13 1
  if full then
    let hi := 2 * 2 ^ 28 + w * 2 ^ 24 + coreRow c * 2 ^ 20 + s.physCol w (coreRow c) (coreCol c) * 2 ^ 15
    let lo := sliceLayer a * 2 ^ 30 + sliceBank a * 2 ^ 26 + sliceRow a
    s.report { kind := 4, sev := 0, loc := BitVec.ofNat 32 c, info := BitVec.ofNat 64 (hi * 2 ^ 32 + lo) }
  else s

/-- An uncorrectable error on a word of a slice, with the low bits of SLC_UE_LAST (R356, R365). -/
def State.noteSliceUe (s : State) (c a low : Nat) : State :=
  let w := coreTower c
  (s.modTower w (fun t => { t with ueCnt := sat32 (t.ueCnt + 1), ueLast := sliceLast c a low })).countTower w 5 1 (s.coreOwner c)

/-- What a check finds on word `w` (byte address / 8) of a core's slice: 0 nothing, 1 correctable, 2 a double-bit error,
3 POISONED. -/
def Core.sliceCheck (k : Core) (ups : List (Nat × Ecc)) (w : Nat) : Nat :=
  let mark := AMap.get 0 k.marks w
  if mark = 1 then 2
  else if mark = 2 then 3
  else match ups.find? (fun u => decide (u.1 = w)) with
    | some (_, .corrected) => 1
    | some (_, .uncorrectable) => 2
    | _ => 0

/-- The upsets of a transfer by word number in the slice. -/
def xferUpsets (x : SliceXfer) : List (Nat × Ecc) := x.upsets.map (fun u => (x.addr / 128 * 16 + u.1.val, u.2))

/-- The transfers that a run of bytes of a slice touches. -/
def sliceXfers (a len : Nat) : List Nat :=
  if len = 0 then [] else (List.range ((a + len - 1) / 128 - a / 128 + 1)).map (fun i => a / 128 + i)

/-- The sixteen words of each of some transfers (R352). -/
def xferWords (l : List Nat) : List Nat := l.flatMap (fun x => (List.range 16).map (fun i => 16 * x + i))

/-- The words that a run of bytes touches. -/
def sliceWords (a len : Nat) : List Nat :=
  (xferWords (sliceXfers a len)).filter (fun w => decide (8 * w < a + len) && decide (a < 8 * w + 8))

/-- The dies of the layers that some runs of bytes of core c's slice touch. -/
def sliceDies (c : Nat) (runs : List (Nat × Nat)) : List Nat :=
  (runs.flatMap (fun r => sliceXfers r.1 r.2)).map (fun x => 4 + 4 * coreTower c + sliceLayer (128 * x))

/-- Marks a word's contents as bad until it is written whole (R356). -/
def State.markSlice (s : State) (c w m : Nat) : State := s.modCore c (fun k => { k with marks := AMap.put 0 k.marks w m })

/-- What a read does with what the check found on a word (R355, R356). -/
def State.noteSliceWord (s : State) (c w found : Nat) : State :=
  match found with
  | 0 => s
  | 1 => s.noteSliceCe c (8 * w)
  | 2 => (s.markSlice c w 1).noteSliceUe c (8 * w) 1
  | _ => s.noteSliceUe c (8 * w) 2

/-- A read of runs of bytes of a slice (R352-R356), each transfer moved and checked once: the bytes in turn, the fault (DETAIL
and address) if any, and the state. Bytes of a bad word or of a discarded transfer are free values. -/
def State.sliceReads (s : State) (c : Nat) (runs : List (Nat × Nat)) (ups : List (Nat × Ecc)) (violation : Bool) :
    Bytes × Option (Nat × Nat) × State :=
  let k := s.core c
  let s := s.noteUse c (sliceDies c runs)
  let addrs := runs.flatMap (fun r => (List.range r.2).map (fun i => r.1 + i))
  let a := (runs.headD (0, 0)).1 / 128 * 128
  let ws := xferWords (runs.flatMap (fun r => sliceXfers r.1 r.2)).dedup
  let bad := ws.filter (fun w => violation || decide (2 ≤ k.sliceCheck ups w))
  let bs := addrs.zipIdx.map (fun (x, i) => if bad.contains (x / 8) then Config.poison (s.free + i) else Memory.read k.slice x)
  let s := if bad = [] then s else { s with free := s.free + addrs.length }
  if violation then (bs, some (3, a), s.noteSliceUe c a 3)
  else
    (bs, bad.head?.map (fun w => (k.sliceCheck ups w - 1, 8 * w)),
      s.each ws (fun s w => s.noteSliceWord c w (k.sliceCheck ups w)))

/-- A read of one run. -/
def State.sliceRead (s : State) (c a len : Nat) (ups : List (Nat × Ecc)) (violation : Bool) : Bytes × Option (Nat × Nat) × State :=
  s.sliceReads c [(a, len)] ups violation

/-- The words that runs of bytes cover only in part (R354), each once. -/
def partWords (runs : List (Nat × Bytes)) : List Nat :=
  (runs.flatMap (fun r => (sliceWords r.1 r.2.length).filter (fun w =>
    !(decide (r.1 ≤ 8 * w) && decide (8 * w + 8 ≤ r.1 + r.2.length))))).dedup

/-- The words that runs of bytes cover whole. -/
def wholeWords (runs : List (Nat × Bytes)) : List Nat :=
  runs.flatMap (fun r => (sliceWords r.1 r.2.length).filter (fun w =>
    decide (r.1 ≤ 8 * w) && decide (8 * w + 8 ≤ r.1 + r.2.length)))

/-- A write of runs of bytes of a slice (R354, R356, R357): a word written in part is read once, and a bad one stops the
transfer before anything is written; the fault if any, and the state. -/
def State.sliceWrite (s : State) (c : Nat) (runs : List (Nat × Bytes)) (ups : List (Nat × Ecc)) (violation : Bool) :
    Option (Nat × Nat) × State :=
  let a := (runs.headD (0, [])).1 / 128 * 128
  let k := s.core c
  let s := s.noteUse c (sliceDies c (runs.map (fun r => (r.1, r.2.length))))
  if violation then (some (3, a), s.noteSliceUe c a 3)
  else
    match (partWords runs).find? (fun w => decide (2 ≤ k.sliceCheck ups w)) with
    | some w =>
      let s := if k.sliceCheck ups w = 2 then s.markSlice c w 1 else s
      (some (4, 8 * w), s.noteSliceUe c (8 * w) 4)
    | none =>
      let s := s.each ((partWords runs).filter (fun w => decide (k.sliceCheck ups w = 1))) (fun s w => s.noteSliceCe c (8 * w))
      (none, s.modCore c (fun k =>
        { k with slice := runs.foldl (fun m r => Memory.writeN m r.1 r.2) k.slice,
                 marks := k.marks.filter (fun m => !(wholeWords runs).contains m.1) }))

/-- A SLICE_UE fault (R356, R250). -/
def State.sliceFault (s : State) (c : Nat) (f : Option (Nat × Nat)) : State :=
  match f with
  | some (detail, a) => s.imprecise c 0x14 detail (BitVec.ofNat 64 a)
  | none => s

/-! ## The commands -/

/-- VSLICE is good, so slices are refreshed (R362). -/
def State.vslice (s : State) : Bool := s.rails.good.getLsbD 4

/-- A slice is scrubbed: VSLICE is good and its core is in service. -/
def State.slicesOn (s : State) (c : Nat) : Bool := s.vslice && s.coreUp c

/-- The slice serves its core's transfers: a core held idle makes none (R196). -/
def State.sliceServes (s : State) (c : Nat) : Bool := s.slicesOn c && decide ((s.core c).mode ≠ .off)

/-- SLICE_READ_TRANSFER (R353): 128 bytes go to the stream engine. -/
def execSliceReadTransfer (t : Instant) (x : SliceXfer) (s : State) : Result :=
  let s := s.at t
  let c := x.core.val
  let a := x.addr / 128 * 128
  if !s.sliceServes c || decide (sliceBytes ≤ a) then .next s
  else
    let (bs, f, s) := s.sliceRead c a 128 (xferUpsets x) x.violation
    let s := (s.reads bs).countCore c 8 128
    .next (({ s with out := { s.out with readStatus := if f.isSome then .poisoned else .ok } }).sliceFault c f)

/-- The runs of bytes that an enable mask names within a transfer at address `a`, none across a word's end. -/
def maskRuns (a : Nat) (mask : BitVec 128) (data : Bytes) : Nat → List (Nat × Bytes) → List (Nat × Bytes)
  | 0, acc => acc
  | i + 1, acc =>
    let b := data.getD i 0
    if mask.getLsbD i then
      match acc with
      | (j, bs) :: l =>
        if j = a + i + 1 ∧ j % 8 ≠ 0 then maskRuns a mask data i ((a + i, b :: bs) :: l) else maskRuns a mask data i ((a + i, [b]) :: acc)
      | [] => maskRuns a mask data i [(a + i, [b])]
    else maskRuns a mask data i acc

/-- SLICE_WRITE_TRANSFER (R354): the bytes whose mask bit is set are written. -/
def execSliceWriteTransfer (t : Instant) (x : SliceXfer) (data : Bytes) (mask : BitVec 128) (s : State) : Result :=
  let s := s.at t
  let c := x.core.val
  let a := x.addr / 128 * 128
  if !s.sliceServes c || decide (sliceBytes ≤ a) then .next s
  else
    let runs := maskRuns a mask data 128 []
    let (f, s) := s.sliceWrite c (if x.violation then [(a, [])] else runs) (xferUpsets x) x.violation
    let s := if f.isNone then s.countCore c 9 ((runs.map (fun r => r.2.length)).sum) else s
    .next (s.sliceFault c f)

/-- `n` refresh commands run on a layer of a core's slice: those it owes are paid, they count, and the layer's shorter interval
takes effect (R360, R361). -/
def State.refreshLayer (s : State) (c : Nat) (layer : Fin 4) (n : Nat) : State :=
  let w := coreTower c
  if n = 0 then s
  else ((s.modCore c (fun k => { k with owed := AMap.put 0 k.owed layer.val 0 })).countTower w 1 n none).raiseBand
    (.refresh (Fin.ofNat 4 w) layer)

/-- SLICE_REFRESH_DUE (R361): what is owed has run where there was a moment without a waiting transfer; then the command that
falls due is issued, owed, or forced in a burst of five. Refresh runs whenever VSLICE is good (R362). -/
def execSliceRefreshDue (t : Instant) (c : CoreId) (layer : Fin 4) (fg : Foreground) (s : State) : Result :=
  let s := s.at t
  let c := c.val
  let w := coreTower c
  if !s.vslice then .next s
  else
    let s := if fg = .again then s.refreshLayer c layer (AMap.get 0 (s.core c).owed layer.val) else s
    let owed := AMap.get 0 (s.core c).owed layer.val
    if fg = .idle then .next (s.refreshLayer c layer (owed + 1))
    else if owed < 4 then .next (s.modCore c (fun k => { k with owed := AMap.put 0 k.owed layer.val (owed + 1) }))
    else
      .next (((s.modTower w (fun t => { t with forced := sat32 (t.forced + 1) })).refreshLayer c layer 5).countTower w 2 1 none)

/-- SCRUB_HOURS of a tower (R369). -/
def Tower.scrubHours (t : Tower) : Nat := bits t.slcCfg.toNat 7 0

/-- Transfers of a slice: a sweep reads each. -/
def sweepLength : Nat := 2 ^ 20

/-- A transfer that scrub has read: the sweep ends when it has read every one (R363). A sweep that had run past its period no
longer lags, and the next begins at once; otherwise the next waits for the next period (R363, R364). -/
def Core.scrubRead (k : Core) (i : Nat) : Core :=
  if k.sweepDone || bit k.swept i then k
  else if k.scrubbed + 1 = sweepLength then
    { k with scrubbed := 0, swept := 0, sweeps := k.sweeps + 1, lagging := false, sweepDone := !k.lagging }
  else { k with scrubbed := k.scrubbed + 1, swept := k.swept + 2 ^ i }

/-- SLICE_SCRUB_TRANSFER (R364, R365): nothing while a foreground transfer waits for the layer, which scrub then stays off
until the layer is idle again, nor when no sweep runs (R363); a layer that owes refresh runs what it owes instead (R12,
R361). -/
def execSliceScrubTransfer (t : Instant) (x : SliceXfer) (waiting : Bool) (s : State) : Result :=
  let s := s.at t
  let c := x.core.val
  let w := coreTower c
  let a := x.addr / 128 * 128
  let k := s.core c
  let j := sliceLayer a
  let owed := AMap.get 0 k.owed j
  if !s.slicesOn c || decide (sliceBytes ≤ a) || decide ((s.tower w).scrubHours = 0) then .next s
  else if waiting then .next (s.modCore c (fun k => { k with offLayer := insertNat j k.offLayer }))
  else
    let s := s.modCore c (fun k => { k with offLayer := k.offLayer.filter (fun l => decide (l ≠ j)) })
    if owed ≠ 0 then .next (s.refreshLayer c (Fin.ofNat 4 j) owed)
    else
      let s := s.each (sliceWords a 128) (fun s n =>
        match k.sliceCheck (xferUpsets x) n with
        | 0 => s
        | 1 => s.noteSliceCe c (8 * n)
        | 2 => ((s.markSlice c n 2).noteSliceUe c (8 * n) 0xF).report
                 { kind := 5, sev := 1, loc := BitVec.ofNat 32 c, detail := sliceLast c (8 * n) 0xF }
        | _ => s)
      .next ((s.modCore c (fun k => k.scrubRead (a / 128))).countTower w 3 1 none)

/-- When the period of a slice's sweep ends: SCRUB_HOURS after it began, at the earliest when every rail had become good
(DEDUCED, notes/assumptions/48.md). -/
def State.sweepEnds (s : State) (c : Nat) : Nat :=
  max (s.core c).sweepAt s.rails.allGoodAt + 3600000000000 * (s.tower (coreTower c)).scrubHours

/-- SCRUB_PERIOD_EXPIRY (R363, R364): the next sweep may begin; one that has not ended runs past its period and counts in
SLC_SCRUB_LAG until it completes. -/
def execScrubPeriodExpiry (t : Instant) (c : CoreId) (s : State) : Result :=
  let s := s.at t
  if !s.slicesOn c.val || decide ((s.tower (coreTower c.val)).scrubHours = 0) || decide (s.clock < s.sweepEnds c.val) then .next s
  else .next (s.modCore c.val (fun k => { k with lagging := !k.sweepDone, sweepDone := false, sweepAt := s.clock }))

end Sys2Proof.Machine
end

