-- ==== Sys2Proof/Machine/Inlets.lean ====
section
/-!
DEFINITION. The inlets of an array: the layout of their rings (R383, R384, R386), grants and ends (R388-R390), and the
values that a strip brings (R285, R291, R320).
-/
namespace Sys2Proof.Machine

/-! ## Formats as lines (R285, R383) -/

/-- The format groups of R285: 1 the 8-bit group, 2 the 6-bit and 4-bit group, 3 the 16-bit group, 4 binary32; 0 for INT32
and UE8M0, which are never operands (R286). -/
def fmtGroup (f : Nat) : Nat :=
  match f with
  | 0 => 4 | 1 => 3 | 2 => 3 | 3 => 1 | 4 => 1 | 5 => 2 | 6 => 2 | 7 => 2 | 9 => 3 | 10 => 1 | 11 => 2
  | _ => 0

/-- K elements per strip. -/
def stripElems (f : Nat) : Nat := match fmtGroup f with | 1 => 128 | 2 => 256 | 3 => 32 | 4 => 8 | _ => 0
/-- Ring lines per strip. -/
def stripLines (f : Nat) : Nat := match fmtGroup f with | 1 => 128 | 2 => 128 | 3 => 64 | 4 => 32 | _ => 0
/-- Beats that one ring line stands for (R384). -/
def lineBeats (f : Nat) : Nat := match fmtGroup f with | 3 => 2 | 4 => 4 | _ => 1
/-- Bytes of a line. -/
def lineSize (f : Nat) : Nat := if f = 5 ∨ f = 6 then 192 else 128
/-- Lines of a ring: three strips. -/
def ringLines (f : Nat) : Nat := 3 * stripLines f
/-- Bytes of a ring, scale area included (R383). -/
def ringBytes (f : Nat) (mx : Bool) : Nat := ringLines f * lineSize f + (if mx then 6144 else 0)
/-- K elements that `n` ring lines carry. -/
def elemsOf (f n : Nat) : Nat := if stripLines f = 0 then 0 else n * stripElems f / stripLines f

/-! ## Reading and writing lines (R386) -/

/-- Where piece p of ring line l stands. -/
def pieceAt (base size lines l p : Nat) : Nat := base + l % lines * size + 16 * ((p + l) % (size / 16))

/-- Ring line l as the inlet reads it, unrotated. -/
def Core.ringLine (k : Core) (x : InletSt) (l : Nat) : Nat :=
  let f := x.fmt.toNat
  leNat ((List.range (lineSize f / 16)).flatMap (fun p =>
    Memory.readN k.near (pieceAt (x.base.getD 0) (lineSize f) (ringLines f) l p) 16))

/-- Ring line l written. -/
def State.writeLine (s : State) (c : Nat) (x : InletSt) (l line : Nat) : State :=
  let f := x.fmt.toNat
  s.each (List.range (lineSize f / 16)) (fun s p =>
    s.nearStore c (pieceAt (x.base.getD 0) (lineSize f) (ringLines f) l p) (leBytes 16 (line / 2 ^ (128 * p))))

/-- The address of scale slot i of strip j (R383). -/
def scaleAt (x : InletSt) (j i : Nat) : Nat :=
  x.base.getD 0 + ringLines x.fmt.toNat * lineSize x.fmt.toNat + (16 * (j % 3) + i) * 128

/-- The code of K element e of a strip at position p, from the strip's lines (R384; 6-bit and 4-bit lines hold each
position's two elements side by side, DEDUCED, notes/assumptions/47.md). -/
def elemCode (f : Nat) (lines : List Nat) (e p : Nat) : Nat :=
  match fmtGroup f with
  | 1 => elem (lines.getD e 0) 8 p
  | 2 => elem (lines.getD (e / 2) 0) (fmtBits f) (2 * p + e % 2)
  | 3 => elem (lines.getD (2 * e) 0) 8 p + 256 * elem (lines.getD (2 * e + 1) 0) 8 p
  | 4 => packElems 8 ((List.range 4).map (fun i => elem (lines.getD (4 * e + i) 0) 8 p))
  | _ => 0

/-- A ring line of the K elements that it carries, each a list of 128 codes: slice `i` of an element in the 16-bit and
binary32 groups. -/
def makeLine (f i : Nat) (es : List (List Nat)) : Nat :=
  match fmtGroup f with
  | 2 => packElems (fmtBits f) ((List.range 128).flatMap (fun p => [(es.getD 0 []).getD p 0, (es.getD 1 []).getD p 0]))
  | _ => packElems 8 ((List.range 128).map (fun p => (es.getD 0 []).getD p 0 / 2 ^ (8 * i)))

/-! ## The inlet's state -/

def Str.inlet (r : Str) : Inlet → InletSt
  | .west => r.west
  | .north => r.north

def State.inlet (s : State) (c : Nat) (n : Inlet) : InletSt := (s.core c).run.str.inlet n

def State.setInlet (s : State) (c : Nat) (n : Inlet) (x : InletSt) : State :=
  s.modStr c (fun r => match n with
    | .west => { r with west := x }
    | .north => { r with north := x })

/-- The inlet a destination space names. -/
def inletOf (space : Nat) : Option Inlet := if space = 3 then some .west else if space = 4 then some .north else none

/-- A running descriptor writes to the inlet. -/
def Str.feeds (r : Str) (n : Inlet) : Bool :=
  r.lanes.any (fun x => match x.2 with
    | some l => decide (inletOf (bits (l.words.getD 1 0).toNat 63 60) = some n)
    | none => false)

/-- The ring holds three strips not yet consumed: a line that would begin a fourth waits (R387). -/
def InletSt.full (x : InletSt) : Bool :=
  (decide (x.writeLine = 0) && decide (x.readStrip + 3 ≤ x.writeStrip)) || decide (ringLines x.fmt.toNat ≤ x.tail - x.head)

/-- An inlet resets when it holds no line and no end and no descriptor to it runs (R390). -/
def State.resetInlet (s : State) (c : Nat) (n : Inlet) : State :=
  let x := s.inlet c n
  if x.head = x.tail ∧ x.ends = [] ∧ !(s.core c).run.str.feeds n ∧ x.base.isSome then
    s.setInlet c n { since := x.since, stalled := x.stalled, poison := x.poison }
  else s

/-- The first line after the strips granted. -/
def InletSt.next (x : InletSt) : Nat := x.head + x.ahead * stripLines x.fmt.toNat

/-- An end lies in, or right after, the strips granted: the inlet grants nothing more to this pass. -/
def InletSt.ended (x : InletSt) : Bool := decide (0 < x.ahead) && x.ends.any (fun e => decide (e ≤ x.next))

/-- The strip from `at` can be granted (R388): its lines are there, or an end stands within it. -/
def InletSt.grantable (x : InletSt) : Bool :=
  x.ends.any (fun e => decide (x.next ≤ e) && decide (e < x.next + stripLines x.fmt.toNat))
    || (x.base.isSome && decide (x.next + stripLines x.fmt.toNat ≤ x.tail))

/-- The array asks the inlet for a strip: a pass runs, at most two strips are granted ahead of the one that runs, and
strips remain to ask for (R303). -/
def Arr.asks (a : Arr) (x : InletSt) : Bool :=
  a.pass && decide (x.ahead < 3) && decide (a.done + x.ahead < (a.cfg.getD {}).strips) && !x.ended

/-- Starts the waiting time of a request that begins now (R389). -/
def State.ask (s : State) (c : Nat) (n : Inlet) : State :=
  let x := s.inlet c n
  if (s.core c).run.arr.asks x then
    (if x.since.isNone then s.setInlet c n { x with since := some s.clock, stalled := false } else s)
  else if x.since.isSome then s.setInlet c n { x with since := none, stalled := false } else s

def State.askBoth (s : State) (c : Nat) : State := (s.ask c .west).ask c .north

/-! ## What a strip brings -/

/-- Lines of the strip that are real: all, or those before an end (R304). -/
def InletSt.stripLen (x : InletSt) : Nat :=
  let full := stripLines x.fmt.toNat
  let upto := (x.ends.map (fun e => e - x.head)).foldl min full
  min upto (x.tail - x.head)

/-- The codes of the strip's K elements, each a list of 128. -/
def Core.stripCodes (k : Core) (x : InletSt) : List (List Nat) :=
  let f := x.fmt.toNat
  let n := x.stripLen
  let lines := (List.range n).map (fun i => k.ringLine x (x.head + i))
  (List.range (elemsOf f n)).map (fun e => (List.range 128).map (fun p => elemCode f lines e p))

/-- The scale line of the strip's block b (R291, R383). -/
def Core.scaleLine (k : Core) (x : InletSt) (b : Nat) : List Nat :=
  (Memory.readN k.near (scaleAt x x.readStrip b) 128).map BitVec.toNat

/-- The values of the strip's K elements in the pass's format; with MX under their scales (R320). -/
def Core.stripValues (k : Core) (x : InletSt) (f : Nat) (mx blk16 : Bool) : List (List Num) :=
  let blk := if blk16 then 16 else 32
  (k.stripCodes x).zipIdx.map (fun (codes, e) =>
    if mx then List.zipWith (fun v sc => blockValue f sc v) codes (k.scaleLine x (e / blk))
    else codes.map (decodeNum f))

/-- The strip's lines are released (R388): those before an end, which the pass consumes (R390), or all of it. -/
def InletSt.release (x : InletSt) : InletSt :=
  let h := x.head + x.stripLen
  { x with head := h, ends := x.ends.erase h, ahead := x.ahead - 1, readStrip := x.readStrip + 1 }

end Sys2Proof.Machine
end

