-- ==== Sys2Proof/Machine/Functions.lean ====
section
/-!
DEFINITION. The special functions (ch. 11): sine and cosine of an exact phase (R333, R334), reciprocal and reciprocal square
root (R335, R336), the tables (R337, R338), and the arithmetic of the row statistics unit (R345, R346).
-/
namespace Sys2Proof.Machine

/-! ## Sine and cosine (R334) -/

/-- 2π × 2^256, rounded down. -/
def twoPi256 : Nat := 0x6487ed5110b4611a62633145c06e0e68948127044533e63a0105df531d89cd912

/-- Terms of the sine's series in units of 2^-256: the even-numbered and the odd-numbered terms summed apart. -/
def sineTerms (x2 : Nat) : Nat → Nat → Nat → Nat × Nat
  | 0, _, _ => (0, 0)
  | fuel + 1, k, term =>
    let (odd, even) := sineTerms x2 fuel (k + 1) (term * x2 / 2 ^ 256 / ((2 * k) * (2 * k + 1)))
    (term + even, odd)

/-- sin(2πr / 2^64) in units of 2^-256, for r at most 2^62. -/
def sine256 (r : Nat) : Nat :=
  let x := r * twoPi256 / 2 ^ 64
  let (p, n) := sineTerms (x * x / 2 ^ 256) 44 1 x
  p - n

/-- A magnitude v × 2^-256 as binary32 (R334): nearest, or where it lies within 2^-30 of itself from a tie, the lower or
the upper neighbour as `up` says. -/
def trigRound (neg up : Bool) (v : Nat) : Nat :=
  if v = 0 then 0
  else
    let u := log2Of v 1 (-256) - 23
    let (q, r, d) := scaled v 1 (-256 - u)
    let near := decide ((Int.natAbs (2 * (r : Int) - d)) * 2 ^ 30 < 2 * (q * d + r))
    if near ∧ r ≠ 0 then signBit 0 neg + packMag 0 (if up then q + 1 else q) u
    else (roundInto 0 0 false neg v 1 (-256)).1

/-- sin of the phase φ, 64 bits (R333, R334); exact at the quarter turns. -/
def sinPhase (up : Bool) (phi : Nat) : Nat :=
  let q := phi / 2 ^ 62 % 4
  let r := phi % 2 ^ 62
  let a := if q % 2 = 0 then r else 2 ^ 62 - r
  if a = 0 then 0
  else if a = 2 ^ 62 then (if q < 2 then 0x3F800000 else 0xBF800000)
  else trigRound (decide (2 ≤ q)) up (sine256 a)

/-- cos of the phase. -/
def cosPhase (up : Bool) (phi : Nat) : Nat := sinPhase up ((phi + 2 ^ 62) % 2 ^ 64)

/-! ## Reciprocals (R335, R336) -/

/-- Bits of an integer square root below bit `n`. -/
def isqrtFrom (x : Nat) : Nat → Nat → Nat
  | 0, r => r
  | n + 1, r => if (r + 2 ^ n) * (r + 2 ^ n) ≤ x then isqrtFrom x n (r + 2 ^ n) else isqrtFrom x n r

/-- ⌊√x⌋ for x below 2^128. -/
def isqrt (x : Nat) : Nat := isqrtFrom x 64 0

/-- The values within 1 ulp of an exact magnitude that lies `q` units of 2^u above 0, or more (not `exact`) but less than q + 1.
Below a power of two the spacing halves: `low` says that the magnitude lies at most half a unit above q. -/
def ulpRange (exact low : Bool) (q : Nat) (u : Int) : List (Nat × Int) :=
  let edge := decide (q = 2 ^ 23) && decide (-149 < u)
  if exact then (q, u) :: (q + 1, u) :: (if edge then [(2 ^ 24 - 1, u - 1), (2 ^ 24 - 2, u - 1)] else [(q - 1, u)])
  else (q, u) :: (q + 1, u) :: (if edge && low then [(2 ^ 24 - 1, u - 1)] else [])

/-- One of the values within 1 ulp (R335): the encoding, and the flags of R335 and R322. -/
def withinUlp (pick : Nat) (neg exact low : Bool) (q : Nat) (u : Int) : Nat × Flags :=
  let cands := ulpRange exact low q u
  let v := cands.getD (pick % cands.length) (q, u)
  let mag := if v.1 = 2 ^ 24 then packMag 0 (2 ^ 23) (v.2 + 1) else packMag 0 v.1 v.2
  if 0x7F800000 ≤ mag then (signBit 0 neg + 0x7F800000, flagOF ||| flagNX)
  else (signBit 0 neg + mag, if exact ∧ v = (q, u) then 0 else flagNX ||| (if mag < 0x800000 then flagUF else 0))

/-- RCP of a binary32 operand. -/
def rcp (pick x : Nat) : Nat × Flags :=
  match decodeNum 0 x with
  | .nan => (0x7FC00000, 0)
  | .inf neg => (signBit 0 neg, 0)
  | .fin neg m e =>
    if m = 0 then (signBit 0 neg + 0x7F800000, flagOF)
    else
      let lg := log2Of 1 m (-e)
      if 128 ≤ lg then (signBit 0 neg + 0x7F800000, flagOF ||| flagNX)
      else
        let u := max lg (-126) - 23
        let (q, r, d) := scaled 1 m (-e - u)
        withinUlp pick neg (decide (r = 0)) (decide (2 * r ≤ d)) q u

/-- RSQRT of a binary32 operand. -/
def rsqrt (pick x : Nat) : Nat × Flags :=
  match decodeNum 0 x with
  | .nan => (0x7FC00000, 0)
  | .inf neg => if neg then (0x7FC00000, flagNV) else (0, 0)
  | .fin neg m e =>
    if m = 0 then (signBit 0 neg + 0x7F800000, flagOF)
    else if neg then (0x7FC00000, flagNV)
    else
      let l := log2Of m 1 e
      let u0 := (-l) / 2 - 23
      let root (u : Int) : Nat × Bool × Bool :=
        let (y, r, d) := scaled 1 m (-e - 2 * u)
        let t := isqrt y
        (t, decide (r = 0) && decide (t * t = y), decide (4 * (y * d + r) ≤ (2 * t + 1) * (2 * t + 1) * d))
      let (t, ex, low) := root u0
      if 2 ^ 23 ≤ t then withinUlp pick false ex low t u0
      else
        let (t, ex, low) := root (u0 - 1)
        withinUlp pick false ex low t (u0 - 1)

/-! ## Tables (R337-R339) -/

/-- A binary32 field of a table body. -/
def tabF (b : Bytes) (a : Nat) : Num := decodeNum 0 (field b a 4)

/-- A value is finite. -/
def Num.finite : Num → Bool
  | .fin .. => true
  | _ => false

/-- A finite value above 0. -/
def Num.positive : Num → Bool
  | .fin false (_ + 1) _ => true
  | _ => false

/-- The body meets R337. -/
def tableOk (b : Bytes) : Bool :=
  decide (b.length = 4128) && (tabF b 0).finite && (tabF b 4).positive && decide (field b 8 1 ≤ 2) && decide (field b 9 1 ≤ 2)
    && decide (field b 10 2 = 0) && decide (field b 0x1C 4 = 0)
    && (List.range 256).all (fun i => decide (field b (0x20 + 16 * i + 12) 4 = 0))

/-- ⌊t⌋ and t - ⌊t⌋ of a finite value at least 0. -/
def floorNum (m : Nat) (e : Int) : Nat × Num :=
  if 0 ≤ e then (m * 2 ^ e.toNat, .fin false 0 0)
  else (m / 2 ^ (-e).toNat, .fin false (m % 2 ^ (-e).toNat) e)

/-- C0 + u × (C1 + u × C2) of segment i, by two fused multiply-adds (R338). -/
def segment (b : Bytes) (i : Nat) (u : Num) : Nat × Flags :=
  let at0 := 0x20 + 16 * i
  let (x, f) := fmaInto 0 0 false u (tabF b (at0 + 8)) (tabF b (at0 + 4))
  let (y, g) := fmaInto 0 0 false u (decodeNum 0 x) (tabF b at0)
  (y, f ||| g)

/-- A value written as binary32 unchanged, a NaN as the canonical one. -/
def plain32 (x : Num) : Nat × Flags := x.into 0 0 false

/-- The rule outside the range (R338): mode, A, B, and the EDGE value. -/
def outside (mode : Nat) (a b : Num) (edge : Nat × Flags) (x : Num) : Nat × Flags :=
  if mode = 0 then edge
  else if mode = 1 then plain32 a
  else
    match x, a with
    | .inf _, .fin _ 0 _ => plain32 b
    | _, _ => fmaInto 0 0 false a x b

/-- Table t at x (R338): an encoding in binary32 and the flags. -/
def tableAt (b : Bytes) (x : Nat) : Nat × Flags :=
  let v := decodeNum 0 x
  if v = .nan then (0x7FC00000, 0)
  else
    let (d, f) := addInto 0 0 false v (tabF b 0).neg
    let (t, g) := mulInto 0 0 false (decodeNum 0 d) (tabF b 4)
    let lo := outside (field b 8 1) (tabF b 0xC) (tabF b 0x10) (plain32 (tabF b 0x20)) v
    let hi := outside (field b 9 1) (tabF b 0x14) (tabF b 0x18) (segment b 255 (.fin false 1 0)) v
    let (y, h) :=
      match decodeNum 0 t with
      | .nan => (0x7FC00000, (0 : Flags))
      | .inf neg => if neg then lo else hi
      | .fin neg m e =>
        if m ≠ 0 ∧ neg then lo
        else
          let (i, u) := floorNum m e
          if i < 256 then segment b i u else hi
    (y, f ||| g ||| h)

/-! ## Row statistics (R344-R346) -/

/-- A value with the flags collected so far. -/
abbrev Flagged := Nat × Flags

/-- Sum of two encodings, collecting flags. -/
def add32 (x : Flagged) (y : Flagged) : Flagged :=
  let (v, f) := addInto 0 0 false (decodeNum 0 x.1) (decodeNum 0 y.1)
  (v, x.2 ||| y.2 ||| f)
def sub32 (x y : Flagged) : Flagged :=
  let (v, f) := addInto 0 0 false (decodeNum 0 x.1) (decodeNum 0 y.1).neg
  (v, x.2 ||| y.2 ||| f)
def mul32 (x y : Flagged) : Flagged :=
  let (v, f) := mulInto 0 0 false (decodeNum 0 x.1) (decodeNum 0 y.1)
  (v, x.2 ||| y.2 ||| f)
def div32 (x y : Flagged) : Flagged :=
  let (v, f) := divInto 0 0 false (decodeNum 0 x.1) (decodeNum 0 y.1)
  (v, x.2 ||| y.2 ||| f)

/-- A sum in ascending order, rounded after each addition. -/
def sum32 : List Flagged → Flagged
  | [] => (0, 0)
  | x :: l => l.foldl add32 x

/-- The larger of two encodings (R323). -/
def maxEnc (x y : Nat) : Nat :=
  match decodeNum 0 x, decodeNum 0 y with
  | .nan, _ => 0x7FC00000
  | _, .nan => 0x7FC00000
  | a, b => if a.lt b then y else x

/-- A whole number as binary32. -/
def nat32 (n : Nat) : Flagged := roundInto 0 0 false false n 1 0

/-- SOFTMAX on one row (R345): the row's x, mᵢ and sᵢ; the new m, s, c, the emitted row, the flags. -/
def softmaxRow (tab : Bytes) (sigma : Nat) (xs : List Nat) (m s : Nat) : Nat × Nat × Nat × List Nat × Flags :=
  let ys := xs.map (fun x => mul32 (sigma, 0) (x, 0))
  let f0 := ys.foldl (fun f y => f ||| y.2) (0 : Flags)
  let top := ys.foldl (fun a y => maxEnc a y.1) m
  let bad := xs.any (fun x => decide (decodeNum 0 x = .nan)) || ys.any (fun y => decide (decodeNum 0 y.1 = .nan))
    || (!(decodeNum 0 top).finite && ys.any (fun y => !(decodeNum 0 y.1).finite))
  let expOf (y : Nat) : Flagged :=
    let (d, f) := sub32 (y, 0) (top, 0)
    let (v, g) := tableAt tab d
    (v, f ||| g)
  let c : Flagged := if m = 0xFF800000 then (0, 0) else expOf m
  let es := ys.map (fun y => expOf y.1)
  let total := add32 (mul32 (s, 0) c) (sum32 es)
  let flags := f0 ||| c.2 ||| total.2
  if bad then (0x7FC00000, 0x7FC00000, c.1, es.map Prod.fst, flags ||| flagNV)
  else (top, total.1, c.1, es.map Prod.fst, flags)

/-- MOMENTS on one row (R346): nᵢ, meanᵢ, M2ᵢ to the new n, mean, M2, var and the flags. -/
def momentsRow (sigma : Nat) (xs : List Nat) (n mean m2 : Nat) : Nat × Nat × Nat × Nat × Flags :=
  let ys := xs.map (fun x => mul32 (sigma, 0) (x, 0))
  let b := div32 (sum32 ys) (nat32 128)
  let q := sum32 (ys.map (fun y => let d := sub32 y b; mul32 d d))
  let n' := nat32 (n + 128)
  let d := sub32 b (mean, 0)
  let mean' := add32 (mean, 0) (div32 (mul32 d (nat32 128)) n')
  let m2' := add32 (add32 (m2, 0) q) (div32 (mul32 (mul32 (mul32 d d) (nat32 n)) (nat32 128)) n')
  let var := div32 m2' n'
  (n + 128, mean'.1, m2'.1, var.1, mean'.2 ||| m2'.2 ||| var.2)

end Sys2Proof.Machine
end

