-- ==== Sys2Proof/Machine/Vector.lean ====
section
/-!
DEFINITION. Class 0x3 of R239: the vector operations (R241, R321-R328).
-/
namespace Sys2Proof.Machine

/-- MOD[3:0], the format code. -/
def modFmt (i : Issue) : Nat := bits i.md.toNat 3 0
/-- MOD[4], SAT. -/
def modSat (i : Issue) : Bool := i.md.getLsbD 4
/-- MOD[6:5], the rounding (R321). -/
def modRnd (i : Issue) : Nat := bits i.md.toNat 6 5

/-- The formats vector arithmetic accepts (R321). -/
def vecFmt (f : Nat) : Bool := [0, 1, 2, 8, 9, 10].contains f

/-- Legal format and rounding of OP 0x00 to 0x09 (R321). -/
def vecLegal (i : Issue) : Bool := vecFmt (modFmt i) && (fmtFloat (modFmt i) || decide (modRnd i = 0))

/-- The elements of a vector register in a format (R317). -/
def Core.velems (k : Core) (r f : Nat) : List Nat := elems (k.vreg r).toNat (fmtBits f) (fmtCount f)

/-- Elements as a register. -/
def vecOf (f : Nat) (l : List Nat) : V1024 := BitVec.ofNat 1024 (packElems (fmtBits f) l)

/-- Writes element results into vRD and sets their flags. -/
def State.vecResult (s : State) (i : Issue) (f : Nat) (l : List (Nat × Flags)) : State :=
  (s.setVreg i.c i.d (vecOf f (l.map Prod.fst))).raise i.c (orFlags l)

/-- An operation on the elements of vRS1 and vRS2 (R241). -/
def State.vec2 (s : State) (i : Issue) (op : Nat) (f : Nat → Nat → Nat × Flags) : State :=
  s.issue i 3 op (i.uses true true true 0x7F 0 && vecLegal i) noFault
    (fun k => k.sfuFree [i.d, i.rs1.toNat, i.rs2.toNat])
    (fun s =>
      let k := s.core i.c
      s.vecResult i (modFmt i) (List.zipWith f (k.velems i.rs1.toNat (modFmt i)) (k.velems i.rs2.toNat (modFmt i))))

/-- The sum, difference or product of two elements by the format of the instruction. -/
def arith (i : Issue) (flt : Nat → Nat → Nat × Flags) (int : Int → Int → Int) (x y : Nat) : Nat × Flags :=
  let f := modFmt i
  if fmtFloat f then flt x y else intResult f (modSat i) (int (signed (fmtBits f) x) (signed (fmtBits f) y))

/-- The sum of two elements. -/
def vadd (i : Issue) : Nat → Nat → Nat × Flags :=
  arith i (fun x y => addInto (modFmt i) (modRnd i) (modSat i) (decodeNum (modFmt i) x) (decodeNum (modFmt i) y)) (· + ·)

/-- VADD (R241). -/
def execVadd (i : Issue) (s : State) : Result := .next (s.vec2 i 0x00 (vadd i))
/-- VSUB (R241). -/
def execVsub (i : Issue) (s : State) : Result :=
  .next (s.vec2 i 0x01 (arith i
    (fun x y => addInto (modFmt i) (modRnd i) (modSat i) (decodeNum (modFmt i) x) (decodeNum (modFmt i) y).neg) (· - ·)))
/-- VMUL (R241). -/
def execVmul (i : Issue) (s : State) : Result :=
  .next (s.vec2 i 0x02 (arith i
    (fun x y => mulInto (modFmt i) (modRnd i) (modSat i) (decodeNum (modFmt i) x) (decodeNum (modFmt i) y)) (· * ·)))

/-- VFMA: vRS1 × vRS2 + vRD, rounded once (R241). -/
def execVfma (i : Issue) (s : State) : Result :=
  let f := modFmt i
  .next (s.issue i 3 0x03 (i.uses true true true 0x7F 0 && vecLegal i) noFault
    (fun k => k.sfuFree [i.d, i.rs1.toNat, i.rs2.toNat])
    (fun s =>
      let k := s.core i.c
      let one (x y z : Nat) : Nat × Flags :=
        if fmtFloat f then fmaInto f (modRnd i) (modSat i) (decodeNum f x) (decodeNum f y) (decodeNum f z)
        else intResult f (modSat i) (signed (fmtBits f) x * signed (fmtBits f) y + signed (fmtBits f) z)
      s.vecResult i f (List.zipWith (fun p z => one p.1 p.2 z)
        (List.zip (k.velems i.rs1.toNat f) (k.velems i.rs2.toNat f)) (k.velems i.d f))))

/-- VMIN (R241, R323). -/
def execVmin (i : Issue) (s : State) : Result := .next (s.vec2 i 0x04 (fun x y => (pick (modFmt i) true x y, 0)))
/-- VMAX (R241, R323). -/
def execVmax (i : Issue) (s : State) : Result := .next (s.vec2 i 0x05 (fun x y => (pick (modFmt i) false x y, 0)))

/-- VCMP: all ones where the condition IMM[2:0] holds; 6 and 7 are ILLEGAL (R241). -/
def execVcmp (i : Issue) (s : State) : Result :=
  let f := modFmt i
  .next (s.issue i 3 0x06 (i.uses true true true 0x7F 7 && vecLegal i && decide (i.imm.toNat < 6)) noFault
    (fun k => k.sfuFree [i.d, i.rs1.toNat, i.rs2.toNat])
    (fun s =>
      let k := s.core i.c
      s.setVreg i.c i.d (vecOf f (List.zipWith
        (fun x y => if compares i.imm.toNat (decodeNum f x) (decodeNum f y) then 2 ^ fmtBits f - 1 else 0)
        (k.velems i.rs1.toNat f) (k.velems i.rs2.toNat f)))))

/-- A reduction of vRS1 into element 0 of vRD; the other elements become 0 (R241). -/
def State.reduce (s : State) (i : Issue) (op : Nat) (f : Nat → Nat → Nat × Flags) : State :=
  s.issue i 3 op (i.uses true true false 0x7F 0 && vecLegal i) noFault (fun k => k.sfuFree [i.d, i.rs1.toNat])
    (fun s =>
      match (s.core i.c).velems i.rs1.toNat (modFmt i) with
      | [] => s
      | x :: l =>
        let (v, g) := l.foldl (fun (a, g) y => ((f a y).1, g ||| (f a y).2)) (x, (0 : Flags))
        (s.setVreg i.c i.d (vecOf (modFmt i) [v])).raise i.c g)

/-- VRSUM: in ascending element order, rounded after each addition (R241). -/
def execVrsum (i : Issue) (s : State) : Result := .next (s.reduce i 0x08 (vadd i))
/-- VRMAX (R241, R323). -/
def execVrmax (i : Issue) (s : State) : Result := .next (s.reduce i 0x09 (fun x y => (pick (modFmt i) false x y, 0)))

/-- VCVT (R324-R328): from the format IMM[3:0] to MOD[3:0], part IMM[7:4]. -/
def execVcvt (i : Issue) (s : State) : Result :=
  let src := bits i.imm.toNat 3 0
  let dst := modFmt i
  let part := bits i.imm.toNat 7 4
  let ns := fmtCount src
  let nd := fmtCount dst
  let r := max (ns / nd) (nd / ns)
  .next (s.issue i 3 0x10 (i.uses true true false 0x7F 0xFF && convertible src dst && decide (part < r)) noFault
    (fun k => k.sfuFree [i.d, i.rs1.toNat])
    (fun s =>
      let k := s.core i.c
      let xs := k.velems i.rs1.toNat src
      let one (x : Nat) := convert src dst (modRnd i) (modSat i) x
      if ns ≤ nd then
        let ys := xs.map one
        let old := k.velems i.d dst
        (s.setVreg i.c i.d (BitVec.ofNat 1024
          (packElems (fmtBits dst) (old.take (part * ns) ++ ys.map Prod.fst ++ old.drop (part * ns + ns))))).raise i.c (orFlags ys)
      else s.vecResult i dst (((xs.drop (part * nd)).take nd).map one)))

/-- VPERM: element j of vRS1, where j is element i of vRS2 modulo the count (R241). -/
def execVperm (i : Issue) (s : State) : Result :=
  let f := modFmt i
  .next (s.issue i 3 0x18 (i.uses true true true 0xF 0 && vecFmt f) noFault
    (fun k => k.sfuFree [i.d, i.rs1.toNat, i.rs2.toNat])
    (fun s =>
      let k := s.core i.c
      let xs := k.velems i.rs1.toNat f
      s.setVreg i.c i.d (vecOf f ((k.velems i.rs2.toNat f).map (fun j => xs.getD (j % fmtCount f) 0)))))

/-- VBCAST: the low bits of gRS1 into every element (R241). -/
def execVbcast (i : Issue) (s : State) : Result :=
  let f := modFmt i
  .next (s.issue i 3 0x19 (i.uses true true false 0xF 0 && vecFmt f) noFault (fun k => k.sfuFree [i.d])
    (fun s => s.setVreg i.c i.d (vecOf f (List.replicate (fmtCount f) (i.a (s.core i.c)).toNat))))

/-- VMOVS: element IMM[7:0] of vRS1 into gRD, sign-extended for integer formats; an IMM at or above the count is ILLEGAL
(R241). -/
def execVmovs (i : Issue) (s : State) : Result :=
  let f := modFmt i
  .next (s.issue i 3 0x1A (i.uses true true false 0xF immAll && vecFmt f && decide (i.imm.toNat < fmtCount f)) noFault
    (fun k => k.sfuFree [i.rs1.toNat])
    (fun s =>
      let x := elem ((s.core i.c).vreg i.rs1.toNat).toNat (fmtBits f) i.imm.toNat
      s.setReg i.c i.d (if fmtInt f then BitVec.ofInt 64 (signed (fmtBits f) x) else BitVec.ofNat 64 x)))

end Sys2Proof.Machine
end

