-- ==== Sys2Proof/Machine/Sfu.lean ====
section
/-!
DEFINITION. The special function unit of a core: class 0x7 of R239, its queue (R330), its operations (R331), table loads
(R341), the row statistics configuration and state block (R343, R344), its faults (R349).
-/
namespace Sys2Proof.Machine

/-- An SFU fault (R349): SFU_STAT and the core's imprecise fault. -/
def State.sfuFault (s : State) (c unit reason : Nat) : State :=
  (s.modSfu c (fun r => { r with valid := true, unit := unit, reason := reason })).imprecise c 0x13 unit 0

/-- The queue has room (R330). -/
def Core.sfuRoom (k : Core) : Bool := decide (k.run.sfu.queue.length < 4)

/-- An operation enters the queue. -/
def State.sfuPush (s : State) (c : Nat) (o : SfuOp) : State := s.modSfu c (fun r => { r with queue := r.queue ++ [o] })

/-- SIN and COS at issue (R331, R333): an odd RS2 is ILLEGAL; the operands are read. -/
def State.issueTrig (s : State) (i : Issue) (op : Nat) : State :=
  let plane := i.md.getLsbD 0
  let r1 := i.rs1.toNat
  let r2 := i.rs2.toNat
  s.issue i 7 op (i.uses true true true 1 0 && decide (r2 % 2 = 0)) noFault
    (fun k => k.sfuRoom && k.sfuFree ([i.d, r2, r2 + 1] ++ (if plane then [r1] else [])))
    (fun s =>
      let k := s.core i.c
      s.sfuPush i.c { op := op, rd := i.rd, plane := plane, sc := i.a k, x := if plane then k.vreg r1 else 0,
                      lo := k.vreg r2, hi := k.vreg (r2 + 1) })

/-- RCP, RSQRT and TBLt at issue. -/
def State.issueLane (s : State) (i : Issue) (op : Nat) : State :=
  s.issue i 7 op (i.uses true true false 0 0) noFault (fun k => k.sfuRoom && k.sfuFree [i.d, i.rs1.toNat])
    (fun s => s.sfuPush i.c { op := op, rd := i.rd, x := (s.core i.c).vreg i.rs1.toNat })

/-- SIN (R333). -/
def execSin (i : Issue) (s : State) : Result := .next (s.issueTrig i 0)
/-- COS (R333). -/
def execCos (i : Issue) (s : State) : Result := .next (s.issueTrig i 1)
/-- RCP (R335). -/
def execRcp (i : Issue) (s : State) : Result := .next (s.issueLane i 2)
/-- RSQRT (R335). -/
def execRsqrt (i : Issue) (s : State) : Result := .next (s.issueLane i 3)
/-- TBLt (R338). -/
def execTbl (i : Issue) (n : Fin 4) (s : State) : Result := .next (s.issueLane i (4 + n.val))

/-- TBLt with MOD[0] = 1: a run-time load from gRS1 (R341). -/
def execTblLoad (i : Issue) (n : Fin 4) (s : State) : Result :=
  .next (s.issue i 7 (4 + n.val) (i.uses false true false 1 0 && i.md.getLsbD 0) noFault Core.sfuRoom
    (fun s => s.sfuPush i.c { op := 4 + n.val, load := true, sc := i.a (s.core i.c) }))

/-- An AOUT with ROWSTAT issued before has not completed (R347). -/
def Core.rowstatOut (k : Core) : Bool :=
  (k.run.arr.queue ++ k.run.arr.out.toList).any (fun o => match o with
    | .out _ md _ => md.getLsbD 4
    | _ => false)

/-- The configuration an RSTAT gives (R343); a σ that breaks R343 is a free value. -/
def rstatOf (i : Issue) (k : Core) (free : Nat) : Rstat :=
  let b := i.b k
  let ok := decide (b.toNat < 2 ^ 32) && (decodeNum 0 b.toNat).finite
  { addr := (i.a k).toNat, sigma := if ok then b.setWidth 32 else Config.sigma free, moments := i.imm.getLsbD 0,
    clear := i.imm.getLsbD 1, emit := i.imm.getLsbD 2, table := bits i.imm.toNat 5 4 }

/-- RSTAT (R343): waits at issue while an earlier AOUT with ROWSTAT has not completed (R347). -/
def execRstat (i : Issue) (s : State) : Result :=
  .next (s.issue i 7 0x08 (i.uses false true true 0 0x37 && !(i.imm.getLsbD 0 && i.imm.getLsbD 2)) noFault
    (fun k => k.sfuRoom && !k.rowstatOut)
    (fun s =>
      let r := rstatOf i (s.core i.c) s.free
      (s.drawn.modSfu i.c (fun x => { x with issued := some r })).sfuPush i.c { op := 8, rs := some r }))

/-! ## Completion -/

/-- The 32 lanes of a vector register. -/
def lanes32 (v : V1024) : List Nat := elems v.toNat 32 32

/-- The exact phase of a lane (R333). -/
def phaseOf (o : SfuOp) (lane : Nat) : Nat :=
  let f := elem o.lo.toNat 32 lane + 2 ^ 32 * elem o.hi.toNat 32 lane
  let p := if o.plane then elem o.x.toNat 32 lane else o.sc.toNat
  p * f % 2 ^ 64

/-- The lanes of an operation that is no load and no RSTAT; `tab` is the table it names. -/
def sfuLanes (o : SfuOp) (tab : Bytes) (free : Nat) : List (Nat × Flags) :=
  (List.range 32).map (fun l =>
    match o.op with
    | 0 => (sinPhase (Config.trigPick (free + l)) (phaseOf o l), 0)
    | 1 => (cosPhase (Config.trigPick (free + l)) (phaseOf o l), 0)
    | 2 => rcp (Config.ulpPick (free + l)) (elem o.x.toNat 32 l)
    | 3 => rsqrt (Config.ulpPick (free + l)) (elem o.x.toNat 32 l)
    | _ => tableAt tab (elem o.x.toNat 32 l))

def Core.table (k : Core) (t : Nat) : SfuTab := AMap.get {} k.tables t

/-- Bytes of a state block (R344). -/
def blockSize (r : Rstat) : Nat := if r.moments then 2048 else 1536

/-- The initial contents of a state block (R344). -/
def blockInit (r : Rstat) : Bytes :=
  if r.moments then List.replicate 2048 0
  else (List.range 128).flatMap (fun _ => leBytes 4 0xFF800000 ++ leBytes 4 0) ++ List.replicate 512 0

/-- The operation at the head of the SFU queue ends, and the rest of the queue remains. -/
def State.sfuEnd (s : State) (c : Nat) (o : SfuOp) : State :=
  let k := s.core c
  if o.op = 8 then
    match o.rs with
    | none => s
    | some r =>
      if r.addr % 128 ≠ 0 ∨ nsStoreEnd < r.addr + blockSize r then s.sfuFault c 4 3
      else
        let s := s.modSfu c (fun x => { x with rstat := some r })
        if r.clear then s.nearStore c r.addr (blockInit r) else s
  else if 4 ≤ o.op ∧ !(k.table (o.op - 4)).loaded then s.sfuFault c (o.op - 4) 1
  else
    let ls := sfuLanes o (k.table (o.op - 4)).body s.free
    let s := { s with free := s.free + 32 }
    (s.setVreg c o.rd.toNat (vecOf 0 (ls.map Prod.fst))).raise c (orFlags ls)

/-- SFU_OP_COMPLETE (R330): the head of the queue, unless it is a table load. -/
def execSfuOpComplete (t : Instant) (c : CoreId) (s : State) : Result :=
  let s := s.at t
  let k := s.core c.val
  match k.run.sfu.queue with
  | o :: q =>
    if k.busy && !o.load then .next ((s.modSfu c.val (fun r => { r with queue := q })).sfuEnd c.val o) else .next s
  | [] => .next s

/-- A table load ends (R341): checked, and the table replaced whole, or the fault of R349. -/
def State.loadTable (s : State) (c t a : Nat) : State :=
  if a % 16 ≠ 0 ∨ nsStoreEnd < a + 4128 then s.sfuFault c t 3
  else
    let b := Memory.readN (s.core c).near a 4128
    if !tableOk b then s.sfuFault c t 2
    else
      let x : SfuTab := { loaded := true, runtime := true, loads := min 0xFFFF (((s.core c).table t).loads + 1), body := b }
      s.modCore c (fun k => { k with tables := AMap.put {} k.tables t x })

/-- TABLE_LOAD_COMPLETE (R341). -/
def execTableLoadComplete (t : Instant) (c : CoreId) (s : State) : Result :=
  let s := s.at t
  let k := s.core c.val
  match k.run.sfu.queue with
  | o :: q =>
    if k.busy && o.load then
      .next ((s.modSfu c.val (fun r => { r with queue := q })).loadTable c.val (o.op - 4) o.sc.toNat)
    else .next s
  | [] => .next s

/-! ## The row statistics unit (R345-R347) -/

/-- One row through the unit: the row as it leaves, or none where nᵢ would pass its range (ROW_COUNT). -/
def State.rowStat (s : State) (c : Nat) (r : Rstat) (i : Nat) (row : List Nat) : Option (List Nat × State) :=
  let k := s.core c
  if r.moments then
    let a := r.addr + 16 * i
    let n := k.nearNat a 4
    if 0xFFFFFFFF < n + 128 then none
    else
      let (n', mean, m2, var, f) := momentsRow r.sigma.toNat row n (k.nearNat (a + 4) 4) (k.nearNat (a + 8) 4)
      some (row, (s.nearStore c a (leBytes 4 n' ++ leBytes 4 mean ++ leBytes 4 m2 ++ leBytes 4 var)).raise c f)
  else
    let a := r.addr + 8 * i
    let (m, sum, cf, es, f) := softmaxRow (k.table r.table).body r.sigma.toNat row (k.nearNat a 4) (k.nearNat (a + 4) 4)
    some (if r.emit then es else row,
      ((s.nearStore c a (leBytes 4 m ++ leBytes 4 sum)).nearStore c (r.addr + 0x400 + 4 * i) (leBytes 4 cf)).raise c f)

end Sys2Proof.Machine
end

