-- ==== Sys2Proof/Machine/Array.lean ====
section
/-!
DEFINITION. The matrix array (ch. 10): class 0x4 of R239, the array queue (R295, R313), strips and passes (R289-R293, R297,
R303-R305), AOUT with its row statistics (R298, R299, R345).
-/
namespace Sys2Proof.Machine

/-! ## Issue (R295) -/

def Core.arrRoom (k : Core) : Bool := decide (k.run.arr.queue.length < 4)

def State.arrPush (s : State) (c : Nat) (o : ArrOp) : State := s.modArr c (fun a => { a with queue := a.queue ++ [o] })

/-- ACFG (R295). -/
def execAcfg (i : Issue) (s : State) : Result :=
  .next (s.issue i 4 0x00 (i.uses false true true 0xF 0) noFault Core.arrRoom
    (fun s => s.arrPush i.c (.cfg (bits (i.a (s.core i.c)).toNat 15 0) (i.b (s.core i.c)) i.md)))
/-- APASS (R295). -/
def execApass (i : Issue) (s : State) : Result :=
  .next (s.issue i 4 0x01 (i.uses false false false 0 0) noFault Core.arrRoom (fun s => s.arrPush i.c .pass))
/-- AOUT (R295); with ROWSTAT it takes the configuration of the last RSTAT before it (R347). -/
def execAout (i : Issue) (s : State) : Result :=
  .next (s.issue i 4 0x02 (i.uses false true false 0x1F 0) noFault Core.arrRoom
    (fun s =>
      let k := s.core i.c
      s.arrPush i.c (.out (i.a k) i.md (if i.md.getLsbD 4 then k.run.sfu.issued else none))))

/-! ## The queue (R313) -/

/-- An ARRAY fault (R313). -/
def State.arrFault (s : State) (c detail : Nat) : State := s.imprecise c 0x12 detail 0

/-- ACFG's configuration, none where R313 gives BAD_CFG. -/
def State.arrCfg (s : State) (w strips : Nat) (opts : W64) (md : BitVec 7) : Option ArrCfg :=
  let wf := md.toNat % 16
  let mixed := opts.getLsbD 2
  let nf := if mixed then bits opts.toNat 7 4 else wf
  let mx := opts.getLsbD 0
  let blk := opts.getLsbD 1
  let six (f : Nat) : Bool := decide (5 ≤ f) && decide (f ≤ 7)
  if opts &&& ~~~(if mixed then 0xF7 else 0x07) ≠ 0 ∨ fmtGroup wf = 0 ∨ fmtGroup nf = 0 ∨ wf = 8 ∨ nf = 8
      ∨ (mx ∧ !(blockFmt wf && blockFmt nf)) ∨ (blk ∧ !(mx && s.towerFeature w 1))
      ∨ (mixed ∧ !(fmtFloat wf && fmtFloat nf && decide (fmtGroup wf = fmtGroup nf)))
      ∨ ((six wf || six nf) ∧ !s.towerFeature w 0) then none
  else some { strips := strips, wfmt := BitVec.ofNat 4 wf, nfmt := BitVec.ofNat 4 nf, mixed := mixed, blk16 := blk, mx := mx }

/-- The accumulators are INT32: integer formats without block scaling (R289). -/
def ArrCfg.int (g : ArrCfg) : Bool := fmtInt g.wfmt.toNat && !g.mx

/-- Bytes of an output element; 0 for a format AOUT does not have (R299). -/
def outSize (int tile : Bool) (f : Nat) : Nat :=
  let flt := decide (f ≤ 4)
  let num := decide (8 ≤ f) && decide (f ≤ 10)
  if (if tile then (if int then num else flt) else flt || num) then fmtBits f / 8 else 0

/-- Beat-times of AOUT (R298). -/
def outBeats (size : Nat) : Nat := 16 * size

/-- AOUT at the head of the queue: checked, then it occupies the array (R299, R313, R349). -/
def State.startOut (s : State) (c : Nat) (o : ArrOp) : State :=
  match o with
  | .out addr md rs =>
    let k := s.core c
    let a := k.run.arr
    let size := outSize a.int a.tile (md.toNat % 16)
    if size = 0 then s.arrFault c 1
    else if addr.toNat % 128 ≠ 0 ∨ nsStoreEnd < addr.toNat + 16384 * size then s.arrFault c 4
    else if md.getLsbD 4 then
      match rs with
      | none => s.sfuFault c 4 4
      | some r =>
        if a.tile && a.int then s.sfuFault c 4 5
        else if !r.moments ∧ !(k.table r.table).loaded then s.sfuFault c r.table 1
        else s.modArr c (fun a => { a with out := some o })
    else s.modArr c (fun a => { a with out := some o })
  | _ => s

/-- The head of the array queue is taken (R313). -/
def State.arrTake (s : State) (c : Nat) (o : ArrOp) : State :=
  match o with
  | .cfg strips opts md =>
    match s.arrCfg (coreTower c) strips opts md with
    | some g => s.modArr c (fun a => { a with cfg := some g })
    | none => s.arrFault c 1
  | .pass =>
    match (s.core c).run.arr.cfg with
    | none => s.arrFault c 3
    | some g =>
      if g.strips = 0 then s.arrFault c 2
      else
        (s.modArr c (fun a => { a with acc := [], pass := true, begun := false, done := 0, lost := a.lost || (a.tile && !a.written),
                                       tile := false, written := false, int := g.int })).askBoth c
  | .out .. => s.startOut c o

/-- The core runs or waits: its units take work (R255). -/
def Core.active (k : Core) : Bool := decide (k.mode = .running) || decide (k.mode = .waiting)

/-- An RSTAT before this AOUT has not been carried out yet (R344). -/
def Core.rstatQueued (k : Core) (o : ArrOp) : Bool :=
  match o with
  | .out _ md _ => md.getLsbD 4 && k.run.sfu.queue.any (fun x => decide (x.op = 8))
  | _ => false

/-- ARRAY_QUEUE_START (R313): the array is free and takes the next instruction. -/
def execArrayQueueStart (t : Instant) (c : CoreId) (s : State) : Result :=
  let s := s.at t
  let k := s.core c.val
  match k.run.arr.queue with
  | o :: q =>
    if k.active && !k.run.arr.pass && k.run.arr.out.isNone && !k.rstatQueued o then
      .next ((s.modArr c.val (fun a => { a with queue := q })).arrTake c.val o)
    else .next s
  | [] => .next s

/-! ## Passes (R289, R293, R297, R303-R305) -/

def Num.isZero : Num → Bool
  | .fin _ 0 _ => true
  | _ => false

/-- R293: the step is gated when an operand is zero and the other is no infinity or NaN. -/
def gates (a b : Num) : Bool := (a.isZero && b.finite) || (b.isZero && a.finite)

/-- Groups of `n` in order. -/
def chunks {α : Type} (n : Nat) : Nat → List α → List (List α)
  | 0, _ => []
  | fuel + 1, l => if l.isEmpty then [] else l.take n :: chunks n fuel (l.drop n)

/-- Products combined exactly before one rounding (R289): 1, 2 for the beat's two, or a block. -/
def groupLen (g : ArrCfg) : Nat := if g.mx then (if g.blk16 then 16 else 32) else if fmtGroup g.wfmt.toNat = 2 then 2 else 1

/-- One group of operand pairs into a binary32 accumulator (R289); nothing where every product is gated. -/
def accGroup (acc : Nat × Flags) (ps : List (Num × Num)) : Nat × Flags :=
  let prods := (ps.filter (fun p => !gates p.1 p.2)).map (fun p => p.1.mul p.2)
  match prods with
  | [] => acc
  | x :: l =>
    let (z, f) := l.foldl (fun (a : Num × Flags) p =>
      let (v, g) := a.1.add p.1 0
      (v, a.2 ||| p.2 ||| g)) x
    let (v, g) := addInto 0 0 false (decodeNum 0 acc.1) z
    (v, acc.2 ||| f ||| g)

/-- One product into an INT32 accumulator, saturating (R289). -/
def accInt (acc : Nat × Flags) (p : Int) : Nat × Flags :=
  let (v, f) := intResult 8 true (signed 32 acc.1 + p)
  (v, acc.2 ||| f)

/-- Cell steps of one cell that are not gated in the strip, by group (R285, R293): the pairs of values, and for integer
formats of codes. -/
def ungated (grp : Nat) (int : Bool) (vals : List (Num × Num)) (codes : List (Nat × Nat)) : Nat :=
  let live := (vals.filter (fun p => !gates p.1 p.2)).length
  match grp with
  | 1 => live
  | 2 =>
    if int then
      ((chunks 2 codes.length codes).filter (fun g => g.any (fun p => decide (p.1 ≠ 0)) && g.any (fun p => decide (p.2 ≠ 0)))).length
    else ((chunks 2 vals.length vals).filter (fun g => g.any (fun p => !gates p.1 p.2))).length
  | 3 =>
    if int then
      (codes.map (fun p => nat (decide (p.1 % 256 ≠ 0)) * nat (decide (p.2 % 256 ≠ 0))
        + nat (decide (p.1 % 256 ≠ 0)) * nat (decide (p.2 / 256 ≠ 0)) + nat (decide (p.1 / 256 ≠ 0)) * nat (decide (p.2 % 256 ≠ 0))
        + nat (decide (p.1 / 256 ≠ 0)) * nat (decide (p.2 / 256 ≠ 0)))).sum
    else 4 * live
  | _ => 16 * live

/-- A cell after the strip: its accumulator, the flags raised, the steps not gated. -/
def cellStrip (g : ArrCfg) (acc : Nat) (vals : List (Num × Num)) (codes : List (Nat × Nat)) : Nat × Flags × Nat :=
  let f := g.wfmt.toNat
  let n := ungated (fmtGroup f) g.int vals codes
  let (v, fl) :=
    if g.int then codes.foldl (fun a p => accInt a (signed (fmtBits f) p.1 * signed (fmtBits g.nfmt.toNat) p.2)) (acc, (0 : Flags))
    else (chunks (groupLen g) vals.length vals).foldl accGroup (acc, (0 : Flags))
  (v, fl, n)

/-- A strip's work on the whole array: the accumulators, the flags (a block scale of 0xFF sets NV, notes/assumptions/47.md), and
the cell steps not gated. A line missing from
either inlet counts as zero (R304), so only the elements that both inlets have take part. -/
def stripWork (k : Core) (g : ArrCfg) : AMap W32 × Flags × Nat :=
  let r := k.run.str
  let wv := k.stripValues r.west g.wfmt.toNat g.mx g.blk16
  let nv := k.stripValues r.north g.nfmt.toNat g.mx g.blk16
  let wc := k.stripCodes r.west
  let nc := k.stripCodes r.north
  let vals := List.zip wv nv
  let codes := List.zip wc nc
  if vals = [] then (k.run.arr.acc, 0, 0)
  else
    let blocks := (vals.length + groupLen g - 1) / groupLen g
    let nanScale : Flags :=
      if g.mx ∧ (List.range blocks).any (fun b => (k.scaleLine r.west b ++ k.scaleLine r.north b).contains 0xFF) then flagNV else 0
    let cells := (List.range 16384).map (fun x =>
      let i := x / 128
      let j := x % 128
      (x, cellStrip g (AMap.get 0 k.run.arr.acc x).toNat (vals.map (fun p => (p.1.getD i .nan, p.2.getD j .nan)))
        (codes.map (fun p => (p.1.getD i 0, p.2.getD j 0)))))
    ((cells.filter (fun c => decide (c.2.1 ≠ 0))).map (fun c => (c.1, BitVec.ofNat 32 c.2.1)),
      nanScale ||| cells.foldl (fun f c => f ||| c.2.2.1) 0, (cells.map (fun c => c.2.2.2)).sum)

/-- The array keeps NV, OF, NX and SAT (R292). -/
def arrFlags (f : Flags) : Flags := f &&& ~~~flagUF

/-- The pass commits (R297, R304, R305): the strips run, and whether its last was SHORT with `real` real lines. -/
def State.commitPass (s : State) (c : Nat) (short : Bool) (real : Nat) : State :=
  let s := s.modArr c (fun a => { a with pass := false, tile := true, written := false, short := short, real := real,
                                         strips := a.done, done := 0, passes := (a.passes + 1) % 2 ^ 32 })
  let s := s.modStr c (fun r => { r with west := { r.west with ahead := 0, since := none, stalled := false },
                                         north := { r.north with ahead := 0, since := none, stalled := false } })
  (((s.countCore c 3 1).resetInlet c .west).resetInlet c .north)

/-- STRIP_GRANT (R388): the inlet grants one whole strip, or an end. An end before the first line of the next strip commits
the pass at that boundary (R305), once no strip granted before is still to run. -/
def execStripGrant (t : Instant) (c : CoreId) (n : Inlet) (s : State) : Result :=
  let s := s.at t
  let k := s.core c.val
  let x := s.inlet c.val n
  if !k.active || !k.run.arr.asks x || !x.grantable then .next s
  else if x.ahead = 0 ∧ x.ends.contains x.head then
    .next ((s.setInlet c.val n { x with ends := x.ends.erase x.head }).commitPass c.val false 0)
  else .next ((s.setInlet c.val n { x with ahead := x.ahead + 1, since := none, stalled := false }).askBoth c.val)

/-- A strip runs: both inlets have granted it (R303). -/
def Core.stripRuns (k : Core) : Bool :=
  k.run.arr.pass && decide (0 < k.run.str.west.ahead) && decide (0 < k.run.str.north.ahead)

/-- An end stands within the strip, or at its end. -/
def InletSt.reaches (x : InletSt) : Bool := x.ends.any (fun e => decide (e ≤ x.head + x.stripLen))

/-- The strip's 128 beats have passed. -/
def State.endStrip (s : State) (c : Nat) (g : ArrCfg) : State :=
  let k := s.core c
  let w := k.run.str.west
  let n := k.run.str.north
  let (acc, f, live) := stripWork k g
  let gated := 128 * 16384 - live
  let short (x : InletSt) : Bool := decide (x.stripLen < stripLines x.fmt.toNat)
  let real := max (w.stripLen * lineBeats w.fmt.toNat) (n.stripLen * lineBeats n.fmt.toNat)
  let s := s.modArr c (fun a => { a with acc := acc, done := a.done + 1, beats := min (a.beats + 128) (2 ^ 64 - 1),
                                         gated := min (a.gated + gated) (2 ^ 64 - 1) })
  let s := (s.raise c (arrFlags f)).modCore c (fun k => { k with budgetBeats := k.budgetBeats - 128 })
  let s := ((s.countCore c 1 128).countCore c 2 gated).modStr c (fun r => { r with west := w.release, north := n.release })
  if w.reaches || n.reaches || decide ((s.core c).run.arr.done = g.strips) then
    s.commitPass c (short w || short n) (if short w || short n then real else 0)
  else ((s.resetInlet c .west).resetInlet c .north).askBoth c

/-- STRIP_END (R297); a pinned core needs a budget of 128 beats (R60), and for a pass's first strip a pace token since both
inlets granted it (R62). It runs on while the core is being saved: the
granted strips drain (R307). -/
def execStripEnd (t : Instant) (c : CoreId) (s : State) : Result :=
  let s := s.at t
  let k := s.core c.val
  match k.run.arr.cfg with
  | none => .next s
  | some g =>
    if !(k.active || decide (k.mode = .saving)) || !k.stripRuns
        || (s.pinned c.val && (decide (k.budgetBeats < 128) || !(k.run.arr.begun || decide (0 < k.run.arr.done)))) then .next s
    else .next (s.endStrip c.val g)

/-- BEAT_TIMEOUT (R312): an ARRAY fault with DETAIL CELL while a strip runs. -/
def execBeatTimeout (t : Instant) (c : CoreId) (s : State) : Result :=
  let s := s.at t
  if (s.core c.val).stripRuns then .next (s.arrFault c.val 5) else .next s

/-! ## AOUT (R298, R299) -/

/-- One row converted into the output format and written at its place. -/
def State.writeRow (s : State) (c addr size i : Nat) (row : List (Nat × Flags)) : State :=
  ((s.nearStore c (addr + i * 128 * size) (row.flatMap (fun v => leBytes size v.1))).raise c (arrFlags (orFlags row)))

/-- Rows `i` to 127 of the tile are written; with row statistics each passes through the unit first, and what EMIT puts in place of
a row is binary32 (R345). -/
def State.writeRows (c addr f size : Nat) (rs : Option Rstat) (src : Nat) : Nat → Nat → State → State
  | 0, _, s => s
  | fuel + 1, i, s =>
    let row := (List.range 128).map (fun j => (AMap.get 0 (s.core c).run.arr.acc (128 * i + j)).toNat)
    match rs with
    | none => State.writeRows c addr f size rs src fuel (i + 1) (s.writeRow c addr size i (row.map (convert src f 0 false)))
    | some r =>
      match s.rowStat c r i row with
      | none => s.sfuFault c 4 6
      | some (row, s) =>
        let s := (s.writeRow c addr size i (row.map (convert (if r.emit then 0 else src) f 0 false))).modSfu c (fun x => { x with rows := sat32 (x.rows + 1) })
        State.writeRows c addr f size rs src fuel (i + 1) s

/-- AOUT_DONE (R298): the tile is in the near store; a pinned core's beat-times count (R302). Before any commit the tile
is zeros. -/
def execAoutDone (t : Instant) (c : CoreId) (s : State) : Result :=
  let s := s.at t
  let k := s.core c.val
  match k.run.arr.out with
  | some (.out addr md rs) =>
    let f := md.toNat % 16
    let size := outSize k.run.arr.int k.run.arr.tile f
    if !(k.active || decide (k.mode = .saving)) || (s.pinned c.val && decide (k.budgetBeats < outBeats size)) then .next s
    else
      let src := if k.run.arr.tile then (if k.run.arr.int then 8 else 0) else (if fmtInt f then 8 else 0)
      let s := s.modCore c.val (fun k => { k with budgetBeats := k.budgetBeats - outBeats size })
      let s := State.writeRows c.val addr.toNat f size rs src 128 0
        (s.modArr c.val (fun a => { a with out := none, written := a.written || a.tile }))
      .next s
  | _ => .next s

end Sys2Proof.Machine
end

