-- ==== Sys2Proof/Machine/Stream.lean ====
section
/-!
DEFINITION. The stream engine (ch. 13): SQ, SQDEF, SQSTAT (R370-R373), the checks of a descriptor at its start (R374-R380,
R383, R385, R387, R415), bursts with conversion and skew (R378-R386, R393), completion and end of stream (R390), faults
(R391, R395) and stalls (R389).
-/
namespace Sys2Proof.Machine

/-! ## The descriptor (R374) -/

/-- A descriptor's fields. -/
structure Desc where
  ss : Nat
  sreg : Nat
  sf : Nat
  df : Nat
  soff : Nat
  ds : Nat
  dreg : Nat
  skew : Nat
  rnd : Nat
  eos : Bool
  sat : Bool
  mx : Bool
  blk : Nat
  ndim : Nat
  doff : Nat
  counts : List Nat
  strides : List Int
  scoff : Nat
deriving DecidableEq, Repr

/-- The fields of four words; dimensions that are not used repeat once. -/
def descOf (ws : List W64) : Desc :=
  let w0 := (ws.getD 0 0).toNat
  let w1 := (ws.getD 1 0).toNat
  let w2 := (ws.getD 2 0).toNat
  let w3 := (ws.getD 3 0).toNat
  let n := bits w1 44 42
  let scaled := bit w1 46 && decide (bits w0 47 44 = bits w0 43 40)
  { ss := bits w0 63 60, sreg := bits w0 59 54, sf := bits w0 47 44, df := bits w0 43 40, soff := bits w0 39 0,
    ds := bits w1 63 60, dreg := bits w1 59 54, skew := bits w1 53 52, rnd := bits w1 51 50, eos := bit w1 48, sat := bit w1 47,
    mx := bit w1 46, blk := if bit w1 45 then 16 else 32, ndim := n, doff := bits w1 39 0,
    counts := [0, 1, 2, 3].map (fun d => if d < n then bits w2 (16 * d + 15) (16 * d) else 1),
    strides := [0, signed 21 (bits w3 20 0), signed 21 (bits w3 41 21), if scaled then 0 else signed 21 (bits w3 62 42)],
    scoff := if scaled then bits w3 62 42 else 0 }

def Desc.count (d : Desc) (i : Nat) : Nat := d.counts.getD i 1
/-- The source is already block-scaled (R380). -/
def Desc.scaled (d : Desc) : Bool := d.mx && decide (d.sf = d.df)
/-- The descriptor is Empty (R376). -/
def Desc.empty (d : Desc) : Bool := decide (d.ndim = 0) || d.counts.contains 0
/-- The descriptor's inlet, if its destination is one. -/
def Desc.inlet (d : Desc) : Option Inlet := inletOf d.ds

/-- R374-R380, R385, R415: the words break a rule, on a tower with the features `fp` (FP6_FP4) and `mx16`. -/
def badDesc (ws : List W64) (fp mx16 : Bool) : Bool :=
  let w0 := (ws.getD 0 0).toNat
  let w1 := (ws.getD 1 0).toNat
  let w2 := (ws.getD 2 0).toNat
  let w3 := (ws.getD 3 0).toNat
  let d := descOf ws
  let n := d.ndim
  let c0 := bits w2 15 0
  let six (f : Nat) : Bool := decide (5 ≤ f) && decide (f ≤ 7)
  let named (sp : Nat) : Bool := decide (sp = 2) || decide (sp = 5)
  let stride (i : Nat) : Nat := bits w3 (21 * i - 1) (21 * i - 21)
  decide (bits w0 53 48 ≠ 0) || decide (bits w1 41 40 ≠ 0) || bit w3 63 || !(([0, 1, 2, 5] : List Nat).contains d.ss) || decide (5 < d.ds)
    || (!named d.ss && decide (d.sreg ≠ 0)) || (!named d.ds && decide (d.dreg ≠ 0)) || decide (4 < n)
    || [0, 1, 2, 3].any (fun i => decide (n ≤ i) && decide (bits w2 (16 * i + 15) (16 * i) ≠ 0))
    || [1, 2, 3].any (fun i => decide (n ≤ i) && decide (stride i ≠ 0) && !(d.scaled && decide (i = 3)))
    || (d.scaled && decide (3 < n))
    || ((decide (d.ss = 5) || decide (d.ds = 5)) &&
        (decide (d.sf ≠ 8) || decide (d.df ≠ 8) || decide (n ≠ 1) || decide (d.skew ≠ 0) || d.mx
          || decide (c0 % (if d.ds = 5 then 8 else 2) ≠ 0)))
    || !convertible d.sf d.df || ((six d.sf || six d.df) && !fp) || (bit w1 45 && !(d.mx && mx16))
    || (d.mx && !(blockFmt d.df && (decide (d.sf < 3) || d.scaled)))
    || [d.sf, d.df].any (fun f => (decide (fmtBits f = 6) && decide (c0 % 4 ≠ 0)) || (decide (fmtBits f = 4) && decide (c0 % 2 ≠ 0)))
    || (match d.inlet with
        | some _ => decide (d.skew = 0) || decide (d.skew = 3) || decide (fmtGroup d.df = 0)
            || (decide (d.skew = 2) && decide (128 < c0)) || (decide (d.skew = 1) && decide (128 < d.count 1))
        | none => decide (d.skew ≠ 0))

/-! ## Geometry -/

/-- Runs of dimension 0. -/
def Desc.runs (d : Desc) : Nat := d.count 1 * d.count 2 * d.count 3
/-- Blocks of a run (R380). -/
def Desc.runBlocks (d : Desc) : Nat := (d.count 0 + d.blk - 1) / d.blk
/-- Bytes of `n` elements of a format. -/
def fmtBytes (f n : Nat) : Nat := (n * fmtBits f + 7) / 8
/-- K elements of a descriptor to an inlet (R385). -/
def Desc.kElems (d : Desc) : Nat := if d.skew = 1 then d.count 0 * d.count 2 * d.count 3 else d.runs

/-- The source address of dimension indices 1 to 3 (R375). -/
def Desc.base (d : Desc) (i1 i2 i3 : Nat) : Int :=
  (d.soff : Int) + 16 * (i1 * d.strides.getD 1 0 + i2 * d.strides.getD 2 0 + i3 * d.strides.getD 3 0)

/-- The source address of run r. -/
def Desc.runAt (d : Desc) (r : Nat) : Nat :=
  (d.base (r % d.count 1) (r / d.count 1 % d.count 2) (r / d.count 1 / d.count 2)).toNat

/-- The lowest source address and the end of the highest run. -/
def Desc.extent (d : Desc) : Int × Int :=
  let ends (i : Nat) : Int := 16 * ((d.count i : Int) - 1) * d.strides.getD i 0
  ((d.soff : Int) + min 0 (ends 1) + min 0 (ends 2) + min 0 (ends 3),
   (d.soff : Int) + max 0 (ends 1) + max 0 (ends 2) + max 0 (ends 3) + fmtBytes d.sf (d.count 0))

/-- Groups of 128 positions that a packed destination's dimension 1 makes (R380). -/
def Desc.posGroups (d : Desc) : Nat := (d.count 1 + 127) / 128

/-- Bytes of a scaled source's scales (R380): 128 for each block, one for each position. On its way to a packed destination a
source's positions run along dimension 1, its blocks along dimension 0 (DEDUCED, notes/assumptions/50.md). -/
def Desc.scaleBytes (d : Desc) : Nat :=
  if !d.scaled then 0
  else match d.inlet with
    | some _ => 128 * ((d.kElems + d.blk - 1) / d.blk)
    | none => 128 * (d.count 2 * d.count 3 * d.posGroups * d.runBlocks)

/-- Where the scale of block b of run r of a scaled source lies (R380). -/
def Desc.scaleAt (d : Desc) (r b : Nat) : Nat :=
  let i1 := r % d.count 1
  d.soff + 16 * d.scoff + 128 * ((r / d.count 1 * d.posGroups + i1 / 128) * d.runBlocks + b) + i1 % 128

/-- Bytes of a packed destination (R378, R380): elements, then scales. -/
def Desc.packedBytes (d : Desc) : Nat :=
  d.runs * fmtBytes d.df (d.count 0) + (if d.mx then d.runs * d.runBlocks else 0)

/-- The end of a space, as a source or as a destination. -/
def spaceEnd (sp : Nat) (dst : Bool) : Int :=
  match sp with
  | 0 => if dst then nsStoreEnd else nsLoadEnd
  | 1 => sliceBytes
  | _ => 2 ^ 40

/-- A window offset of an NBU (R414): nothing but the stack, the pseudo-channel and the port, the port being the command
port for a write and the result port for a read. -/
def nbuOffset (a : Nat) (dst : Bool) : Bool :=
  decide (a < 2 ^ 21) && decide (a % 2 ^ 11 = 0) && decide (bit a 11 = !dst)

/-- A source or a destination beyond its space, or a ring outside the program data area (R383, R395). -/
def Desc.outOfRange (d : Desc) : Bool :=
  let (lo, hi) := d.extent
  let src := if d.ss = 5 then nbuOffset d.soff false
    else decide (0 ≤ lo) && decide (hi ≤ spaceEnd d.ss false)
      && decide (((d.soff + 16 * d.scoff + d.scaleBytes : Nat) : Int) ≤ spaceEnd d.ss false)
  let dst := match d.inlet with
    | some _ => decide (d.doff + ringBytes d.df d.mx ≤ nsStoreEnd)
    | none => if d.ds = 5 then nbuOffset d.doff true else decide (((d.doff + d.packedBytes : Nat) : Int) ≤ spaceEnd d.ds true)
  !src || !dst

/-! ## Issue (R370-R373) -/

/-- The queue has room. -/
def Core.sqRoom (k : Core) : Bool := decide (k.run.str.queue.length < 8)

/-- A descriptor enters the queue; its position is the slot of a circular queue of eight (DEDUCED, notes/assumptions/49.md). -/
def State.sqPush (s : State) (c : Nat) (ws : List W64) : State :=
  s.modStr c (fun r => { r with queue := r.queue ++ [(r.issued % 8, ws)], issued := r.issued + 1 })

/-- SQ (R370). -/
def execSq (i : Issue) (s : State) : Result :=
  .next (s.issue i 5 0x00 (i.uses false true false 0 immAll)
    (fun k => faults [loadFault (i.address k) 32 32, eccFault i.data]) Core.sqRoom
    (fun s =>
      let k := s.core i.c
      (s.noteNear i.c i.data).sqPush i.c
        ((List.range 4).map (fun j => BitVec.ofNat 64 (k.nearNat (i.address k + 8 * j) 8)))))

/-- The defaults of core c: its STREAM_DEF records in record order (R372). -/
def State.defaults (s : State) (c : Nat) : List (List W64) :=
  match (s.coreOwner c).bind s.image with
  | some i => (i.streams.filter (fun r => decide (r.core = c))).flatMap StreamDef.descs
  | none => []

/-- SQDEF (R372); an entry beyond the defaults holds no words, and faults when it comes to start. -/
def execSqdef (i : Issue) (s : State) : Result :=
  .next (s.issue i 5 0x01 (i.uses false false false 0 immAll) noFault Core.sqRoom
    (fun s => s.sqPush i.c ((s.defaults i.c).getD i.imm.toNat [])))

/-- The descriptors that run. -/
def Str.running (r : Str) : Nat := (r.lanes.filter (fun x => x.2.isSome)).length

/-- SQSTAT (R373). -/
def execSqstat (i : Issue) (s : State) : Result :=
  .next (s.issue i 5 0x02 (i.uses true false false 0 0) noFault always
    (fun s =>
      let r := (s.core i.c).run.str
      s.setReg i.c i.d (BitVec.ofNat 64 (r.done % 2 ^ 32 + 2 ^ 32 * r.queue.length + 2 ^ 36 * r.running))))

/-! ## Faults (R391, R395) -/

/-- The producer of an inlet has faulted: the inlet delivers a poisoned end, which a pass that runs takes (R388, R306). STR_WIN and
STR_NIN show POISON until the next launch begins on the core. -/
def State.poisonEnd (s : State) (c : Nat) : Option Inlet → State
  | none => s
  | some n =>
    let s := s.setInlet c n { s.inlet c n with poison := true }
    if (s.core c).run.arr.pass then s.modArr c (fun a => { a with poison := true }) else s

/-- A STREAM fault of the descriptor at a queue position. -/
def State.strFault (s : State) (c pos : Nat) (n : Option Inlet) (reason : Nat) : State :=
  (((s.poisonEnd c n).modStr c (fun r => { r with valid := true, pos := pos, reason := reason })).imprecise c 0x11 pos 0)

/-- What a read of a source met: a slice error (R356), or a reason of R395. -/
inductive SrcFault where
  | slice (detail addr : Nat)
  | reason (n : Nat)
deriving DecidableEq, Repr

/-- The producer's fault. -/
def State.srcFault (s : State) (c pos : Nat) (n : Option Inlet) : SrcFault → State
  | .slice d a => (s.poisonEnd c n).sliceFault c (some (d, a))
  | .reason r => s.strFault c pos n r

/-! ## Start (R371, R387) -/

/-- A free lane. -/
def Str.freeLane (r : Str) : Option Nat := [0, 1, 2, 3].find? (fun i => (AMap.get none r.lanes i).isNone)

/-- End of stream is signalled (R390): it stands after the lines written so far, and the next line begins a new strip. -/
def InletSt.signalEnd (x : InletSt) : InletSt :=
  { x with ends := x.ends ++ [x.tail], writeStrip := if x.writeLine = 0 then x.writeStrip else x.writeStrip + 1, writeLine := 0 }

/-- The inlet takes the descriptor's ring (R387); `none` where it does not match. -/
def InletSt.takes (x : InletSt) (d : Desc) : Option InletSt :=
  if x.base.isNone ∨ (x.head = x.tail ∧ x.ends = []) then
    some { base := some d.doff, fmt := BitVec.ofNat 4 d.df, blk16 := decide (d.blk = 16), mx := d.mx, ends := x.ends,
           ahead := x.ahead, since := x.since, stalled := x.stalled }
  else if x.base = some d.doff ∧ lineSize x.fmt.toNat = lineSize d.df then some x
  else none

/-- The head of the queue starts in lane `l`. -/
def State.startDesc (s : State) (c l pos : Nat) (ws : List W64) : State :=
  let w := coreTower c
  let d := descOf ws
  let start (s : State) : State := s.modStr c (fun r => { r with lanes := AMap.put none r.lanes l (some { pos := pos, words := ws }) })
  if ws = [] then s.strFault c pos none 4
  else if badDesc ws (s.towerFeature w 0) (s.towerFeature w 1) then s.strFault c pos d.inlet 1
  else if d.empty then
    let s := s.modStr c (fun r => { r with done := (r.done + 1) % 2 ^ 32 })
    match d.inlet with
    | some n => if d.eos then s.setInlet c n (s.inlet c n).signalEnd else s
    | none => s
  else if d.inlet.isSome ∧ d.doff % 512 ≠ 0 then s.strFault c pos d.inlet 3
  else if d.outOfRange then s.strFault c pos d.inlet 2
  else
    match d.inlet with
    | some n =>
      match (s.inlet c n).takes d with
      | some x => start (s.setInlet c n x)
      | none => s.strFault c pos d.inlet 6
    | none => start s

/-- The head of the queue has to wait for an earlier descriptor to its inlet (R371). -/
def Str.inletBusy (r : Str) (ws : List W64) : Bool :=
  match (descOf ws).inlet with
  | some n => r.feeds n
  | none => false

/-- DESCRIPTOR_START (R371). -/
def execDescriptorStart (t : Instant) (c : CoreId) (s : State) : Result :=
  let s := s.at t
  let k := s.core c.val
  match k.run.str.queue, k.run.str.freeLane with
  | (pos, ws) :: q, some l =>
    if k.active && !k.run.str.inletBusy ws then
      .next ((s.modStr c.val (fun r => { r with queue := q })).startDesc c.val l pos ws)
    else .next s
  | _, _ => .next s

/-! ## Reading a source -/

/-- All that the checks of a burst find. -/
structure Checks where
  found : Found
  digits : Digits

/-- Runs of bytes of the source (R391): read, each word checked once, or the producer's fault. -/
def State.srcBytes (s : State) (c : Nat) (d : Desc) (e : Checks) (runs : List (Nat × Nat)) : Bytes × Option SrcFault × State :=
  let len := (runs.map Prod.snd).sum
  match d.ss with
  | 0 => (runs.flatMap (fun r => Memory.readN (s.core c).near r.1 r.2), none, s)
  | 1 =>
    let (bs, f, s) := s.sliceReads c runs e.found.upsets e.digits.linkIn
    (bs, f.map (fun x => SrcFault.slice x.1 x.2), if f.isSome then s else s.countCore c 8 len)
  | 5 =>
    let (bs, bad, s) := s.nbuResults (bits d.soff 20 18) (bits d.soff 17 12) d.sreg c (len / 8)
    (bs, if bad then some (.reason 5) else none, s)
  | _ =>
    match s.coreOwner c with
    | none => ([], some (.reason 5), s)
    | some n =>
      let (bs, bad, refused, s) := s.coreReads n d.sreg c runs e.found.upsets
      (bs, if refused then some (.reason 5) else if bad then some (.reason 7) else none, s)

/-- `count` codes from element `first` of what lies at an address. -/
structure Codes where
  addr : Nat
  first : Nat
  count : Nat
deriving DecidableEq, Repr

/-- The bytes that hold some codes of the source. -/
def Desc.byteRun (d : Desc) (q : Codes) : Nat × Nat :=
  let lo := q.first * fmtBits d.sf
  (q.addr + lo / 8, (lo % 8 + q.count * fmtBits d.sf + 7) / 8)

/-- The codes that those bytes hold. -/
def Desc.codesOf (d : Desc) (q : Codes) (bs : Bytes) : List Nat :=
  elems (leNat bs / 2 ^ (q.first * fmtBits d.sf % 8)) (fmtBits d.sf) q.count

/-- The codes of several runs, from their bytes in turn, and the bytes that follow. -/
def Desc.codesAll (d : Desc) : List Codes → Bytes → List (List Nat) × Bytes
  | [], bs => ([], bs)
  | q :: qs, bs =>
    let n := (d.byteRun q).2
    let (xs, rest) := Desc.codesAll d qs (bs.drop n)
    (d.codesOf q (bs.take n) :: xs, rest)

/-- The codes of several runs, and the bytes of further runs of scales, in one request of each word. -/
def State.srcCodes (s : State) (c : Nat) (d : Desc) (e : Checks) (qs : List Codes) (scales : List (Nat × Nat)) :
    List (List Nat) × Bytes × Option SrcFault × State :=
  let (bs, f, s) := s.srcBytes c d e (qs.map d.byteRun ++ scales)
  let (xs, rest) := d.codesAll qs bs
  (xs, rest, f, s)

/-- The codes that make K element k (R385): along dimension 0, or one of every dimension-1 row. -/
def Desc.kCodes (d : Desc) (k : Nat) : List Codes :=
  if d.skew = 1 then
    let r := k / d.count 0
    (List.range (d.count 1)).map (fun p => { addr := (d.base p (r % d.count 2) (r / d.count 2)).toNat, first := k % d.count 0, count := 1 })
  else [{ addr := d.runAt k, first := 0, count := d.count 0 }]

/-- K elements from `k`, at most `n` of them. -/
def Desc.kRange (d : Desc) (k n : Nat) : List Nat := ((List.range n).map (fun i => k + i)).filter (fun k => decide (k < d.kElems))

/-- Elements of 128 positions from the codes of their runs: positions beyond the count are `none`. -/
def kElemsOf (per : Nat) (xs : List (List Nat)) : List (List (Option Nat)) :=
  (chunks per xs.length xs).map (fun g => (List.range 128).map (fun p => g.flatten[p]?))

/-! ## Conversion (R379, R380) -/

/-- An element converted without a block scale. -/
def Desc.convert (d : Desc) (x : Nat) : Nat × Flags := Machine.convert d.sf d.df d.rnd d.sat x

/-- An element given its format under a scale. -/
def Desc.scaledElem (d : Desc) (scale x : Nat) : Nat × Flags :=
  if d.scaled then (x, 0) else blockElem d.df d.rnd d.sat scale (decodeNum d.sf x)

/-! ## Writing a destination -/

/-- Runs of bytes written to a packed destination (R378); a refused region write is dropped (R206). -/
def State.dstWrite (s : State) (c : Nat) (d : Desc) (e : Checks) (runs : List (Nat × Bytes)) : Option SrcFault × State :=
  match d.ds with
  | 0 => (none, s.each runs (fun s r => s.nearStore c r.1 r.2))
  | 1 =>
    let (f, s) := s.sliceWrite c runs e.found.rmw e.digits.linkOut
    (f.map (fun x => SrcFault.slice x.1 x.2), if f.isSome then s else s.countCore c 9 (runs.map (fun r => r.2.length)).sum)
  | _ =>
    match s.coreOwner c with
    | none => (none, s)
    | some n => (none, s.each runs (fun s r => s.coreWrites n d.dreg r.1 c r.2))

/-- Bytes that the burst has written count (R396, R580, R382). -/
def State.wrote (s : State) (c n : Nat) : State :=
  ((s.modStr c (fun r => { r with bytes := (r.bytes + n) % 2 ^ 64 })).modCore c
    (fun k => { k with budgetStream := k.budgetStream - n })).countCore c 7 n

/-- A lane after a burst. -/
def State.laneDone (s : State) (c l : Nat) (x : Lane) (finished : Bool) : State :=
  s.modStr c (fun r => { r with lanes := AMap.put none r.lanes l (some { x with done := x.done + 1, finished := finished }) })

/-! ## Bursts to a packed destination (R378, R393) -/

/-- Elements of a burst: at most 1 KiB, whole bytes, and whole blocks with their scales. -/
def Desc.unit (d : Desc) : Nat :=
  if d.mx then 8192 / (d.blk * fmtBits d.df + 8) * d.blk
  else
    let g := if fmtBits d.df = 6 ∨ fmtBits d.sf = 6 then 4 else if fmtBits d.df = 4 ∨ fmtBits d.sf = 4 then 2 else 1
    8192 / fmtBits d.df / g * g

/-- The bursts of a run. -/
def Desc.runBursts (d : Desc) : Nat := (d.count 0 + d.unit - 1) / d.unit

/-- The run, the first element and the count of burst `b`. -/
def Desc.burst (d : Desc) (b : Nat) : Nat × Nat × Nat :=
  let j := b % d.runBursts * d.unit
  (b / d.runBursts, j, min d.unit (d.count 0 - j))

/-- Bytes that burst `b` writes. -/
def Desc.burstBytes (d : Desc) (b : Nat) : Nat :=
  let (_, _, n) := d.burst b
  fmtBytes d.df n + (if d.mx then (n + d.blk - 1) / d.blk else 0)

/-- The blocks of a packed burst's elements, and their scales: read from a scaled source, or formed (R329). -/
def Desc.packedScales (d : Desc) (xs : List Nat) (read : Bytes) : List Nat :=
  if !d.mx then []
  else if d.scaled then read.map BitVec.toNat
  else (chunks d.blk xs.length xs).map (fun b => blockScale d.df (b.map (decodeNum d.sf)))

/-- A burst of a packed destination: its elements, and with MX one scale for each block of dimension 0 after all elements. -/
def State.packedBurst (s : State) (c l : Nat) (x : Lane) (d : Desc) (e : Checks) : State :=
  let (r, j, n) := d.burst x.done
  let first := j / d.blk
  let reads := if d.scaled then (List.range ((n + d.blk - 1) / d.blk)).map (fun b => (d.scaleAt r (first + b), 1)) else []
  let (xs, read, f, s) := s.srcCodes c d e [{ addr := d.runAt r, first := j, count := n }] reads
  match f with
  | some f => s.srcFault c x.pos none f
  | none =>
    let xs := xs.flatten
    let scales := d.packedScales xs read
    let out := if d.mx then xs.zipIdx.map (fun (v, i) => d.scaledElem (scales.getD (i / d.blk) 0) v) else xs.map d.convert
    let data := leBytes (fmtBytes d.df n) (packElems (fmtBits d.df) (out.map Prod.fst))
    let (f, s) := s.dstWrite c d e ((d.doff + (r * d.count 0 + j) * fmtBits d.df / 8, data) ::
      (if d.mx then [(d.doff + d.runs * fmtBytes d.df (d.count 0) + r * d.runBlocks + first, scales.map (BitVec.ofNat 8))] else []))
    match f with
    | some f => s.srcFault c x.pos none f
    | none =>
      ((s.raise c (orFlags out)).wrote c (d.burstBytes x.done)).laneDone c l x (decide (x.done + 1 = d.runs * d.runBursts))

/-! ## Bursts to an NBU's command port (R417) -/

/-- One command of 32 bytes enters the queue; while the queue is full the descriptor waits. -/
def State.nbuBurst (s : State) (c l : Nat) (x : Lane) (d : Desc) (e : Checks) : State :=
  let (bs, f, s') := s.srcBytes c d e [(d.soff + 32 * x.done, 32)]
  match f with
  | some f => s'.srcFault c x.pos none f
  | none =>
    match s'.nbuPush (bits d.doff 20 18) (bits d.doff 17 12) d.dreg c bs with
    | none => s
    | some s' => (s'.wrote c 32).laneDone c l x (decide (8 * (x.done + 1) = d.count 0))

/-! ## Bursts to an inlet (R383-R387) -/

/-- Ring lines of one K element, or K elements of one line, by group (R383, R384). -/
def Desc.linesPer (d : Desc) : Nat := if fmtGroup d.df = 3 then 2 else if fmtGroup d.df = 4 then 4 else 1
def Desc.elemsPer (d : Desc) : Nat := if fmtGroup d.df = 2 then 2 else 1
/-- Ring lines of the descriptor. -/
def Desc.lines (d : Desc) : Nat := (d.kElems + d.elemsPer - 1) / d.elemsPer * d.linesPer

/-- The first K element of the line that comes next. -/
def Desc.lineElem (d : Desc) (line : Nat) : Nat := line / d.linesPer * d.elemsPer
/-- The line begins a block. -/
def Desc.opensBlock (d : Desc) (line : Nat) : Bool := d.mx && decide (d.lineElem line % d.blk = 0)
/-- Bytes that a line writes, its block's scales included. -/
def Desc.lineBytes (d : Desc) (line : Nat) : Nat := lineSize d.df + (if d.opensBlock line then 128 else 0)

/-- The address of the scale slot of the block the next line belongs to (R383). -/
def InletSt.slot (x : InletSt) (d : Desc) : Nat := scaleAt x x.writeStrip (x.writeLine * d.elemsPer / d.blk)

/-- The scale line of a block: as read from a scaled source, or formed at each position of its elements. -/
def Desc.blockScales (d : Desc) (es : List (List (Option Nat))) (read : Bytes) : Bytes :=
  if d.scaled then read
  else (List.range 128).map (fun p =>
    BitVec.ofNat 8 (blockScale d.df (es.filterMap (fun x => (x.getD p none).map (decodeNum d.sf)))))

/-- A line written in the ring, and end of stream after the last line of a descriptor with EOS. -/
def InletSt.wroteLine (x : InletSt) (last : Bool) : InletSt :=
  let full := decide (x.writeLine + 1 = stripLines x.fmt.toNat)
  let y := { x with tail := x.tail + 1, writeLine := if full then 0 else x.writeLine + 1,
                    writeStrip := if full then x.writeStrip + 1 else x.writeStrip }
  if last then y.signalEnd else y

/-- A burst of one ring line: the line that opens a block reads the whole block, or its scales from a scaled source. -/
def State.lineBurst (s : State) (c l : Nat) (x : Lane) (d : Desc) (n : Inlet) (e : Checks) : State :=
  let y := s.inlet c n
  let k := d.lineElem x.done
  let opens := d.opensBlock x.done
  let ks := d.kRange k (if opens && !d.scaled then d.blk else d.elemsPer)
  let (xs, read, f, s) := s.srcCodes c d e (ks.flatMap d.kCodes)
    (if opens && d.scaled then [(d.soff + 16 * d.scoff + 128 * (k / d.blk), 128)] else [])
  match f with
  | some f => s.srcFault c x.pos (some n) f
  | none =>
    let es := kElemsOf (d.kCodes k).length xs
    let s := if opens then s.nearStore c (y.slot d) (d.blockScales es read) else s
    let sc := if d.mx then (Memory.readN (s.core c).near (y.slot d) 128).map BitVec.toNat else []
    let out := (es.take d.elemsPer).map (fun codes => codes.zipIdx.map (fun (v, p) =>
      match v with
      | some v => if d.mx then d.scaledElem (sc.getD p 0) v else d.convert v
      | none => (0, 0)))
    let line := makeLine d.df (x.done % d.linesPer) (out.map (fun codes => codes.map Prod.fst))
    let last := decide (x.done + 1 = d.lines)
    let s := s.writeLine c y y.tail line
    let s := s.setInlet c n (y.wroteLine (last && d.eos))
    ((s.raise c (orFlags out.flatten)).wrote c (d.lineBytes x.done)).laneDone c l x last

/-- STREAM_BURST (R393): one ring line, one command of an NBU, or at most 1 KiB. A pinned core needs the burst's bytes in
its budget (R382). -/
def execStreamBurst (t : Instant) (c : CoreId) (lane : Fin 4) (found : Found) (digits : Digits) (s : State) : Result :=
  let s := s.at t
  let e : Checks := { found := found, digits := digits }
  let c := c.val
  let k := s.core c
  match AMap.get none k.run.str.lanes lane.val with
  | none => .next s
  | some x =>
    let d := descOf x.words
    let short (n : Nat) : Bool := s.pinned c && decide (k.budgetStream < n)
    if !k.active || x.finished then .next s
    else
      match d.inlet with
      | some n =>
        if (s.inlet c n).full || short (d.lineBytes x.done) then .next s
        else .next (s.lineBurst c lane.val x d n e)
      | none =>
        if d.ds = 5 then
          (if short 32 then .next s else .next (s.nbuBurst c lane.val x d e))
        else if short (d.burstBytes x.done) then .next s
        else .next (s.packedBurst c lane.val x d e)

/-- DESCRIPTOR_COMPLETE (R371, R390). -/
def execDescriptorComplete (t : Instant) (c : CoreId) (lane : Fin 4) (s : State) : Result :=
  let s := s.at t
  let c := c.val
  match AMap.get none (s.core c).run.str.lanes lane.val with
  | none => .next s
  | some x =>
    if !(s.core c).active || !x.finished then .next s
    else
      let s := s.modStr c (fun r => { r with lanes := AMap.put none r.lanes lane.val none, done := (r.done + 1) % 2 ^ 32 })
      match (descOf x.words).inlet with
      | some n => .next (s.resetInlet c n)
      | none => .next s

/-! ## Waiting (R389, R392) -/

/-- STRIP_STALL_TIMEOUT (R389): one stall for a request that has waited longer than the limit. -/
def execStripStallTimeout (t : Instant) (c : CoreId) (n : Inlet) (s : State) : Result :=
  let s := s.at t
  let c := c.val
  let k := s.core c
  let x := s.inlet c n
  let limit := 1000 * bits k.stallLimit.toNat 19 0
  match x.since with
  | none => .next s
  | some t0 =>
    if limit = 0 ∨ x.stalled ∨ x.grantable ∨ s.clock - t0 ≤ limit then .next s
    else
      .next (((s.setInlet c n { x with stalled := true }).modCore c (fun k => { k with stalls := k.stalls.add 1 })).countCore c 0x10 1)

/-- A running descriptor waits only for ring space while no pass runs or is queued (R392). -/
def Core.laneIdle (k : Core) (x : Lane) : Bool :=
  !x.finished && !k.run.arr.pass && !k.run.arr.queue.contains .pass
    && (match (descOf x.words).inlet with
        | some n => (k.run.str.inlet n).full
        | none => false)

/-- STR_IDLE of R243 and the stream's part of FENCE and END (R246, R248, R392). -/
def Core.strIdle (k : Core) : Bool :=
  k.run.str.queue.isEmpty && k.run.str.lanes.all (fun x => match x.2 with
    | some l => k.laneIdle l
    | none => true)

/-- What END does with the descriptors that wait only for ring space (R392): they and their rings' lines are discarded. -/
def State.dropLeftover (s : State) (c : Nat) : State :=
  let r := (s.core c).run.str
  if r.running = 0 then s
  else s.modStr c (fun r => { r with lanes := [], west := if r.feeds .west then {} else r.west,
                                     north := if r.feeds .north then {} else r.north, leftover := true })

/-! ## Near-bank requests (R204-R206) -/

/-- The inlet that the running descriptor at a queue position feeds. -/
def Str.inletAt (r : Str) (pos : Nat) : Option Inlet :=
  ((r.lanes.filterMap Prod.snd).find? (fun l => decide (l.pos = pos))).bind (fun l => (descOf l.words).inlet)

/-- A STREAM fault of the running descriptor at a queue position, a poisoned end for the inlet it feeds (R306). -/
def State.laneFault (s : State) (c pos reason : Nat) : State := s.strFault c pos ((s.core c).run.str.inletAt pos) reason

/-- NB_REQUEST (R206) of core c's stream engine for the descriptor at a queue position: a read that is refused or returns poison
is its fault (R391, R409). A core of no partition, or held idle, makes no request (R196). -/
def State.coreRequest (s : State) (c pos : Nat) (r : NbReq) : State :=
  match s.coreOwner c with
  | none => s
  | some n =>
    if (s.core c).mode = .off then s
    else
      match r.write with
      | some bs => s.coreWrites n r.region.val r.offset c bs
      | none =>
        let (bs, bad, refused, s) := s.coreReads n r.region.val c [(r.offset, r.count)] r.upsets
        let s := { s.reads bs with out := { (s.reads bs).out with readStatus := if bad then .poisoned else .ok } }
        if refused then s.laneFault c pos 5 else if bad then s.laneFault c pos 7 else s

/-- NB_REQUEST (R206) of the aperture or the RMA engine for Pn. -/
def State.hubRequest (s : State) (n : Nat) (r : NbReq) : State :=
  match r.write with
  | some bs => s.regionWrite n r.region.val r.offset 0x3FF bs
  | none =>
    let (bs, bad, _, s) := s.regionRead n r.region.val r.offset r.count r.upsets
    { s.reads bs with out := { (s.reads bs).out with readStatus := if bad then .poisoned else .ok } }

/-- NB_REQUEST (R204, R206). -/
def execNbRequest (t : Instant) (r : NbReq) (s : State) : Result :=
  let s := s.at t
  match r.src with
  | .core c pos => .next (s.coreRequest c.val pos.val r)
  | .aperture n => .next (s.hubRequest n.val r)
  | .rma p => .next (s.hubRequest p.val r)

end Sys2Proof.Machine
end

