-- ==== Sys2Proof/Machine/System.lean ====
section
/-!
DEFINITION. Waiting and the system class of a core (ch. 08): WAIT, WAITT, FENCE (R243-R246), END and the end of a core's part
(R248), RDSYS (R247), FAULT (R251), CLRF (R242), faults that units report (R250), the page windows (R260).
-/
namespace Sys2Proof.Machine

/-! ## Conditions (R243) -/

/-- A pass is started and not committed, or waits in the array's queue for its start. -/
def Core.passOpen (k : Core) : Bool := k.run.arr.pass || k.run.arr.queue.contains .pass

/-- An AOUT is queued or runs. -/
def Core.outOpen (k : Core) : Bool :=
  k.run.arr.out.isSome || k.run.arr.queue.any (fun o => match o with
    | .out .. => true
    | _ => false)

/-- The unit conditions that are true now, bits 0 to 4. -/
def Core.units (k : Core) : Nat :=
  nat (!k.passOpen) + 2 * nat (!k.passOpen && !k.outOpen) + 4 * nat k.strIdle + 8 * nat k.sqRoom
    + 16 * nat k.run.sfu.queue.isEmpty

/-- The endpoint's next operation can complete without waiting. -/
def Ep.ready (p : Ep) : Bool := p.valid && (if p.recv then !p.arrivals.isEmpty else decide (0 < p.level))

/-- The endpoint conditions that are true now, bit e for endpoint e. -/
def Core.endpoints (k : Core) : Nat := ((List.range 64).filter (fun e => (k.ep e).ready)).foldl (fun n e => n + 2 ^ e) 0

/-- A selected condition is true. -/
def Core.selected (k : Core) (units : BitVec 16) (eps : W64) : Bool :=
  decide (units &&& BitVec.ofNat 16 k.units ≠ 0) || decide (eps &&& BitVec.ofNat 64 k.endpoints ≠ 0)

/-- The conditions written to RD and RD + 1. -/
def State.putConditions (s : State) (c rd : Nat) : State :=
  let k := s.core c
  (s.setReg c rd (BitVec.ofNat 64 k.units)).setReg c (rd + 1) (BitVec.ofNat 64 k.endpoints)

/-! ## WAIT and WAITT (R243-R245) -/

/-- The unit mask: bits of RS1 above bit 4 are ignored. -/
def unitMask (v : W64) : BitVec 16 := v.setWidth 16 &&& 0x1F

/-- The wait of WAIT and WAITT once issued. -/
def State.startWait (s : State) (c rd : Nat) (units : BitVec 16) (eps : W64) (limit : Option Nat) : State :=
  if units = 0 ∧ eps = 0 then (s.setReg c rd 0).setReg c (rd + 1) 0
  else if (s.core c).selected units eps then s.putConditions c rd
  else s.beginWait c (.cond rd units eps (limit.map (fun n => s.clock + n)))

/-- WAIT (R243, R244). -/
def execWait (i : Issue) (s : State) : Result :=
  .next (s.issue i 8 0x00 (i.uses true true true 0 0 && decide (i.d % 2 = 0)) noFault always
    (fun s =>
      let k := s.core i.c
      s.startWait i.c i.d (unitMask (i.a k)) (i.b k) none))

/-- WAITT (R245). -/
def execWaitt (i : Issue) (s : State) : Result :=
  .next (s.issue i 8 0x01 (i.uses true true true 0 immAll && decide (i.d % 2 = 0)) noFault always
    (fun s =>
      let k := s.core i.c
      if i.imm = 0 then s.putConditions i.c i.d
      else s.startWait i.c i.d (unitMask (i.a k)) (i.b k) (some i.imm.toNat)))

/-- WAIT_COMPLETE (R243): a selected condition is true. -/
def execWaitComplete (t : Instant) (c : CoreId) (s : State) : Result :=
  let s := s.at t
  let k := s.core c.val
  match k.mode, k.run.wait with
  | .waiting, some (.cond rd units eps _, _) =>
    if k.selected units eps then .next ((s.putConditions c.val rd).endWait c.val) else .next s
  | _, _ => .next s

/-- WAITT_TIMEOUT (R245): the limit has passed. -/
def execWaittTimeout (t : Instant) (c : CoreId) (s : State) : Result :=
  let s := s.at t
  let k := s.core c.val
  match k.mode, k.run.wait with
  | .waiting, some (.cond rd _ _ (some limit), _) =>
    if limit ≤ s.clock then .next (((s.setReg c.val rd (BitVec.ofNat 64 (2 ^ 63))).setReg c.val (rd + 1) 0).endWait c.val) else .next s
  | _, _ => .next s

/-! ## FENCE and END (R246, R248) -/

/-- A queued or running descriptor writes the near store. -/
def Core.strWrites (k : Core) : Bool :=
  let near (ws : List W64) : Bool := let d := descOf ws; decide (d.ds = 0) || d.inlet.isSome
  k.run.str.queue.any (fun q => near q.2) || k.run.str.lanes.any (fun x => match x.2 with
    | some l => near l.words && !k.laneIdle l
    | none => false)

/-- Every near-store write issued by a unit of the core is visible (FENCE with MOD 1). -/
def Core.writesDone (k : Core) : Bool :=
  !k.outOpen && !k.strWrites && k.run.sfu.queue.all (fun o => !(o.rs.any Rstat.clear))

/-- The array, the stream engine, the SFU and every send issued are idle (FENCE with MOD 2). -/
def State.unitsIdle (s : State) (c : Nat) : Bool :=
  let k := s.core c
  k.run.arr.queue.isEmpty && !k.run.arr.pass && k.run.arr.out.isNone && k.strIdle && k.run.sfu.queue.isEmpty && !s.sending c

/-- The fence's condition holds. -/
def State.fenced (s : State) (c kind : Nat) : Bool := if kind = 1 then (s.core c).writesDone else s.unitsIdle c

/-- FENCE (R246). -/
def execFence (i : Issue) (s : State) : Result :=
  .next (s.issue i 8 0x02 (i.uses false false false 3 0 && (decide (i.md = 1) || decide (i.md = 2))) noFault always
    (fun s => if s.fenced i.c i.md.toNat then s else s.beginWait i.c (.fence i.md.toNat)))

/-- FENCE_COMPLETE (R246). -/
def execFenceComplete (t : Instant) (c : CoreId) (s : State) : Result :=
  let s := s.at t
  let k := s.core c.val
  match k.mode, k.run.wait with
  | .waiting, some (.fence kind, _) => if s.fenced c.val kind then .next (s.endWait c.val) else .next s
  | _, _ => .next s

/-- END (R248): it waits, and CORE_PART_END ends the part. -/
def execEndPart (i : Issue) (s : State) : Result :=
  .next (s.issue i 9 0x00 (i.uses false false false 0 0) noFault always (fun s => s.beginWait i.c .ending))

/-- CORE_PART_END (R248, R392). -/
def execCorePartEnd (t : Instant) (c : CoreId) (s : State) : Result :=
  let s := s.at t
  let k := s.core c.val
  match k.mode, k.run.wait with
  | .waiting, some (.ending, _) =>
    if s.unitsIdle c.val then
      let s := (s.dropLeftover c.val).endWait c.val
      let n := (s.coreOwner c.val).getD 0
      .next ((s.modCore c.val (fun k => { k with mode := .idle, last := 1 })).coreEnds n c.val k.run.launch 0 k.run)
    else .next s
  | _, _ => .next s

/-! ## System instructions (R242, R247, R251) -/

/-- RDSYS's values (R247). -/
def State.sysValue (s : State) (c sel : Nat) : W64 :=
  let r := (s.core c).run
  match sel with
  | 0 => BitVec.ofNat 64 c
  | 1 => BitVec.ofNat 64 r.graph
  | 2 => r.serial.setWidth 64
  | 3 => s.stamp
  | 4 => BitVec.ofNat 64 s.mono
  | 5 => r.vflags.setWidth 64
  | 6 => BitVec.ofNat 64 r.arr.beats
  | _ => BitVec.ofNat 64 r.preempts

/-- RDSYS (R247). -/
def execRdsys (i : Issue) (s : State) : Result :=
  .next (s.issue i 9 0x01 (i.uses true false false 0 7) noFault always (fun s => s.setReg i.c i.d (s.sysValue i.c i.imm.toNat)))

/-- FAULT (R251): the precise cause SOFTWARE. -/
def execSoftFault (i : Issue) (s : State) : Result :=
  .next (s.issue i 9 0x02 (i.uses false false false 0 0xFF) (fun _ => some (0x20, i.imm.toNat, 0)) always id)

/-- CLRF (R242). -/
def execClrf (i : Issue) (s : State) : Result :=
  .next (s.issue i 9 0x03 (i.uses false false false 0 0) noFault always (fun s => s.modRun i.c (fun r => { r with vflags := 0 })))

/-! ## Faults of units (R250) -/

/-- UNIT_FAULT_REPORT (R250): a fault of a unit that no other command brings about, or what the near store's check finds on a
word that a unit reads (R234): a corrected error counts, an uncorrectable one is NS_ECC with the unit's item. -/
def execUnitFaultReport (t : Instant) (c : CoreId) (f : UnitFault) (s : State) : Result :=
  let s := s.at t
  let c := c.val
  if !((s.core c).busy || (s.core c).halting s.clock) then .next s
  else
    match f with
    | .channel ep st => .next (s.channelFault c ep.val st.toNat)
    | .stream pos reason => .next (s.laneFault c (pos % 8) reason.toNat)
    | .array detail => .next (s.arrFault c detail.toNat)
    | .sfu table reason => .next (s.sfuFault c table reason.toNat)
    | .sliceUe pos detail addr =>
      .next ((s.poisonEnd c ((s.core c).run.str.inletAt (pos % 8))).sliceFault c (some (detail.toNat, addr)))
    | .nsEcc item found =>
      .next (if found = .uncorrectable then s.imprecise c 6 item.toNat 0 else s.noteNear c found)

/-! ## The page windows (R260) -/

/-- A 32-bit half of a 64-bit word replaced. -/
def putHalf (x : W64) (hi : Bool) (v : W32) : W64 :=
  if hi then BitVec.ofNat 64 (v.toNat * 2 ^ 32 + x.toNat % 2 ^ 32) else BitVec.ofNat 64 (x.toNat / 2 ^ 32 * 2 ^ 32 + v.toNat)

/-- A saved context's byte at an offset of its slot (R256). -/
def Ctx.byte (x : Ctx) (o : Nat) : Byte :=
  if o < 0x10000 then BitVec.ofNat 8 ((AMap.get 0 x.run.arr.acc (o / 4)).toNat / 2 ^ (8 * (o % 4)))
  else if o < 0x11000 then BitVec.ofNat 8 ((AMap.get 0 x.run.v ((o - 0x10000) / 128)).toNat / 2 ^ (8 * (o % 128)))
  else if o < 0x11800 then Memory.read x.params (0x5B800 + (o - 0x11000))
  else if o < 0x11900 then BitVec.ofNat 8 ((AMap.get 0 x.run.g ((o - 0x11800) / 8)).toNat / 2 ^ (8 * (o % 8)))
  else if o < 0x11A00 then Config.contextByte x.run.pc o
  else 0

/-- A byte of the near store, the context slots included (R231, R256). -/
def Core.nearByte (k : Core) (a : Nat) : Byte :=
  let slot := if a < 0x5C000 then none else if a < 0x6E000 then k.slot0 else k.slot1
  match slot with
  | some x => x.byte ((a - 0x5C000) % 0x12000)
  | none => Memory.read k.near a

/-- What the window shows at an offset of 0x4000 to 0xFFFF. -/
def Core.pageRead (k : Core) (off : Nat) : W32 :=
  if off < 0x8000 then
    let a := bits k.csPage.toNat 1 0 * 2 ^ 14 + (off - 0x4000)
    BitVec.ofNat 32 ((AMap.get 0 k.code (a / 8)).toNat / 2 ^ (32 * (a / 4 % 2)))
  else BitVec.ofNat 32 (leNat ((List.range 4).map (fun i => k.nearByte (bits k.nsPage.toNat 3 0 * 2 ^ 15 + (off - 0x8000) + i))))

/-- A write through the window. -/
def Core.pageWrite (k : Core) (off : Nat) (v : W32) : Core :=
  if off < 0x8000 then
    let a := bits k.csPage.toNat 1 0 * 2 ^ 14 + (off - 0x4000)
    { k with code := AMap.put 0 k.code (a / 8) (putHalf (AMap.get 0 k.code (a / 8)) (decide (a / 4 % 2 = 1)) v) }
  else { k with near := Memory.writeN k.near (bits k.nsPage.toNat 3 0 * 2 ^ 15 + (off - 0x8000)) (leBytes 4 v.toNat) }

/-- PAGE_WINDOW_ACCESS (R260), through PF0: only on a core held idle; otherwise reads give 0 and writes are ignored. -/
def execPageWindowAccess (t : Instant) (c : CoreId) (offset : Nat) (v : Option W32) (s : State) : Result :=
  let s := s.at t
  let k := s.core c.val
  let off := offset / 4 * 4
  if off < 0x4000 ∨ 0x10000 ≤ off then .next s
  else
    let held := decide (k.mode = .off) && s.coreUp c.val
    match v with
    | none => .next (s.readsWord (if held then k.pageRead off else 0))
    | some v => .next (if held then s.modCore c.val (fun k => k.pageWrite off v) else s)

end Sys2Proof.Machine
end

