-- ==== Sys2Proof/Machine/Rings.lean ====
section
/-!
DEFINITION. Rings as software sees them (R430-R434, R457-R460, R504): enabling, disabling, stopping and restarting, and the
doorbells (R433).
-/
namespace Sys2Proof.Machine

/-! ## Selection and configuration (R431, R460) -/

/-- The absolute ring that a function's QUE_SEL selects; none where a VF selects nothing. -/
def State.selectedRing (s : State) : Fn → Option Nat
  | .pf => some (bits s.pfQueSel.toNat 15 0)
  | .vf n => s.absRing n.val (bits (s.part n.val).queSel.toNat 15 0)

/-- A completion ring or an EVENT queue, which R431's vector check covers (R504). -/
def Ring.written (q : Ring) : Bool := decide (q.type = 1) || (decide (q.type = 2) && q.event)

/-- The first check of R431 that fails, as ERR codes it; 0 if none. -/
def State.ringError (s : State) (r : Nat) (q : Ring) : Nat :=
  let vec := bits q.cfg.toNat 7 0
  let pf := q.cfg.getLsbD 26
  if q.entries < 16 ∨ 65536 < q.entries then 1
  else if q.base.toNat % 4096 ≠ 0 then 2
  else if q.written ∧ (if pf then vec < 8 else vec < 1 ∨ 63 < vec) then 3
  else if q.type = 0 ∧ !((s.ringOwner r).any (fun n => (s.absRing n (bits q.defc.toNat 15 0)).any (fun d => (s.ring d).completion)))
  then 4
  else if q.type = 3 then 6
  else if (s.ringOwner r).isNone then 7
  else 0

/-- The bits of QUE_CFG that hold a value; a VF cannot set PFVEC (R73). -/
def cfgBits (f : Fn) (old v : W32) : W32 :=
  match f with
  | .pf => v &&& 0x7C0000FF
  | .vf _ => (v &&& 0x780000FF) ||| (old &&& 0x04000000)

/-- A ring's enable: refused with ERR, or indices 0, PHASE 1 (R431, R432). In a HELD partition the ring stands stopped until
PART_REARM (DEDUCED, notes/assumptions/57.md). -/
def State.enableRing (s : State) (r : Nat) (q : Ring) : State :=
  match s.ringError r q with
  | 0 =>
    let held := (s.ringOwner r).any (fun n => decide ((s.part n).st = .held))
    s.setRing r { q with enabled := true, stopped := held, err := 0, prod := 0, cons := 0, phase := q.written, cfull := false }
  | e => s.setRing r { q with err := e }

/-- QUE_CFG written (R431, R457). -/
def State.writeQueCfg (s : State) (f : Fn) (r : Nat) (v : W32) : State :=
  let q := s.ring r
  let cfg := cfgBits f q.cfg v
  if !q.enabled then
    (if v.getLsbD 31 then s.enableRing r { q with cfg := cfg } else s.setRing r { q with cfg := cfg })
  else
    let fixed : W32 := if q.stopped then 0x78000000 else 0x7C0000FF
    let clash := decide ((cfg ^^^ q.cfg) &&& fixed ≠ 0)
    let q := { q with cfg := if q.stopped then (q.cfg &&& fixed) ||| (cfg &&& ~~~fixed) else q.cfg,
                      err := if clash then 5 else q.err }
    s.setRing r (if v.getLsbD 31 then q else { q with enabled := false, stopped := false, cfull := false })

/-- RING_ENABLE (R431): a write of QUE_CFG to the ring the function has selected. -/
def execRingEnable (t : Instant) (f : Fn) (v : W32) (s : State) : Result :=
  let s := s.at t
  if !s.reaches f then .next s
  else match s.selectedRing f with
  | some r =>
    let s := s.writeQueCfg f r v
    .next (match s.ringOwner r with
      | some n => s.flush n
      | none => s)
  | none => .next s

/-! ## Stops and restarts (R457-R459) -/

/-- The absolute rings of Pn. -/
def State.partRings (s : State) (n : Nat) : List Nat :=
  match s.partRec n with
  | some p => (List.range p.ringCount).map (fun i => p.ringBase + i)
  | none => []

/-- Every enabled ring of Pn stops (R457). -/
def State.stopRings (s : State) (n : Nat) : State :=
  s.each (s.partRings n) (fun s r => s.modRing r (fun q => { q with stopped := q.enabled }))

/-- Pn's rings return to their reset values (R459). -/
def State.resetRings (s : State) (n : Nat) : State := s.each (s.partRings n) (fun s r => s.setRing r {})

/-- One stopped ring restarts, or is refused (R458); the count of rings refused. -/
def restartRing (x : State × Nat) (r : Nat) : State × Nat :=
  let (s, refused) := x
  let q := s.ring r
  if !q.stopped then x
  else
    match s.ringError r q with
    | 0 => (s.setRing r { q with stopped := false }, refused)
    | e => (s.setRing r { q with enabled := false, stopped := false, err := e }, refused + 1)

/-- Every stopped ring of Pn restarts, launch rings last, so that their default rings count as enabled (R458). -/
def State.restartRings (s : State) (n : Nat) : State × Nat :=
  let rs := s.partRings n
  let launch (r : Nat) : Bool := decide ((s.ring r).type = 0)
  ((rs.filter (fun r => !launch r)) ++ rs.filter launch).foldl restartRing (s, 0)

/-! ## Doorbells (R433, R504) -/

/-- What a ring's doorbell is: 0 launch, 1 completion, 2 WORK, 3 EVENT. -/
def Ring.bell (q : Ring) : Nat := if q.type = 2 then (if q.event then 3 else 2) else q.type

/-- A doorbell ignored (R433): FE_BADDB of PF0 and of the partition, and the event counter of R582. -/
def State.badDoorbell (s : State) (n : Option Nat) : State :=
  let s := { s with pfBadDb := sat32 (s.pfBadDb + 1) }
  let s := match n with
    | some n => s.modPart n (fun p => { p with badDb := sat32 (p.badDb + 1) })
    | none => s
  s.countHub 4 1 n

/-- A doorbell of `kind` at the ring a function's BAR4 offset names, through a function the host reaches (R70). Doorbells to a
stopped ring are kept (R457). -/
def State.doorbell (s : State) (f : Fn) (ring kind : Nat) (v : W32) : State :=
  if !s.reaches f then s else
  let target := match f with
    | .pf => some ring
    | .vf n => s.absRing n.val ring
  let n := match f with
    | .pf => s.ringOwner ring
    | .vf n => some n.val
  match target with
  | none => s.badDoorbell n
  | some r =>
    let q := s.ring r
    if !q.enabled ∨ v.toNat ≥ 65536 ∨ q.entries ≤ v.toNat then s.badDoorbell n
    else if q.bell ≠ kind then s
    else if kind = 0 ∨ kind = 2 then s.setRing r { q with prod := v.toNat }
    else
      let s := s.setRing r { q with cons := v.toNat, cfull := { q with cons := v.toNat : Ring }.full }
      match s.ringOwner r with
      | some n => s.flush n
      | none => s

/-- LAUNCH_DOORBELL (R433): the producer index of a launch ring. -/
def execLaunchDoorbell (t : Instant) (f : Fn) (ring : Nat) (v : W32) (s : State) : Result :=
  .next ((s.at t).doorbell f ring 0 v)
/-- COMPLETION_DOORBELL (R433): the consumer index of a completion ring. -/
def execCompletionDoorbell (t : Instant) (f : Fn) (ring : Nat) (v : W32) (s : State) : Result :=
  .next ((s.at t).doorbell f ring 1 v)
/-- RMA_WORK_DOORBELL (R504): the producer index of a WORK queue. -/
def execRmaWorkDoorbell (t : Instant) (f : Fn) (ring : Nat) (v : W32) (s : State) : Result :=
  .next ((s.at t).doorbell f ring 2 v)
/-- RMA_EVENT_DOORBELL (R504): the consumer index of an EVENT queue. -/
def execRmaEventDoorbell (t : Instant) (f : Fn) (ring : Nat) (v : W32) (s : State) : Result :=
  .next ((s.at t).doorbell f ring 3 v)

end Sys2Proof.Machine
end

