-- ==== Sys2Proof/Machine/FrontEnd.lean ====
section
/-!
DEFINITION. The front end (ch. 15): launch records (R435-R442), the start of launches (R189, R446, R448, R449, R493), their
end (R429, R443, R444, R495, R496), pre-emption and resuming (R183, R255-R258, R450).
-/
namespace Sys2Proof.Machine

/-! ## The order of launches (R183, R448) -/

/-- The partition image of Pn, empty where there is none. -/
def State.imageOr (s : State) (n : Nat) : PartImage := (s.image n).getD {}

/-- The launch is of a deadline graph. -/
def PartImage.dl (i : PartImage) (l : Launch) : Bool := (i.dead l.graph).isSome
/-- PRIO of the launch's graph. -/
def PartImage.prio (i : PartImage) (l : Launch) : Nat := ((i.graph l.graph).map GraphRec.prio).getD 0

/-- `a` may pre-empt `b` (R183). -/
def PartImage.preempts (i : PartImage) (a b : Launch) : Bool :=
  i.dl a && (!i.dl b || decide (i.prio b < i.prio a))

/-- `a` comes before `b` in the order of R448. -/
def PartImage.before (i : PartImage) (a b : Launch) : Bool :=
  (i.dl a && !i.dl b)
    || (decide (i.dl a = i.dl b) && (decide (i.prio b < i.prio a) || (decide (i.prio a = i.prio b) && decide (a.id < b.id))))

/-! ## Reading a launch record (R435-R442) -/

/-- NPATCH inline patches: (slot, value). -/
def inlinePatches (b : Bytes) : List (Nat × W64) :=
  (List.range (field b 9 1)).map (fun j => (field b (10 + j) 1, BitVec.ofNat 64 (field b (16 + 8 * j) 8)))

def recTimed (b : Bytes) : Bool := bit (field b 8 1) 0
def recBlock (b : Bytes) : Bool := bit (field b 8 1) 1
def recDup (b : Bytes) : Bool := bit (field b 8 1) 2

/-- Step 2 of R437: a reserved bit is set, an unused field is not 0, NPATCH or PB_COUNT is out of range. -/
def badLaunchRecord (b : Bytes) : Bool :=
  let np := field b 9 1
  let timed := recTimed b
  let zero (a n : Nat) : Bool := decide (field b a n = 0)
  decide (field b 1 1 / 16 ≠ 0) || decide (field b 8 1 / 8 ≠ 0)
    || decide ((if recBlock b then 0 else if timed then 5 else 6) < np)
    || [0, 1, 2, 3, 4, 5].any (fun j => decide (np ≤ j) && !zero (10 + j) 1)
    || (if recBlock b then decide (field b 16 8 % 16 ≠ 0) || decide (256 < field b 24 2) || !zero 26 30 || (!timed && !zero 56 8)
        else [0, 1, 2, 3, 4].any (fun j => decide (np ≤ j) && !zero (16 + 8 * j) 8) || (!timed && decide (np < 6) && !zero 56 8))

/-- The entries of a patch block: slot, value, and whether the reserved bytes are 0 (R436). -/
def blockPatches (count : Nat) (b : Bytes) : List (Nat × W64 × Bool) :=
  (List.range count).map (fun i => (field b (16 * i) 2, BitVec.ofNat 64 (field b (16 * i + 8) 8), decide (field b (16 * i + 2) 6 = 0)))

/-- The parameters of a launch (R428, R232): 256 slots, those without a default or a patch 0. -/
def patched (defaults : List W64) (patches : List (Nat × W64)) : List W64 :=
  patches.foldl (fun l p => setAt l p.1 p.2) ((List.range 256).map (fun i => defaults.getD i 0))

/-- The completion ring of a record: CRING, or the launch ring's default where CRING is no enabled completion ring; `none`
where neither is (R437). -/
def State.recordRing (s : State) (n : Nat) (q : Ring) (cring : Nat) : Option Nat :=
  let usable (r : Nat) : Option Nat := (s.absRing n r).bind (fun a => if (s.ring a).completion then some a else none)
  (usable cring).orElse (fun _ => usable (bits q.defc.toNat 15 0))

/-- A record that is not carried out completes with a status (R437, R444); without a ring no completion is written. -/
def State.refuseRecord (s : State) (n r : Nat) (q : Ring) (b : Bytes) (status detail : Nat) : State :=
  match s.recordRing n q (field b 2 2) with
  | some c =>
    let g := field b 0 2 % 4096
    s.complete n { ring := c, serial := BitVec.ofNat 32 (field b 4 4), graph := g, status := status,
                   detail := detail, stamp := s.stamp, lring := r,
                   dl := (s.image n).any (fun i => (i.dead g).isSome) }
  | none => s

/-- A record refused at a step from 2 to 6 counts in FE_REJ (R461). -/
def State.rejectRecord (s : State) (n r : Nat) (q : Ring) (b : Bytes) (status detail : Nat) : State :=
  (s.modPart n (fun p => { p with rej := p.rej.add 1 })).refuseRecord n r q b status detail

/-- Step 6 of R437: DETAIL of the first patch that fails. -/
def patchError (slots count : Nat) (ps : List (Nat × W64)) (block : Option Bytes) : Option Nat :=
  match ps.findIdx? (fun p => decide (slots ≤ p.1)) with
  | some i => some i
  | none =>
    if count = 0 then none
    else
      match block with
      | none => some 0xFE
      | some b => if (blockPatches count b).any (fun e => decide (slots ≤ e.1) || !e.2.2) then some 0xFF else none

/-- The front end may read the next record of ring r of Pn (R74, R157, R433, R438, R439, R457). -/
def State.recordReady (s : State) (n a : Nat) : Bool :=
  let q := s.ring a
  q.enabled && !q.stopped && decide (q.type = 0) && s.dmaOk n && decide (0 < q.unread) && decide ((s.part n).slots < 256)
    && !(s.part n).molting && (s.part n).launches.all (fun l => l.remote || l.started.isSome || decide (l.ring ≠ a))

/-- The rings whose next record the front end may read, with their partitions, in rising order. -/
def State.readyRings (s : State) : List (Nat × Nat) :=
  s.rings.filterMap (fun (x : Nat × Ring) =>
    (s.ringOwner x.1).bind (fun n => if s.recordReady n x.1 then some (n, x.1) else none))

/-- The first of a rising list at or after `t`, else its first (round-robin). -/
def firstFrom (t : Nat) (l : List Nat) : Option Nat := (l.find? (fun x => decide (t ≤ x))).orElse (fun _ => l.head?)

/-- Ring a of Pn is the one that the round-robins of R438 take next: by partition across the device, by ring within it. -/
def State.inTurn (s : State) (n a : Nat) : Bool :=
  let l := s.readyRings
  decide (firstFrom s.turn ((List.range 32).filter (fun m => l.any (fun x => decide (x.1 = m)))) = some n)
    && decide (firstFrom (s.part n).turn ((l.filter (fun x => decide (x.1 = n))).map Prod.snd) = some a)

/-- The launch is queued (R437). Read before the previous start plus PERIOD, it is held and counts in ADM_EARLY_CNTn (R189). -/
def State.queueLaunch (s : State) (n a : Nat) (i : PartImage) (g : GraphRec) (cring : Nat) (b block : Bytes) : State :=
  let p := s.part n
  let all := (if recBlock b then (blockPatches (field b 24 2) block).map (fun e => (e.1, e.2.1)) else []) ++ inlinePatches b
  let params := patched g.defaults all
  let early := (i.dead g.graph).any (fun d =>
    (AMap.get none p.prevStart g.graph).any (fun t => decide (s.mono < t + d.period)))
  let l : Launch :=
    { id := p.nextId, ring := a, cring := cring, graph := g.graph, serial := BitVec.ofNat 32 (field b 4 4), readAt := s.mono,
      timed := recTimed b, startTime := BitVec.ofNat 64 (field b 56 8), params := params,
      patches := (List.range 256).filterMap (fun k =>
        if params.getD k 0 = g.defaults.getD k 0 then none else some (k, params.getD k 0)),
      early := early, cores := i.graphCores g.graph }
  s.setPart n { p with launches := p.launches ++ [l], nextId := p.nextId + 1, early := if early then p.early.add 1 else p.early }

/-- The steps of R437 on a record that has been read. -/
def State.takeRecord (s : State) (n r a : Nat) (b : Bytes) (block : Option Bytes) : State :=
  let q := s.ring a
  let serial := BitVec.ofNat 32 (field b 4 4)
  let count := if recBlock b then field b 24 2 else 0
  if !decide (1 ≤ (serial - q.lserial).toNat ∧ (serial - q.lserial).toNat < 2 ^ 31) then
    let s := (s.modPart n (fun p => { p with dup := p.dup.add 1 })).countHub 3 1 (some n)
    if recDup b then s.refuseRecord n r q b 4 0 else s
  else
    let s := s.setRing a { q with lserial := serial }
    if badLaunchRecord b then s.rejectRecord n r q b 5 0
    else
      match s.image n with
      | none => s.rejectRecord n r q b 2 0
      | some i =>
        match i.graph (field b 0 2 % 4096) with
        | none => s.rejectRecord n r q b 6 0
        | some g =>
          if i.span?.any (fun x => decide (x.self ≠ 0)) then s.rejectRecord n r q b 6 0
          else
            match (s.absRing n (field b 2 2)).bind (fun c => if (s.ring c).completion then some c else none) with
            | none => s.rejectRecord n r q b 7 0
            | some c =>
              match patchError g.defaults.length count (inlinePatches b) block with
              | some d => s.rejectRecord n r q b 8 d
              | none => s.queueLaunch n a i g c b (block.getD [])

/-- LAUNCH_RECORD_READ (R437, R438): partition ring r of Pn, whose turn it is, gives its next record; its slot is consumed in
every case. -/
def execLaunchRecordRead (t : Instant) (p : PartId) (r : Nat) (record : Bytes) (block : Option Bytes) (s : State) : Result :=
  let s := s.at t
  let n := p.val
  match s.absRing n r with
  | none => .next s
  | some a =>
    if !s.inTurn n a then .next s
    else
      let s := { s.modPart n (fun p => { p with turn := a + 1 }) with turn := n + 1 }
      let s := s.modRing a (fun q => { q with cons := (q.cons + 1) % q.entries })
      .next (((s.countHub 1 1 (some n)).pcieIn n (64 + (block.getD []).length)).takeRecord n r a ((record ++ List.replicate 64 0).take 64) block)

/-! ## Starting (R189, R429, R446, R448, R449, R493) -/

/-- The period hold of R189: the previous start plus PERIOD has come. A worker's share is under its manager's hold (R494). -/
def State.periodOver (s : State) (n : Nat) (l : Launch) : Bool :=
  l.remote ||
    (match ((s.image n).bind (fun i => i.dead l.graph)), AMap.get none (s.part n).prevStart l.graph with
     | some d, some t => decide (t + d.period ≤ s.mono)
     | _, _ => true)

/-- The launch is ready: queued, and past the holds of R189 and R446. -/
def State.ready (s : State) (n : Nat) (l : Launch) : Bool :=
  l.started.isNone && l.status.isNone && (!l.timed || decide (l.startTime.toNat ≤ s.now)) && s.periodOver n l

/-- Another launch of the same graph has started and not ended (R429). -/
def Part.graphRuns (p : Part) (l : Launch) : Bool :=
  p.launches.any (fun m => decide (m.id ≠ l.id) && decide (m.graph = l.graph) && m.started.isSome)

/-- The launches that hold a core now: running on it, or saved there. -/
def Core.holders (k : Core) : List Nat :=
  (if k.busy then [k.run.launch] else []) ++ (k.slot0.map (fun x => x.run.launch)).toList
    ++ (k.slot1.map (fun x => x.run.launch)).toList

/-- A started launch has still to begin on core c. -/
def State.pendingOn (s : State) (c : Nat) (l : Launch) : Bool :=
  l.started.isSome && l.cores.contains c && !l.ends.any (fun e => decide (e.1 = c)) && !(s.core c).holders.contains l.id

/-- Every launch that runs on core c or is saved there, or has still to begin there, is one that this launch may pre-empt
(R449). A core where a launch that it may not pre-empt is only saved is not free for it: that launch resumes first, and no
more contexts nest than R257 allows (DEDUCED, notes/assumptions/55.md). -/
def State.coreOpen (s : State) (n : Nat) (i : PartImage) (l : Launch) (c : Nat) : Bool :=
  let k := s.core c
  let ls := (s.part n).launches
  decide (k.mode ≠ .off)
    && k.holders.all (fun id => ls.all (fun m => decide (m.id ≠ id) || i.preempts l m))
    && ls.all (fun m => !s.pendingOn c m || i.preempts l m)

/-- Every core of the launch is open to it, and no higher ready launch shares one (R449). -/
def State.canStart (s : State) (n : Nat) (i : PartImage) (l : Launch) : Bool :=
  l.cores.all (s.coreOpen n i l)
    && (s.part n).launches.all (fun m => !(s.ready n m && i.before m l && m.cores.any (fun c => l.cores.contains c)))

/-- S of R189 on the monotonic count: the latest of the read, the timed start and the period's end. The timed start is the
instant at which TIM_NOW reached START, whatever steps have followed. -/
def State.startOf (s : State) (n : Nat) (l : Launch) : Nat :=
  let timed := if l.timed then l.reachedAt.getD (s.reachedAt l) else 0
  let period := match ((s.image n).bind (fun i => i.dead l.graph)), AMap.get none (s.part n).prevStart l.graph with
    | some d, some t => if l.remote then 0 else t + d.period
    | _, _ => 0
  max l.readAt (max timed period)

/-- A free core begins the launch that ranks highest among those still to begin on it. -/
def State.beginPending (s : State) (n c : Nat) : State :=
  let k := s.core c
  let i := s.imageOr n
  if k.busy || decide (k.mode = .off) then s
  else
    match (s.part n).launches.filter (s.pendingOn c) with
    | [] => s
    | l :: ls => s.beginCore n c (ls.foldl (fun a m => if i.before m a then m else a) l)

/-- The manager's LAUNCH to every worker (R490, R493). -/
def State.forwardLaunch (s : State) (n : Nat) (r : SpanRec) (l : Launch) : State :=
  s.each (r.members.drop 1) (fun s a =>
    s.sendSpan n a (.launch l.graph l.epoch l.serial l.timed (if l.timed then l.startTime else 0) l.patches))

/-- The launches of the same graph that were read before this start plus PERIOD, and wait: they are held by it, and count in
ADM_EARLY_CNTn where they have not (R189). -/
def Part.heldBy (p : Part) (l : Launch) : List Launch :=
  p.launches.filter (fun m => decide (m.graph = l.graph) && decide (m.id ≠ l.id) && m.started.isNone && !m.early && !m.remote)

/-- The launch starts: its epoch, S with the causes of R192 that hold then, and its begin on every core that is free (R265,
R449). -/
def State.startLaunch (s : State) (n : Nat) (i : PartImage) (l : Launch) : State :=
  let S := s.startOf n l
  let epoch := if l.remote then l.epoch else AMap.get 0 (s.part n).epochs l.graph + 1
  let workers := match i.span? with
    | some r => if l.remote then [] else (List.range (r.members.length - 1)).map (· + 1)
    | none => []
  let l := s.noted n { l with started := some S, epoch := epoch, owing := workers }
  let early := if (i.dead l.graph).isSome ∧ !l.remote then (s.part n).heldBy l else []
  let s := s.modPart n (fun p =>
    { p with launches := p.launches.map (fun m => if m.id = l.id then l else if early.contains m then { m with early := true } else m),
             early := if early.isEmpty then p.early else p.early.add early.length,
             epochs := AMap.put 0 p.epochs l.graph epoch, prevStart := AMap.put none p.prevStart l.graph (some S) })
  let s := match i.span? with
    | some r => if l.remote then s else s.forwardLaunch n r l
    | none => s
  s.each l.cores (fun s c => s.beginPending n c)

/-- LAUNCH_START (R449, R493). -/
def execLaunchStart (t : Instant) (p : PartId) (id : Nat) (s : State) : Result :=
  let s := s.at t
  let n := p.val
  match s.image n, s.launch n id with
  | some i, some l =>
    if !s.ready n l || (s.part n).graphRuns l then .next s
    else if !l.remote && i.spanned && decide ((s.part n).span.st ≠ .ready) then .next (s.endLaunch n l 0xA 0)
    else if !s.canStart n i l then .next s
    else .next (s.startLaunch n i l)
  | _, _ => .next s

/-! ## Pre-emption (R255-R258, R450) -/

/-- A launch of Pn still to begin on core c that may pre-empt what runs there. -/
def State.preemptor (s : State) (n c : Nat) : Option Launch :=
  let i := s.imageOr n
  let k := s.core c
  match s.launch n k.run.launch with
  | some y => (s.part n).launches.find? (fun m => s.pendingOn c m && i.preempts m y)
  | none => none

/-- The pre-emption of launch `y` by `x` has already shown on another core of `x`. -/
def State.preemptSeen (s : State) (x y : Launch) : Bool :=
  x.cores.any (fun c =>
    let k := s.core c
    (decide (k.mode = .saving) && decide (k.run.launch = y.id))
      || k.slot0.any (fun z => decide (z.run.launch = y.id)) || k.slot1.any (fun z => decide (z.run.launch = y.id)))

/-- PREEMPT (R255): issue stops on the core; where the core has come free meanwhile, the waiting launch begins. -/
def execPreempt (t : Instant) (c : CoreId) (s : State) : Result :=
  let s := s.at t
  let c := c.val
  let k := s.core c
  match s.coreOwner c with
  | none => .next s
  | some n =>
    if !k.busy then .next (s.beginPending n c)
    else if !k.active then .next s
    else
      match s.preemptor n c with
      | none => .next s
      | some x =>
        let seen := s.preemptSeen x ((s.launch n k.run.launch).getD {})
        let s := if seen then s else s.modLaunch n k.run.launch (fun l => { l with preempts := l.preempts + 1 })
        .next (s.modCore c (fun k => { k with mode := .saving }))

/-- The core has drained: no strip is granted, no AOUT runs, the SFU is idle (R255, R307, R308). -/
def Core.drained (k : Core) : Bool :=
  !k.stripRuns && k.run.arr.out.isNone && k.run.sfu.queue.isEmpty

/-- The context as it is saved (R256): the pass's granted strips have run, and a wait waits again on resuming. -/
def Core.context (k : Core) : Ctx :=
  { run := { k.run with preempts := k.run.preempts + 1 }, params := Memory.within k.near 0x5B800 0x5C000,
    mode := if k.run.wait.isSome then .waiting else .running }

/-- The beat-times of a save or a restore of the tile (R307, R310), which count against a pinned core's budget (R302). -/
def saveBeats : Nat := 64

/-- A pinned core's budget has no room for a save or a restore (R302). -/
def State.saveStarved (s : State) (c : Nat) : Bool := s.pinned c && decide ((s.core c).budgetBeats < saveBeats)

/-- CONTEXT_SAVE_COMPLETE (R255, R256): the units have drained and the sends issued are complete; into the lowest free slot; the
waiting launch begins. -/
def execContextSaveComplete (t : Instant) (c : CoreId) (s : State) : Result :=
  let s := s.at t
  let c := c.val
  let k := s.core c
  match s.coreOwner c with
  | none => .next s
  | some n =>
    if k.mode ≠ .saving ∨ !k.drained ∨ s.sending c ∨ s.saveStarved c ∨ (k.slot0.isSome ∧ k.slot1.isSome) then .next s
    else
      let s := match k.run.wait with
        | some (_, since) => s.countCore c 6 (s.clock - since)
        | none => s
      let s := s.modCore c (fun k =>
        let k' := if k.slot0.isNone then { k with slot0 := some k.context } else { k with slot1 := some k.context }
        { k' with mode := .idle, budgetBeats := k.budgetBeats - saveBeats,
                  run := { k'.run with wait := none, str := { k'.run.str with west := {}, north := {} } } })
      .next ((s.countCore c 0xF 1).beginPending n c)

/-- The saved context that resumes first: the one whose launch ranks higher (R450). -/
def State.resumable (s : State) (n c : Nat) : Option (Bool × Ctx) :=
  let k := s.core c
  let i := s.imageOr n
  let get (x : Ctx) : Launch := (s.launch n x.run.launch).getD {}
  match k.slot0, k.slot1 with
  | some x, some y => if i.before (get x) (get y) then some (false, x) else some (true, y)
  | some x, none => some (false, x)
  | none, some y => some (true, y)
  | none, none => none

/-- A ready or running launch that may pre-empt `l` needs core c (R450): to outrank is to be one that may pre-empt (DEDUCED,
notes/assumptions/55.md). A launch that waits under R429 is ready. -/
def State.outranked (s : State) (n c : Nat) (l : Launch) : Bool :=
  let i := s.imageOr n
  (s.part n).launches.any (fun m => i.preempts m l && m.cores.contains c &&
    (s.pendingOn c m || s.ready n m))

/-- The context that is being restored on an idle core, until RESUME ends it: nothing that outranks its launch needs the core
(R261, R310, R450). -/
def State.restoring (s : State) (n c : Nat) : Option (Bool × Ctx) :=
  let k := s.core c
  (s.resumable n c).filter (fun x =>
    !k.busy && decide (k.mode ≠ .off) && !s.outranked n c ((s.launch n x.2.run.launch).getD {}))

/-- RESUME (R450, R256, R310): the context is restored and its launch runs on. -/
def execResume (t : Instant) (c : CoreId) (s : State) : Result :=
  let s := s.at t
  let c := c.val
  match s.coreOwner c with
  | none => .next s
  | some n =>
    match s.restoring n c with
    | none => .next s
    | some (second, x) =>
      if s.saveStarved c then .next s
      else
        let run := { x.run with wait := match x.run.wait with
          | some (.issue, _) => none
          | some (w, _) => some (w, s.clock)
          | none => none }
        .next (s.modCore c (fun k =>
          { k with mode := if run.wait.isSome then .waiting else .running, run := run, budgetBeats := k.budgetBeats - saveBeats,
                   slot0 := if second then k.slot0 else none, slot1 := if second then none else k.slot1,
                   near := Memory.writeN k.near 0x5B800 (Memory.readN x.params 0x5B800 2048) }))

/-! ## Ending (R429, R443, R444, R495, R496) -/

/-- The status of a device's own share: FAULT with its cause, ABORTED, or OK. -/
def Launch.own (l : Launch) : Nat :=
  if l.fault.isSome then 1 else if l.ends.any (fun e => decide (e.2 = 0x30)) then 0x80 else 0

/-- STATUS of the manager's completion (R496). -/
def Launch.spanStatus (l : Launch) : Nat :=
  let all := (if l.own = 0x80 ∧ l.aborting then [] else [l.own]) ++ l.members.map MemberEnd.status
  if l.status = some 0xA ∨ all.contains 0x81 ∨ (all.contains 0x80 ∧ !l.aborting) then 0xA
  else if all.contains 1 then 1
  else if all.contains 3 then 3
  else if all.contains 2 then 2
  else 0

/-- ABORT to every member that still runs the launch (R495). -/
def State.abortMembers (s : State) (n : Nat) (l : Launch) : State :=
  let s := s.modLaunch n l.id (fun l => { l with aborting := true })
  s.each l.owing (fun s i => s.sendSpan n (s.member n i) (.abort l.graph l.epoch))

/-- The launch has ended on every core of this device (R429): its record becomes due; a manager waits for its workers, and
aborts them where its own share did not end well (R495, R496). -/
def State.finishLaunch (s : State) (n : Nat) (l : Launch) : State :=
  if l.owing ≠ [] then
    (if l.own ≠ 0 ∧ !l.aborting then s.abortMembers n l else s)
  else
    let spanned := (s.imageOr n).spanned && !l.remote
    let status := if spanned then l.spanStatus else if l.remote then l.own else min l.own 1
    let s := s.endLaunch n l status (if status = 1 then l.fault.getD 0 else 0)
    s.each l.cores (fun s c => s.beginPending n c)

/-- LAUNCH_END (R429). -/
def execLaunchEnd (t : Instant) (p : PartId) (id : Nat) (s : State) : Result :=
  let s := s.at t
  match s.launch p.val id with
  | some l => if l.started.isSome && l.over then .next (s.finishLaunch p.val l) else .next s
  | none => .next s

end Sys2Proof.Machine
end

