-- ==== Sys2Proof/Machine/Pools.lean ====
section
/-!
DEFINITION. Buffer pools (R451-R456) and the credit an RMA connection gains from a buffer (R522, R523).
-/
namespace Sys2Proof.Machine

/-! ## RMA connections -/

def Rma.conn (r : Rma) (c : Nat) : Conn := AMap.get {} r.conns c
def State.conn (s : State) (n c : Nat) : Conn := (s.part n).rma.conn c
def State.setConn (s : State) (n c : Nat) (x : Conn) : State :=
  s.modPart n (fun p => { p with rma := { p.rma with conns := AMap.put {} p.rma.conns c x } })
def State.modConn (s : State) (n c : Nat) (f : Conn → Conn) : State := s.setConn n c (f (s.conn n c))
def State.modRma (s : State) (n : Nat) (f : Rma → Rma) : State := s.modPart n (fun p => { p with rma := f p.rma })

/-- Event reservations (R525): one for each record outstanding, a CONNECT and a CLOSE among them, each buffer credit out, each
event not yet written. -/
def Rma.reserved (r : Rma) : Nat :=
  r.events.length + (r.conns.map (fun (_, c) =>
    c.works.length + nat (decide (c.st = .connecting)) + nat c.closeSerial.isSome + (c.bufs.length - c.bufsHeld))).sum

/-- Connections that are not closed (R505). -/
def Rma.opened (r : Rma) : List Nat := (r.conns.filter (fun (_, c) => decide (c.st ≠ .closed))).map Prod.fst

/-- Sends CREDIT with the cumulative grants (R522). -/
def State.sendCredit (s : State) (n c : Nat) : State :=
  let x := s.conn n c
  (s.setConn n c { x with sentGiven := x.given, sentBufs := x.bufGiven }).sendRmaPlain n x.peerAddr x.peerPart c x.peerConn
    0x20 0 2 { src := 0, partFrom := 0, partTo := 0, peerConn := 0, conn := 0, seq := 0,
               op0 := BitVec.ofNat 64 x.given, op1 := BitVec.ofNat 64 x.bufGiven }

/-- Sends CREDIT when the grant has risen by 8 units or by any buffer credit (R522). -/
def State.creditIfDue (s : State) (n c : Nat) : State :=
  let x := s.conn n c
  if x.st = .opened ∧ (8 ≤ (x.given + 2 ^ 32 - x.sentGiven) % 2 ^ 32 ∨ x.bufGiven ≠ x.sentBufs) then s.sendCredit n c else s

/-- A pool buffer backs one more buffer credit of a connection (R523); the credit is withheld while Pn is HELD (R198), and while its
4,096 reservations are in use (R525). -/
def State.creditBuf (s : State) (n c b : Nat) : State :=
  if (s.part n).st = .held ∨ 4096 ≤ (s.part n).rma.reserved then
    s.modConn n c (fun x => { x with bufs := x.bufs ++ [b], bufsHeld := x.bufsHeld + 1 })
  else (s.modConn n c (fun x => { x with bufs := x.bufs ++ [b], bufGiven := (x.bufGiven + 1) % 2 ^ 32 })).creditIfDue n c

/-- Withheld buffer credits are granted as far as the reservations allow (R198, R525). -/
def State.releaseBufs (s : State) (n c : Nat) : State :=
  let k := min (s.conn n c).bufsHeld (4096 - (s.part n).rma.reserved)
  s.modConn n c (fun x => { x with bufsHeld := x.bufsHeld - k, bufGiven := (x.bufGiven + k) % 2 ^ 32 })

/-! ## Pools -/

/-- The buffers of a pool that are free, lowest first. -/
def State.poolFree (s : State) (p : Nat) : List Nat :=
  match s.poolRec p with
  | some r => (List.range r.bufCount).filter (fun i => !(s.pool p).taken.contains i)
  | none => []

/-- A waiting request is granted a buffer (R454, R455). -/
def State.grantTo (s : State) (p b : Nat) (w : Waiter) : State :=
  let owner := (s.poolRec p).map PoolRec.part
  let s := s.countHub 5 1 owner
  match w with
  | .engine n c => s.creditBuf n c b
  | .host ticket =>
    match owner.bind (fun n => (s.absRing n (bits (s.pool p).cfg.toNat 15 0)).map (fun r => (n, r))) with
    | some (n, r) =>
      if (s.ring r).completion then
        s.complete n { ring := r, serial := ticket.setWidth 32, graph := p, status := 9, stamp := s.stamp, beats := b }
      else s
    | none => s

/-- A buffer comes back (R454): to the head of the wait list, or free. -/
def State.poolReturn (s : State) (p b : Nat) : State :=
  let x := s.pool p
  match x.waiters with
  | w :: l => (s.setPool p { x with waiters := l }).grantTo p b w
  | [] => s.setPool p { x with taken := x.taken.filter (fun i => decide (i ≠ b)) }

/-- A free buffer is taken (R452); which one is a free value. -/
def State.poolTakeOne (s : State) (p : Nat) : Option (Nat × State) :=
  let free := s.poolFree p
  if free = [] ∨ (s.pool p).waiters ≠ [] then none
  else
    let b := free.getD (Config.poolPick s.free % free.length) 0
    some (b, s.drawn.modPool p (fun x => { x with taken := insertNat b x.taken }))

/-- One request of the RMA engine for a connection (R452, R523): granted, waiting on the list, or owed. -/
def State.poolAsk (s : State) (p n c : Nat) : State :=
  match if 4096 ≤ (s.part n).rma.reserved then none else s.poolTakeOne p with
  | some (b, s) => (s.countHub 5 1 (some n)).creditBuf n c b
  | none =>
    if (s.pool p).cfg.getLsbD 31 ∧ (s.pool p).waiters.length < 64 then
      s.modPool p (fun x => { x with waiters := x.waiters ++ [.engine n c] })
    else s.modConn n c (fun x => { x with bufsOwed := x.bufsOwed + 1 })

/-- The engine asks again for the buffers it is still owed, while its partition is ACTIVE (R198, R523). -/
def State.askOwed (s : State) (n c : Nat) : State :=
  let x := s.conn n c
  (List.range x.bufsOwed).foldl (fun s _ => s.poolAsk x.pool n c) (s.setConn n c { x with bufsOwed := 0 })

/-- The pools of Pn. -/
def State.partPools (s : State) (n : Nat) : List PoolRec :=
  ((s.frame.map Frame.pools).getD []).filter (fun r => decide (r.part = n))

/-- Every buffer of Pn's pools becomes free and the wait lists empty (R456); after a Molt each waiting host request
completes with MOLT. -/
def State.freePools (s : State) (n : Nat) (molt : Bool) : State :=
  s.each (s.partPools n) (fun s r =>
    let x := s.pool r.pool
    let s := s.setPool r.pool { x with taken := [], waiters := [] }
    if molt then
      s.each x.waiters (fun s w =>
        match w, s.absRing n (bits x.cfg.toNat 15 0) with
        | .host ticket, some q =>
          if (s.ring q).completion then
            s.complete n { ring := q, serial := ticket.setWidth 32, graph := r.pool, status := 2, stamp := s.stamp }
          else s
        | _, _ => s)
    else s)

/-- POOL_TAKEp read by function `f` (R452, R461): the word it reads. -/
def State.poolTake (s : State) (f : Fn) (p : Nat) : State :=
  let owner := (s.poolRec p).map PoolRec.part
  let mine := match f with
    | .pf => owner.isSome
    | .vf n => decide (owner = some n.val)
  if !mine then s.readsWord 0
  else
    match s.poolTakeOne p with
    | some (b, s) => (s.countHub 5 1 owner).readsWord (BitVec.ofNat 32 (2 ^ 31 + b))
    | none =>
      let x := s.pool p
      if x.cfg.getLsbD 31 ∧ x.waiters.length < 64 then
        let t := Config.poolTicket s.free
        (s.drawn.setPool p { x with waiters := x.waiters ++ [.host t] }).readsWord (BitVec.ofNat 32 (2 ^ 30 + 2 ^ 29 + t.toNat))
      else s.readsWord (BitVec.ofNat 32 (2 ^ 30 + (if x.cfg.getLsbD 31 then 2 ^ 28 else 0)))

/-- POOL_FREEp written by function `f` (R454, R461): a free that is ignored counts for PF0 and for the pool's partition. -/
def State.poolPut (s : State) (f : Fn) (p : Nat) (v : W32) : State :=
  let b := bits v.toNat 19 0
  match s.poolRec p with
  | none => s
  | some r =>
    if (match f with | .pf => false | .vf n => decide (n.val ≠ r.part)) then s
    else if r.bufCount ≤ b ∨ !(s.pool p).taken.contains b then
      { s.modPart r.part (fun p => { p with poolErr := sat32 (p.poolErr + 1) }) with poolErr := sat32 (s.poolErr + 1) }
    else s.poolReturn p b

/-- POOL_TAKE (R452). -/
def execPoolTake (t : Instant) (f : Fn) (pool : Fin 1024) (s : State) : Result :=
  let s := s.at t
  .next (if s.reaches f then s.poolTake f pool.val else s.unreached 4)

/-- POOL_FREE (R454). -/
def execPoolFree (t : Instant) (f : Fn) (pool : Fin 1024) (v : W32) (s : State) : Result :=
  let s := s.at t
  .next (if s.reaches f then s.poolPut f pool.val v else s)

end Sys2Proof.Machine
end

