-- ==== Sys2Proof/Machine/Rma.lean ====
section
/-!
DEFINITION. Remote memory access (ch. 17): work records and their packets, connections, credits, inbound operations,
repeats and the atomic cache, loss.
-/
namespace Sys2Proof.Machine

/-- A packet with nothing in it, for replies. -/
def noPkt : RmaPkt := { src := 0, partFrom := 0, partTo := 0, peerConn := 0, conn := 0, seq := 0 }

/-- An event on a partition ring of Pn (R532); a ring that Pn does not have takes none. -/
def State.eventOn (s : State) (n q : Nat) (e : Evt) : State :=
  match s.absRing n q with
  | some r => s.event n { e with queue := r }
  | none => s

/-- The event of a work record of connection c; none when SILENT and OK (R509). -/
def State.doneEvent (s : State) (n c kind : Nat) (serial : W32) (status : Nat) (value : W64) (silent : Bool) : State :=
  if silent && decide (status = 0) then s
  else s.eventOn n (s.conn n c).eventq { serial := serial, kind := kind, status := status, conn := c, value := value }

/-- What stays of a connection number that is free again: its GEN count and its EVENT queue. -/
def Conn.freed (x : Conn) : Conn := { gen := x.gen, eventq := x.eventq }

/-- Frees a connection number: its buffers return to their pool, its requests leave the wait lists, its streams end. -/
def State.freeConn (s : State) (n c : Nat) : State :=
  let x := s.conn n c
  let s := s.setConn n c x.freed
  let s := { s with pools := s.pools.map (fun (y : Nat × Pool) =>
              (y.1, { y.2 with waiters := y.2.waiters.filter (fun w => decide (w ≠ Waiter.engine n c)) })) }
  let s := s.each x.bufs (fun s b => s.poolReturn x.pool b)
  s.dropStreams x.peerAddr 5 0 [rmaStream x.peerPart c x.peerConn]

/-- Every outstanding record of a connection completes with GONE, a CLOSE among them (R528, R529). -/
def State.goneWorks (s : State) (n c : Nat) (x : Conn) : State :=
  let s := s.each x.works (fun s w => s.doneEvent n c 1 w.serial 1 0 false)
  match x.closeSerial with
  | some q => s.doneEvent n c 1 q 1 0 false
  | none => s

/-- The connection is lost (R528): outstanding records complete with GONE, a GONE event, the number is free. -/
def State.loseConn (s : State) (n c : Nat) : State :=
  let x := s.conn n c
  if x.st = .closed then s
  else
    let s := s.modRma n (fun r => { r with lost := r.lost.add 1 })
    let s := s.goneWorks n c x
    let s := if x.st = .connecting then s.doneEvent n c 1 x.serial 1 0 false
             else s.eventOn n x.eventq { kind := 5, status := 1, conn := c }
    s.freeConn n c

/-- Closes every connection of Pn (R529, R530): GONE to every peer; outstanding records complete with GONE unless it is a
VF FLR. -/
def State.closeAll (s : State) (n : Nat) (events : Bool) : State :=
  s.each (s.part n).rma.opened (fun s c =>
    let x := s.conn n c
    let s := s.sendRmaPlain n x.peerAddr x.peerPart c x.peerConn 0x14 0 2 noPkt
    let s := if events then s.goneWorks n c x else s
    s.freeConn n c)

/-- The connections of every partition to an address are lost (R480, R528). -/
def State.loseAddress (s : State) (a : Nat) : State :=
  s.each (List.range 32) (fun s n =>
    s.each (s.part n).rma.opened (fun s c => if (s.conn n c).peerAddr = a then s.loseConn n c else s))

/-! ## Sending requests -/

/-- The credit rule of R521 for one count. -/
def creditOk (granted used cost : Nat) : Bool :=
  let d := (granted + 2 ^ 32 - used) % 2 ^ 32
  decide (cost ≤ d) && decide (d < 2 ^ 31)

/-- Sends one request packet in the connection's stream (R513, R516). -/
def State.sendReq (s : State) (n c : Nat) (o : OutPkt) : State :=
  let x := s.conn n c
  let st := rmaStream x.peerPart c x.peerConn
  let q := s.nextSeq x.peerAddr 5 0 st
  let s := (s.sendStream x.peerAddr 5 0 st n o.cls none (rmaBytes o.op o.pkt)).countHub 6 1 (some n)
  s.modConn n c (fun x => { x with used := (x.used + o.units) % 2 ^ 32, bufUsed := (x.bufUsed + o.bufs) % 2 ^ 32,
                                   sent := x.sent ++ [{ seq := q, out := o, lastAt := s.clock }] })

/-- Sends the packets that credit allows, in order (R521); `fuel` packets at most. -/
def State.pump (n c : Nat) : Nat → State → State
  | 0, s => s
  | fuel + 1, s =>
    let x := s.conn n c
    match x.waiting with
    | [] => s
    | o :: l =>
      if creditOk x.granted x.used o.units && (decide (o.bufs = 0) || creditOk x.bufGranted x.bufUsed o.bufs) then
        State.pump n c fuel ((s.setConn n c { x with waiting := l }).sendReq n c o)
      else s

/-- CLOSE goes out once every outstanding record has completed. -/
def State.closeIfDone (s : State) (n c : Nat) : State :=
  let x := s.conn n c
  if x.st = .closing ∧ x.works = [] ∧ x.waiting = [] ∧ !x.sent.any (fun q => decide (q.out.op = 0x13)) ∧ x.closeSerial.isSome then
    s.sendReq n c { op := 0x13, pkt := noPkt, cls := x.cls }
  else s

/-- One piece of a record has ended (R520). -/
def State.pieceDone (s : State) (n c id status : Nat) (value : W64) : State :=
  let x := s.conn n c
  match x.works.find? (fun w => decide (w.id = id)) with
  | none => s
  | some w =>
    let w := { w with left := w.left - 1, status := if w.status = 0 then status else w.status,
                      value := if w.op = 4 ∨ w.op = 5 then value else w.value }
    if w.left = 0 then
      (((s.setConn n c { x with works := x.works.filter (fun v => decide (v.id ≠ id)) }).doneEvent n c 1 w.serial w.status
        w.value w.silent)).closeIfDone n c
    else s.setConn n c { x with works := x.works.map (fun v => if v.id = id then w else v) }

/-- A RESPONSE ends the packet: READ, atomics and the flagged piece (R515). -/
def needsReply (op : Nat) : Bool := decide (op = 2) || decide (op = 3) || decide (op = 4) || decide (op = 5)

/-- An ACK of the connection's stream (R470): acknowledged pieces of WRITE and SEND end (R520); an acknowledged CLOSE closes the
connection (R531). -/
def State.rmaAcked (s : State) (n c ack : Nat) : State :=
  let x := s.conn n c
  let s := s.dropAcked x.peerAddr 5 0 (rmaStream x.peerPart c x.peerConn) ack
  let done := x.sent.filter (fun q => !needsReply q.out.op && ackedSeq ack q.seq)
  let s := s.setConn n c { x with sent := x.sent.filter (fun q => !done.contains q) }
  let s := s.each done (fun s q => if q.out.op = 0x13 then s else s.pieceDone n c q.out.work 0 0)
  if done.any (fun q => decide (q.out.op = 0x13)) then
    (s.eventOn n x.eventq { serial := x.closeSerial.getD 0, kind := 6, conn := c }).freeConn n c
  else s

/-! ## Work records -/

/-- Serial s is newer than the last accepted (R440). -/
def serialNewer (x last : W32) : Bool := decide (1 ≤ (x - last).toNat) && decide ((x - last).toNat < 2 ^ 31)

/-- The WORK queue r of Pn may give its next record to the engine (R74, R433, R525). -/
def State.workReady (s : State) (n r : Nat) (record : Bytes) : Bool :=
  match s.absRing n r with
  | none => false
  | some a =>
    let q := s.ring a
    q.enabled && !q.stopped && decide (q.type = 2) && !q.event && decide (q.prod ≠ q.cons) && s.dmaOk n
      && decide (record.length = 64) && decide ((s.part n).rma.reserved < 4096) && decide ((s.part n).st = .active) && !(s.part n).molting

/-- The operations a work record can name (R509). -/
def workOps : List Nat := [1, 2, 3, 4, 5, 6, 0x10, 0x11]

/-- A reserved field of the record is set, or LEN is out of range (R509, R510). -/
def badRecord (b : Bytes) : Bool :=
  let op := field b 0 1
  let len := field b 8 4
  !workOps.contains op || decide (16 ≤ field b 1 1) || (bit (field b 1 1) 2 && decide (op ≠ 2)) || decide (4096 ≤ field b 2 2)
    || decide (64 ≤ field b 12 1) || decide (2 ≤ field b 13 1) || decide (64 ≤ field b 14 1) || decide (field b 15 1 ≠ 0)
    || decide (field b 20 4 ≠ 0) || decide (field b 56 8 ≠ 0)
    || (decide (op ≤ 3) && decide (2 ^ 24 < len)) || (decide (op = 6) && decide (8192 < len))
    || ((decide (op = 4) || decide (op = 5) || decide (0x10 ≤ op)) && decide (len ≠ 0))

/-- Cuts bytes into pieces of 8,192, the remainder last (R512). -/
def cut : Nat → Bytes → List Bytes
  | 0, _ => []
  | fuel + 1, b => if b.length ≤ 8192 then [b] else b.take 8192 :: cut fuel (b.drop 8192)

/-- The lengths of the pieces of a READ. -/
def cutLen : Nat → Nat → List Nat
  | 0, _ => []
  | fuel + 1, n => if n ≤ 8192 then [n] else 8192 :: cutLen fuel (n - 8192)

/-- Units that a request with this much data costs (R521). -/
def unitsOf (len : Nat) : Nat := max 1 ((len + 255) / 256)

/-- Queues the packets of a new record on its connection and sends what credit allows. -/
def State.issueWork (s : State) (n c : Nat) (w : Work) (os : List OutPkt) : State :=
  let x := s.conn n c
  let w := { w with id := x.nextWork, left := os.length }
  let s := s.setConn n c { x with nextWork := x.nextWork + 1, works := x.works ++ [w],
                                  waiting := x.waiting ++ os.map (fun o => { o with work := w.id }) }
  s.pump n c (s.conn n c).waiting.length

/-- The source bytes of a WRITE, WRITE_FLAG or SEND: host memory as read, or the local region; poisoned or refused by the
tag check as the second component says (R206, R533). -/
def State.workSource (s : State) (n : Nat) (b source : Bytes) : Bytes × Bool × State :=
  let len := field b 8 4
  if field b 13 1 = 0 then ((source ++ List.replicate (len - source.length) 0).take len, false, s.pcieIn n len)
  else
    let r := field b 14 1
    let a := field b 32 8
    if s.tagOk n r a len then s.regionLoad n r a len [] else ([], true, s.refuseTag n r 0x3FF a)

/-- The request packets of a record (R512, R513, R521). -/
def packets (b data : Bytes) : List OutPkt :=
  let op := field b 0 1
  let rsv := if bit (field b 1 1) 1 then 1 else 2
  let base : RmaPkt := { noPkt with flags := BitVec.ofNat 8 (field b 1 1), window := Fin.ofNat 64 (field b 12 1),
                                    key := BitVec.ofNat 32 (field b 16 4), roff := BitVec.ofNat 64 (field b 24 8) }
  let off (i : Nat) : W64 := BitVec.ofNat 64 (field b 24 8 + 8192 * i)
  if op = 1 ∨ op = 2 then
    let ps := cut 2049 data
    (ps.zipIdx).map (fun (d, i) =>
      let last := decide (i + 1 = ps.length)
      let flagged := decide (op = 2) && last
      { op := if flagged then 2 else 1, pkt := { base with roff := off i, data := d }, units := unitsOf d.length,
        bufs := nat (flagged && bit (field b 1 1) 2), cls := rsv, at0 := 8192 * i })
  else if op = 3 then
    ((cutLen 2049 (field b 8 4)).zipIdx).map (fun (l, i) =>
      { op := 3, pkt := { base with roff := off i, op0 := BitVec.ofNat 64 l }, units := 1, cls := rsv, at0 := 8192 * i })
  else if op = 6 then [{ op := 6, pkt := { base with data := data }, units := unitsOf data.length, bufs := 1, cls := rsv }]
  else [{ op := op, pkt := { base with op0 := BitVec.ofNat 64 (field b 40 8), op1 := BitVec.ofNat 64 (field b 48 8) },
          units := 1, cls := rsv }]

/-- Sends CONNECT (R513, R514). -/
def State.sendConnect (s : State) (n c : Nat) : State :=
  let x := s.conn n c
  s.sendRmaPlain n x.peerAddr x.peerPart c 0xFFF 0x10 0 x.cls
    { noPkt with roff := BitVec.ofNat 64 x.port, op0 := BitVec.ofNat 64 x.gen, op1 := 0x1F01 }

/-- Carries out a record that R509 to R511 accept. -/
def State.runWork (s : State) (n : Nat) (b source : Bytes) : State :=
  let op := field b 0 1
  let c := field b 2 2
  let serial := BitVec.ofNat 32 (field b 4 4)
  let silent := bit (field b 1 1) 0
  let len := field b 8 4
  let x := s.conn n c
  if op = 0x10 then
    if x.st ≠ .closed then s.eventOn n (field b 48 2) { serial, kind := 1, status := 5, conn := c }
    else
      (s.setConn n c { gen := (x.gen + 1) % 2 ^ 16, st := .connecting, serial, peerAddr := field b 40 2,
                       peerPart := field b 42 1 % 32, port := field b 44 2, eventq := field b 48 2, sends := 1,
                       sentAt := s.clock, cls := if bit (field b 1 1) 1 then 1 else 2 }).sendConnect n c
  else if x.st ≠ .opened then s.doneEvent n c 1 serial 5 0 false
  else if op = 0x11 then (s.setConn n c { x with st := .closing, closeSerial := some serial, cls := if bit (field b 1 1) 1 then 1 else 2 }).closeIfDone n c
  else if (op = 1 ∨ op = 3) ∧ len = 0 then s.doneEvent n c 1 serial 0 0 silent
  else if (op = 4 ∨ op = 5) ∧ field b 24 8 % 8 ≠ 0 then s.doneEvent n c 1 serial 6 0 silent
  else if (op = 4 ∨ op = 5) ∧ !x.peerCap.getLsbD 11 then s.doneEvent n c 1 serial 0x0B 0 silent
  else if (op = 6 ∨ (op = 2 ∧ bit (field b 1 1) 2)) ∧ x.allowed = 0 ∧ x.bufGranted = 0 then
    s.doneEvent n c 1 serial 0x0A 0 silent
  else
    let (data, bad, s) := if op = 1 ∨ op = 2 ∨ op = 6 then s.workSource n b source else ([], false, s)
    if bad then s.doneEvent n c 1 serial 3 0 silent
    else
      s.issueWork n c { serial, op, silent, region := if field b 13 1 = 1 then some (field b 14 1) else none,
                        laddr := field b 32 8 } (packets b data)

/-- Atomics outstanding on a connection (R527). -/
def Conn.atomics (x : Conn) : Nat := (x.works.filter (fun w => decide (w.op = 4) || decide (w.op = 5))).length

/-- The engine takes the next record of WORK queue r of Pn (R509-R511): the row `op` takes it when the record names that
operation, or names none at all. -/
def State.takeWork (s : State) (n r op : Nat) (b source : Bytes) : State :=
  if !s.workReady n r b || (workOps.contains (field b 0 1) && decide (field b 0 1 ≠ op))
      || ((decide (op = 4) || decide (op = 5)) && decide (64 ≤ (s.conn n (field b 2 2 % 4096)).atomics)) then s
  else
    match s.absRing n r with
    | none => s
    | some a =>
      let q := s.ring a
      let serial := BitVec.ofNat 32 (field b 4 4)
      let s := (s.setRing a { q with cons := (q.cons + 1) % q.entries }).pcieIn n 64
      if serialNewer serial q.lserial then
        let s := s.modRing a (fun q => { q with lserial := serial })
        if badRecord b then
          let ev := if field b 0 1 = 0x10 then field b 48 2 else (s.conn n (field b 2 2 % 4096)).eventq
          s.eventOn n ev { serial, kind := 1, status := 5, conn := field b 2 2 % 4096 }
        else s.runWork n b source
      else
        let s := s.modRma n (fun m => { m with dup := m.dup.add 1 })
        if bit (field b 1 1) 3 then
          s.eventOn n (s.conn n (field b 2 2 % 4096)).eventq { serial, kind := 1, status := 7, conn := field b 2 2 % 4096 }
        else s

/-- RMA_WRITE (R512). -/
def execRmaWrite (t : Instant) (p : PartId) (r : Nat) (record source : Bytes) (s : State) : Result :=
  .next ((s.at t).takeWork p.val r 1 record source)
/-- RMA_WRITE_FLAG (R512). -/
def execRmaWriteFlag (t : Instant) (p : PartId) (r : Nat) (record source : Bytes) (s : State) : Result :=
  .next ((s.at t).takeWork p.val r 2 record source)
/-- RMA_READ (R512). -/
def execRmaRead (t : Instant) (p : PartId) (r : Nat) (record : Bytes) (s : State) : Result :=
  .next ((s.at t).takeWork p.val r 3 record [])
/-- RMA_FETCH_ADD (R519). -/
def execRmaFetchAdd (t : Instant) (p : PartId) (r : Nat) (record : Bytes) (s : State) : Result :=
  .next ((s.at t).takeWork p.val r 4 record [])
/-- RMA_CMP_SWAP (R519). -/
def execRmaCmpSwap (t : Instant) (p : PartId) (r : Nat) (record : Bytes) (s : State) : Result :=
  .next ((s.at t).takeWork p.val r 5 record [])
/-- RMA_SEND (R524). -/
def execRmaSend (t : Instant) (p : PartId) (r : Nat) (record source : Bytes) (s : State) : Result :=
  .next ((s.at t).takeWork p.val r 6 record source)
/-- RMA_CONNECT (R514). -/
def execRmaConnect (t : Instant) (p : PartId) (r : Nat) (record : Bytes) (s : State) : Result :=
  .next ((s.at t).takeWork p.val r 0x10 record [])
/-- RMA_CLOSE (R531). -/
def execRmaClose (t : Instant) (p : PartId) (r : Nat) (record : Bytes) (s : State) : Result :=
  .next ((s.at t).takeWork p.val r 0x11 record [])

/-! ## Opening -/

/-- The listener a CONNECT meets: the lowest enabled one with its PORT (R506). -/
def Rma.listener (r : Rma) (port : Nat) : Option Listener :=
  ((List.range 16).map (fun l => AMap.get ({} : Listener) r.listeners l)).find?
    (fun l => l.enable && decide (l.port = port))

/-- Answers ACCEPT with the first grant (R513, R514, R522). -/
def State.sendAccept (s : State) (n c : Nat) : State :=
  let x := s.conn n c
  s.sendRmaPlain n x.peerAddr x.peerPart c x.peerConn 0x11 0 2
    { noPkt with op0 := BitVec.ofNat 64 (x.first.2 * 2 ^ 32 + x.first.1), op1 := 0x1F01 }

/-- CONNECTED's VALUE (R532). -/
def connectedValue (a p : Nat) : W64 := BitVec.ofNat 64 (a + 2 ^ 16 * p)

/-- An inbound CONNECT (R506, R514). -/
def State.inConnect (s : State) (x : RmaPkt) : State :=
  let n := x.partTo.val
  let m := (s.part n).rma
  let s := s.countHub 7 1 (some n)
  let gen := bits x.op0.toNat 15 0
  match m.conns.find? (fun (_, k) => k.accepted && (decide (k.st = .opened) || decide (k.st = .closing)) && decide (k.peerAddr = x.src)
      && decide (k.peerPart = x.partFrom) && decide (k.peerConn = x.peerConn) && decide (k.peerGen = gen)) with
  | some (c, _) => s.sendAccept n c
  | none =>
    let free := (List.range 4096).find? (fun c => decide ((m.conn c).st = .closed))
    match m.listener (bits x.roff.toNat 15 0), free with
    | some l, some c =>
      if (s.part n).st = .active ∧ !(s.part n).molting ∧ x.op1.getLsbD 10 ∧ m.reserved < 4096 then
        let s := s.setConn n c { gen := (m.conn c).gen, st := .opened, accepted := true, peerAddr := x.src,
                                 peerPart := x.partFrom, peerConn := x.peerConn, peerGen := gen, peerCap := x.op1,
                                 eventq := bits l.q.toNat 15 0, pool := bits l.q.toNat 25 16, given := l.units,
                                 allowed := l.bufs }
        let s := s.dropStreams x.src 5 0 [rmaStream x.partFrom c x.peerConn]
        let s := (List.range l.bufs).foldl (fun s _ =>
          match if 4096 ≤ (s.part n).rma.reserved then none else s.poolTakeOne (bits l.q.toNat 25 16) with
          | some (b, s) => (s.countHub 5 1 (some n)).modConn n c (fun k => { k with bufs := k.bufs ++ [b], bufGiven := k.bufGiven + 1 })
          | none => s.poolAsk (bits l.q.toNat 25 16) n c) s
        let s := s.modConn n c (fun k => { k with first := (k.given, k.bufGiven), sentGiven := k.given, sentBufs := k.bufGiven })
        (s.sendAccept n c).eventOn n (bits l.q.toNat 15 0) { kind := 2, conn := c, value := connectedValue x.src x.partFrom }
      else s.sendRmaPlain n x.src x.partFrom 0xFFF x.peerConn 0x12 0 2 { noPkt with status := 4 }
    | _, _ => s.sendRmaPlain n x.src x.partFrom 0xFFF x.peerConn 0x12 0 2 { noPkt with status := 4 }

/-- An RMA packet that reaches the device: nothing while its address carries no traffic (R477), or with a reserved bit set (R467). -/
def State.takeRma (s : State) (x : RmaPkt) (f : State → State) : State := if !s.speaks || x.reserved then s else f s

/-- The packet comes from the peer of its connection (R508). -/
def Conn.fromPeer (k : Conn) (x : RmaPkt) : Bool := decide (k.peerAddr = x.src) && decide (k.peerPart = x.partFrom)

/-- An unsequenced packet of an open connection (R513). -/
def Conn.meets (k : Conn) (x : RmaPkt) : Bool :=
  (decide (k.st = .opened) || decide (k.st = .closing)) && k.fromPeer x && decide (k.peerConn = x.peerConn)

/-- RMA_IN_CONNECT (R506). -/
def execRmaInConnect (t : Instant) (x : RmaPkt) (s : State) : Result :=
  .next ((s.at t).takeRma x (fun s => s.inConnect x))

/-- RMA_ACCEPT (R513): the connection opens, both streams start at SEQ 0. -/
def State.inAccept (s : State) (x : RmaPkt) : State :=
  let n := x.partTo.val
  let k := s.conn n x.conn
  let s := s.countHub 7 1 (some n)
  if k.st = .connecting ∧ k.fromPeer x then
    let s := s.setConn n x.conn { k with st := .opened, peerConn := x.peerConn, peerCap := x.op1,
                                         granted := bits x.op0.toNat 31 0, bufGranted := bits x.op0.toNat 63 32,
                                         allowed := bits x.op0.toNat 63 32 }
    (s.dropStreams x.src 5 0 [rmaStream k.peerPart x.conn x.peerConn]).eventOn n k.eventq
      { serial := k.serial, kind := 2, conn := x.conn, value := connectedValue x.src x.partFrom }
  else s

def execRmaAccept (t : Instant) (x : RmaPkt) (s : State) : Result :=
  .next ((s.at t).takeRma x (fun s => s.inAccept x))

/-- RMA_REFUSE (R513): the CONNECT completes with the status given. -/
def State.inRefuse (s : State) (x : RmaPkt) : State :=
  let n := x.partTo.val
  let k := s.conn n x.conn
  let s := s.countHub 7 1 (some n)
  if k.st = .connecting ∧ k.fromPeer x then
    (s.eventOn n k.eventq { serial := k.serial, kind := 1, status := x.status.toNat, conn := x.conn }).setConn n x.conn k.freed
  else s

def execRmaRefuse (t : Instant) (x : RmaPkt) (s : State) : Result :=
  .next ((s.at t).takeRma x (fun s => s.inRefuse x))

/-- RMA_GONE (R528). -/
def State.inGone (s : State) (x : RmaPkt) : State :=
  let n := x.partTo.val
  let s := s.countHub 7 1 (some n)
  if (s.conn n x.conn).fromPeer x then s.loseConn n x.conn else s

def execRmaGone (t : Instant) (x : RmaPkt) (s : State) : Result :=
  .next ((s.at t).takeRma x (fun s => s.inGone x))

/-- A count taken from CREDIT (R522). -/
def takeCount (mine c : Nat) : Nat :=
  let d := (c + 2 ^ 32 - mine) % 2 ^ 32
  if 1 ≤ d ∧ d < 2 ^ 31 then c % 2 ^ 32 else mine

/-- RMA_CREDIT (R522). -/
def State.inCredit (s : State) (x : RmaPkt) : State :=
  let n := x.partTo.val
  let k := s.conn n x.conn
  let s := s.countHub 7 1 (some n)
  if k.meets x then
    let s := (s.rmaAcked n x.conn x.ack.toNat).modConn n x.conn (fun k =>
      if k.st = .closed then k
      else { k with granted := takeCount k.granted (bits x.op0.toNat 31 0), bufGranted := takeCount k.bufGranted (bits x.op1.toNat 31 0) })
    s.pump n x.conn (s.conn n x.conn).waiting.length
  else s

def execRmaCredit (t : Instant) (x : RmaPkt) (s : State) : Result :=
  .next ((s.at t).takeRma x (fun s => s.inCredit x))

/-- The RESPONSE to a request: it ends a READ piece, an atomic or a flagged piece (R515); a WRITE or SEND that was refused keeps
the status until its acknowledgement (R507, R524). -/
def State.answered (s : State) (n c : Nat) (q : SentPkt) (x : RmaPkt) : State :=
  let k := s.conn n c
  let w := (k.works.find? (fun w => decide (w.id = q.out.work))).getD {}
  if needsReply q.out.op then
    let host := decide (q.out.op = 3) && decide (x.status = 0) && w.region.isNone
    if host && !s.dmaOk n then s
    else
      let s := s.setConn n c { k with sent := k.sent.filter (fun p => decide (p ≠ q)) }
      let s :=
        if q.out.op = 3 ∧ x.status = 0 then
          match w.region with
          | none => s.dmaWrite n (w.laddr + q.out.at0) x.data
          | some r =>
            let a := w.laddr + q.out.at0
            if s.tagOk n r a x.data.length then s.regionStore n r a x.data else s.refuseTag n r 0x3FF a
        else s
      s.pieceDone n c q.out.work x.status.toNat x.op0
  else
    s.setConn n c { k with works := k.works.map (fun v =>
      if v.id = q.out.work ∧ v.status = 0 then { v with status := x.status.toNat } else v) }

/-- RMA_RESPONSE (R515): the answer is taken before the acknowledgement that comes with it. -/
def State.inResponse (s : State) (x : RmaPkt) : State :=
  let n := x.partTo.val
  let s := s.countHub 7 1 (some n)
  if (s.conn n x.conn).meets x then
    let s := match (s.conn n x.conn).sent.find? (fun q : SentPkt => decide (q.seq = x.seq.toNat)) with
      | none => s
      | some q => s.answered n x.conn q x
    s.rmaAcked n x.conn x.ack.toNat
  else s

def execRmaResponse (t : Instant) (x : RmaPkt) (s : State) : Result :=
  .next ((s.at t).takeRma x (fun s => s.inResponse x))

/-! ## Inbound operations -/

/-- Sends RESPONSE to a request (R513, R516). -/
def State.reply (s : State) (n c : Nat) (x : RmaPkt) (status : Nat) (value : W64) (data : Bytes) : State :=
  let k := s.conn n c
  s.sendRmaPlain n k.peerAddr k.peerPart c k.peerConn 0x21 x.seq.toNat (if x.flags.getLsbD 1 then 1 else 2)
    { noPkt with status := BitVec.ofNat 8 status, op0 := value, data := data }

/-- The units of an applied packet are granted again (R522), withheld while HELD (R198). -/
def State.regrant (s : State) (n c units : Nat) : State :=
  if (s.part n).st = .held then s.modConn n c (fun k => { k with owedUnits := k.owedUnits + units })
  else (s.modConn n c (fun k => { k with given := (k.given + units) % 2 ^ 32 })).creditIfDue n c

/-- One more buffer is asked for (R523), withheld while HELD. -/
def State.reask (s : State) (n c : Nat) : State :=
  if (s.part n).st = .held then s.modConn n c (fun k => { k with bufsOwed := k.bufsOwed + 1 })
  else s.poolAsk (s.conn n c).pool n c

/-- The region offset a window gives an operation, if R507 lets it (`right`: 0 ATOMIC, 1 WRITE, 2 READ). -/
def State.windowAt (s : State) (n : Nat) (x : RmaPkt) (right len : Nat) : Option (Nat × Nat) :=
  let w := AMap.get ({} : Window) (s.part n).rma.windows x.window.val
  if w.enable && decide (w.key = x.key) && w.rights.getLsbD right && decide (x.roff.toNat + len ≤ 4096 * w.len) then
    some (w.region, 4096 * w.base + x.roff.toNat)
  else none

/-- Refused under R507: RMA_ACCESS counts, the initiator receives ACCESS. -/
def State.refuseAccess (s : State) (n c : Nat) (x : RmaPkt) : State :=
  (s.modRma n (fun r => { r with access := r.access.add 1 })).reply n c x 2 0 []

/-- The bytes of a write through a window (R507, R517); the RESPONSE for a refusal. -/
def State.windowWrite (s : State) (n c : Nat) (x : RmaPkt) : State × Bool :=
  match s.windowAt n x 1 x.data.length with
  | none => (s.refuseAccess n c x, false)
  | some (r, a) =>
    if s.tagOk n r a x.data.length then (s.regionStore n r a x.data, true) else ((s.refuseTag n r 0x3FF a).reply n c x 2 0 [], false)

/-- A buffer leaves the credits of the connection: it backs the packet that spends it. -/
def State.popBuf (s : State) (n c : Nat) : Option Nat × State :=
  let k := s.conn n c
  (k.bufs.head?, s.setConn n c { k with bufs := k.bufs.drop 1 })

/-- A flagged piece is applied (R518): it becomes visible, RESPONSE goes out, NOTIFY writes an event and returns the buffer. -/
def State.applyFlag (s : State) (n c : Nat) (f : HeldFlag) : State :=
  let (s, ok) := s.windowWrite n c f.pkt
  let s := if ok then s.reply n c f.pkt 0 0 [] else s
  let s := s.regrant n c (unitsOf f.pkt.data.length)
  if f.notify then
    let s := if ok then s.eventOn n (s.conn n c).eventq { kind := 3, conn := c, value := f.pkt.roff } else s
    let (b, s) := s.popBuf n c
    let s := match b with
      | some b => s.poolReturn (s.conn n c).pool b
      | none => s
    s.reask n c
  else s

/-- SEQ a comes before SEQ b in the window of R469. -/
def seqBefore (a b : Nat) : Bool := decide ((b + 2 ^ 32 - 1 - a) % 2 ^ 32 < 2 ^ 31)

/-- Applies, in order, the flagged pieces before which nothing is missing (R518). -/
def State.drainFlags (n c : Nat) : Nat → State → State
  | 0, s => s
  | fuel + 1, s =>
    let k := s.conn n c
    match k.flags.find? (fun f => seqBefore f.pkt.seq.toNat k.next
        && k.flags.all (fun g => !seqBefore g.pkt.seq.toNat f.pkt.seq.toNat)) with
    | none => s
    | some f => State.drainFlags n c fuel ((s.setConn n c { k with flags := k.flags.filter (fun g => decide (g ≠ f)) }).applyFlag n c f)

/-- NEXT moves past the SEQs received; `fuel` steps at most (R469). -/
def advance : Nat → Nat → List Nat → Nat × List Nat
  | 0, nx, l => (nx, l)
  | fuel + 1, nx, l => if l.contains nx then advance fuel ((nx + 1) % 2 ^ 32) (l.filter (fun q => decide (q ≠ nx))) else (nx, l)

/-- What R469 makes of a SEQ. -/
inductive SeqKind where
  | accept
  | again
  | stray
deriving DecidableEq, Repr

/-- The table of R469 with NEXT and the SEQs held. -/
def seqKind (next : Nat) (got : List Nat) (seq : Nat) : SeqKind :=
  let d := (seq + 2 ^ 32 - next) % 2 ^ 32
  if got.contains seq ∨ 2 ^ 32 - 4096 ≤ d then .again else if d < 4096 then .accept else .stray

/-- The acknowledgement of the connection's stream (R470). -/
def State.rmaAck (s : State) (n c : Nat) : State :=
  let k := s.conn n c
  s.sendAck k.peerAddr 0 k.next

/-- A sequenced packet for a connection number that is not open is answered with GONE, at most once per 1 ms per peer
(R528). -/
def State.answerGone (s : State) (x : RmaPkt) : State :=
  let n := x.partTo.val
  if AMap.get 0 (s.part n).rma.goneSent x.src + (if AMap.get 0 (s.part n).rma.goneSent x.src = 0 then 0 else 1000000) ≤ s.clock + 1 then
    (s.modRma n (fun r => { r with goneSent := AMap.put 0 r.goneSent x.src (s.clock + 1) })).sendRmaPlain n x.src x.partFrom
      x.conn x.peerConn 0x14 0 2 noPkt
  else s

/-- A SEQ in the connection's window (R469, R517): `apply` when it is new, `again` when it is a repeat. -/
def State.inWindow (s : State) (n c : Nat) (seq : Nat) (apply again : State → Nat → Nat → State) : State :=
  let k := s.conn n c
  match seqKind k.next k.got seq with
  | .stray => { s with fab := { s.fab with seqErr := sat32 (s.fab.seqErr + 1) } }
  | .again => (again s n c).rmaAck n c
  | .accept =>
    let (nx, got) := advance 4096 k.next (seq :: k.got)
    let s := apply (s.setConn n c { k with next := nx, got := got }) n c
    let s := State.drainFlags n c (s.conn n c).flags.length s
    if (s.conn n c).st = .closed then s else s.rmaAck n c

/-- An inbound sequenced packet (R508, R528): its ACK is taken, then its window. -/
def State.inbound (s : State) (x : RmaPkt) (apply again : State → Nat → Nat → State) : State :=
  let n := x.partTo.val
  let c := x.conn
  let k := s.conn n c
  let s := s.countHub 7 1 (some n)
  if k.st ≠ .opened ∧ k.st ≠ .closing then s.answerGone x
  else if !k.fromPeer x || decide (k.peerConn ≠ x.peerConn) then
    let s := (s.modRma n (fun r => { r with badpeer := r.badpeer.add 1 })).report
      { kind := 2, sev := 1, valid := true, part := n, code := 4, loc := 0x3FF, info := BitVec.ofNat 64 x.src }
    if k.fromPeer x then s.loseConn n c else s
  else
    let s := s.rmaAcked n c x.ack.toNat
    if (s.conn n c).st = .closed then s.answerGone x else s.inWindow n c x.seq.toNat apply again

/-- Nothing more for a repeat of a write, a SEND or a flag (R526). -/
def noAgain (s : State) (_ _ : Nat) : State := s

/-- An inbound WRITE (R517). -/
def State.inWrite (s : State) (x : RmaPkt) : State :=
  s.inbound x (fun s n c => (s.windowWrite n c x).1.regrant n c (unitsOf x.data.length)) noAgain

/-- RMA_IN_WRITE (R517). -/
def execRmaInWrite (t : Instant) (x : RmaPkt) (s : State) : Result :=
  .next ((s.at t).takeRma x (fun s => s.inWrite x))

/-- An inbound flagged piece (R518): held until nothing before it is missing. -/
def State.inFlag (s : State) (x : RmaPkt) : State :=
  s.inbound x (fun s n c => s.modConn n c (fun k => { k with flags := k.flags ++ [⟨x, x.flags.getLsbD 2⟩] })) noAgain

/-- RMA_IN_WRITE_FLAG (R518). -/
def execRmaInWriteFlag (t : Instant) (x : RmaPkt) (s : State) : Result :=
  .next ((s.at t).takeRma x (fun s => s.inFlag x))

/-- A READ piece is answered from the window (R507, R526, R533); OPERAND0 holds the length it asks for. -/
def State.serveRead (s : State) (n c : Nat) (x : RmaPkt) (upsets : List (Nat × Ecc)) : State :=
  let len := bits x.op0.toNat 31 0
  match s.windowAt n x 2 len with
  | none => s.refuseAccess n c x
  | some (r, a) =>
    if s.tagOk n r a len then
      let (bs, bad, s) := s.regionLoad n r a len upsets
      if bad then s.reply n c x 3 0 [] else s.reply n c x 0 0 bs
    else (s.refuseTag n r 0x3FF a).reply n c x 2 0 []

/-- An inbound READ piece (R517), read again for a repeat (R526). -/
def State.inRead (s : State) (x : RmaPkt) (upsets : List (Nat × Ecc)) : State :=
  s.inbound x (fun s n c => (s.serveRead n c x upsets).regrant n c 1) (fun s n c => s.serveRead n c x upsets)

/-- RMA_IN_READ (R526). -/
def execRmaInRead (t : Instant) (x : RmaPkt) (upsets : List (Nat × Ecc)) (s : State) : Result :=
  .next ((s.at t).takeRma x (fun s => s.inRead x upsets))

/-- An atomic on eight bytes of a window (R519): `f` gives the new value, `none` to leave it. -/
def State.serveAtomic (s : State) (n c : Nat) (x : RmaPkt) (upsets : List (Nat × Ecc)) (f : W64 → Option W64) : State :=
  match s.windowAt n x 0 8 with
  | none => s.refuseAccess n c x
  | some (r, a) =>
    if x.roff.toNat % 8 ≠ 0 then s.reply n c x 6 0 []
    else if !s.tagOk n r a 8 then (s.refuseTag n r 0x3FF a).reply n c x 2 0 []
    else
      let (bs, bad, s) := s.regionLoad n r a 8 upsets
      if bad then s.reply n c x 3 0 []
      else
        let old := BitVec.ofNat 64 (leNat bs)
        let s := match f old with
          | some v => s.regionStore n r a (leBytes 8 v.toNat)
          | none => s
        (s.modConn n c (fun k => { k with atoms := (k.atoms ++ [(x.seq.toNat, old)]).drop (k.atoms.length + 1 - 64) })).reply
          n c x 0 old []

/-- A repeated atomic is answered from the cache, or STALE (R526, R527). -/
def State.atomicAgain (s : State) (n c : Nat) (x : RmaPkt) : State :=
  match (s.conn n c).atoms.find? (fun a => decide (a.1 = x.seq.toNat)) with
  | some a => s.reply n c x 0 a.2 []
  | none => s.reply n c x 8 0 []

/-- An inbound atomic (R519, R526). -/
def State.inAtomic (s : State) (x : RmaPkt) (upsets : List (Nat × Ecc)) (f : W64 → Option W64) : State :=
  s.inbound x (fun s n c => (s.serveAtomic n c x upsets f).regrant n c 1) (fun s n c => s.atomicAgain n c x)

/-- FETCH_ADD adds OPERAND0 (R519). -/
def fetchAdd (x : RmaPkt) (v : W64) : Option W64 := some (v + x.op0)

/-- CMP_SWAP writes OPERAND1 where the present value equals OPERAND0 (R519). -/
def cmpSwap (x : RmaPkt) (v : W64) : Option W64 := if v = x.op0 then some x.op1 else none

/-- RMA_IN_FETCH_ADD (R519). -/
def execRmaInFetchAdd (t : Instant) (x : RmaPkt) (upsets : List (Nat × Ecc)) (s : State) : Result :=
  .next ((s.at t).takeRma x (fun s => s.inAtomic x upsets (fetchAdd x)))

/-- RMA_IN_CMP_SWAP (R519). -/
def execRmaInCmpSwap (t : Instant) (x : RmaPkt) (upsets : List (Nat × Ecc)) (s : State) : Result :=
  .next ((s.at t).takeRma x (fun s => s.inAtomic x upsets (cmpSwap x)))

/-- A SEND is written into its buffer (R524). -/
def State.serveSend (s : State) (n c : Nat) (x : RmaPkt) : State :=
  let (b, s) := s.popBuf n c
  let p := (s.conn n c).pool
  let s := s.regrant n c (unitsOf x.data.length)
  match b, s.poolRec p with
  | some b, some r =>
    let s :=
      if r.bufSize < x.data.length then (s.poolReturn p b).reply n c x 9 0 []
      else
        (s.regionStore n r.region (r.offset + b * r.bufSize) x.data).eventOn n (s.conn n c).eventq
          { kind := 4, conn := c, value := BitVec.ofNat 64 (b + 2 ^ 32 * x.data.length) }
    s.reask n c
  | _, _ => s.reply n c x 0x0A 0 []

/-- An inbound SEND (R524). -/
def State.inSend (s : State) (x : RmaPkt) : State := s.inbound x (fun s n c => s.serveSend n c x) noAgain

/-- RMA_IN_SEND (R524). -/
def execRmaInSend (t : Instant) (x : RmaPkt) (s : State) : Result :=
  .next ((s.at t).takeRma x (fun s => s.inSend x))

/-- RMA_IN_CLOSE (R531): the connection closes with one CLOSED event; the packet is acknowledged. -/
def State.inClose (s : State) (n c : Nat) : State :=
  let k := s.conn n c
  let s := s.rmaAck n c
  let s := s.each k.works (fun s w => s.doneEvent n c 1 w.serial 1 0 false)
  (s.eventOn n k.eventq { serial := k.closeSerial.getD 0, kind := 6, conn := c }).freeConn n c

def execRmaInClose (t : Instant) (x : RmaPkt) (s : State) : Result :=
  .next ((s.at t).takeRma x (fun s => s.inbound x (fun s n c => s.inClose n c) noAgain))

/-- An inbound RMA packet by its OP (R513); any other OP has no effect. -/
def State.inRma (s : State) (op : Nat) (x : RmaPkt) (upsets : List (Nat × Ecc)) : State :=
  match op with
  | 0x01 => s.inWrite x
  | 0x02 => s.inFlag x
  | 0x03 => s.inRead x upsets
  | 0x04 => s.inAtomic x upsets (fetchAdd x)
  | 0x05 => s.inAtomic x upsets (cmpSwap x)
  | 0x06 => s.inSend x
  | 0x10 => s.inConnect x
  | 0x11 => s.inAccept x
  | 0x12 => s.inRefuse x
  | 0x13 => s.inbound x (fun s n c => s.inClose n c) noAgain
  | 0x14 => s.inGone x
  | 0x20 => s.inCredit x
  | 0x21 => s.inResponse x
  | _ => s

/-! ## Timers -/

/-- RMA_CREDIT_TIMER (R522): CREDIT on every open connection, every 10 ms; the engine asks again for buffers owed, and grants those
that the limit of R525 withheld. -/
def State.creditTimer (s : State) : State :=
  s.each (List.range 32) (fun s n =>
    s.each (s.part n).rma.opened (fun s c =>
      if (s.conn n c).st = .opened then
        (if (s.part n).st = .active then (s.releaseBufs n c).askOwed n c else s).sendCredit n c
      else s))

def execRmaCreditTimer (t : Instant) (s : State) : Result := .next (s.at t).creditTimer

/-- The time a packet sent `sends` times waits before it is sent again (R470): FAB_RTO doubled at each retransmission. -/
def State.rtoAfter (s : State) (sends : Nat) : Nat := 1000 * bits s.fab.rto.toNat 15 0 * 2 ^ (sends - 1)

/-- RMA_CONNECT_RESEND (R514). -/
def State.connectResend (s : State) (n c : Nat) : State :=
  let k := s.conn n c
  if k.st = .connecting ∧ k.sentAt + s.rtoAfter k.sends ≤ s.clock then
    if k.sends < 8 then (s.setConn n c { k with sends := k.sends + 1, sentAt := s.clock }).sendConnect n c
    else (s.eventOn n k.eventq { serial := k.serial, kind := 1, status := 1, conn := c }).setConn n c k.freed
  else s

def execRmaConnectResend (t : Instant) (p : PartId) (conn : Fin 4096) (s : State) : Result :=
  .next ((s.at t).connectResend p.val conn.val)

/-- RMA_RESPONSE_TIMEOUT (R515): the request is sent again with the same SEQ and RETX; after eight transmissions the
connection is lost. -/
def State.responseTimeout (s : State) (n c seq : Nat) : State :=
  let k := s.conn n c
  match k.sent.find? (fun q => decide (q.seq = seq) && needsReply q.out.op) with
  | none => s
  | some q =>
    if s.clock < q.lastAt + s.rtoAfter q.sends then s
    else if q.sends < 8 then
      let s := s.setConn n c { k with sent := k.sent.map (fun p => if p = q then { p with sends := p.sends + 1, lastAt := s.clock } else p) }
      let s := { s with fab := { s.fab with retx := sat32 (s.fab.retx + 1) } }
      ((s.countHub 0x30 1 none).countHub 6 1 (some n)).sendOwn none
        { type := 5, retx := true, dst := k.peerAddr, src := s.fab.address, cls := q.out.cls,
          stream := rmaStream k.peerPart c k.peerConn, seq := seq, ack := k.next, part := n, payload := rmaBytes q.out.op q.out.pkt }
    else s.loseConn n c

def execRmaResponseTimeout (t : Instant) (p : PartId) (conn : Fin 4096) (seq : W32) (s : State) : Result :=
  .next ((s.at t).responseTimeout p.val conn.val seq.toNat)

/-- A hot reset aborts the source reads of the pieces that wait to be sent (R530): their records complete with HOST_ABORT, and the
flagged piece is not sent. -/
def State.abortSources (s : State) (n : Nat) : State :=
  s.each (s.part n).rma.opened (fun s c =>
    let x := s.conn n c
    let host (o : OutPkt) : Bool := [1, 2, 6].contains o.op && x.works.any (fun w => decide (w.id = o.work) && w.region.isNone)
    s.setConn n c { x with waiting := x.waiting.filter (fun o => !host o) }
      |>.each (x.waiting.filter host) (fun s o => s.pieceDone n c o.work 0x0C 0))

/-- PART_REARM grants the credits HELD withheld (R198, R458). -/
def State.rearmCredits (s : State) (n : Nat) : State :=
  s.each (s.part n).rma.opened (fun s c =>
    (((s.releaseBufs n c).askOwed n c).modConn n c (fun k =>
      { k with given := (k.given + k.owedUnits) % 2 ^ 32, owedUnits := 0 })).creditIfDue n c)

end Sys2Proof.Machine
end

