-- ==== Sys2Proof/Machine/Span.lean ====
section
/-!
DEFINITION. Spans (R488-R500): naming (R489), the loss of a member (R480, R497-R499), joining (R491, R492), launches of workers
(R494, R495), completion (R496), and the sequenced streams by which DATA and SPAN packets arrive (R269, R282, R469, R470).
-/
namespace Sys2Proof.Machine

/-- A member's place in the list. -/
def SpanRec.indexOf (r : SpanRec) (a : Nat) : Option Nat := r.members.findIdx? (fun m => decide (m = a))

/-- Pn's SPAN record. -/
def State.spanRec (s : State) (n : Nat) : Option SpanRec := (s.image n).bind PartImage.span?

/-- The partition whose committed SPAN record carries a SPAN_ID. -/
def State.spanPart (s : State) (id : Nat) : Option (Nat × SpanRec) :=
  (List.range 32).findSome? (fun n => (s.spanRec n).bind (fun r => if r.spanId = id then some (n, r) else none))

/-- A packet that R489 discards: counted, and recorded as SEPARATION. -/
def State.refuseMember (s : State) (src : Nat) : State :=
  ({ s with fab := { s.fab with memberErr := sat32 (s.fab.memberErr + 1) } }).report
    { kind := 2, sev := 1, code := 3, loc := 0x3FF, info := BitVec.ofNat 64 src }

/-- R489: the partition and the record that a SPAN_ID reaches, with the member at SRC; none where the packet is discarded. -/
def State.spanTarget (s : State) (spanId src : Nat) : Option (Nat × SpanRec × Nat) :=
  (s.spanPart spanId).bind (fun x => (x.2.indexOf src).map (fun i => (x.1, x.2, i)))

def State.modSpan (s : State) (n : Nat) (f : Span → Span) : State := s.modPart n (fun p => { p with span := f p.span })

/-- Items on their way out of the device on the channels that a test names are lost; those already written at the receiver stay
(R279). -/
def State.dropLeaving (s : State) (n : Nat) (f : ChanRec → Bool) : State :=
  s.each ((s.imageOr n).chans.filter (fun r => r.leaves && f r)) (fun s r =>
    s.setFlights n r.chan ((s.flights n r.chan).filter Flight.landed))

/-- Every stream of Pn's span restarts at SEQ 0 (R468, R492), and what it carried is gone. -/
def State.restartSpan (s : State) (n spanId : Nat) : State := (s.dropSpanStreams spanId).dropLeaving n (fun _ => true)

/-! ## Losing a member (R497-R499) -/

/-- PEER_LOST on every endpoint of a channel that faces the member (R280, R498); what was on its way to it is lost. -/
def State.peerLost (s : State) (n idx : Nat) : State :=
  (s.each (s.imageOr n).chans (fun s r =>
    if r.leaves ∧ r.dstMember = idx then s.channelFault (endCore r.src) (endEp r.src) 9
    else if r.enters ∧ r.src.toNat % 256 = idx then s.channelFault (endCore r.dst) (endEp r.dst) 9
    else s)).dropLeaving n (fun r => decide (r.dstMember = idx))

/-- What STAT shows of a loss or a refusal (R503). -/
def Span.note (x : Span) (reason idx : Nat) : Span := { x with lostValid := true, reason := reason, lost := idx }

/-- The running launches of Pn's span. -/
def State.spanLaunches (s : State) (n : Nat) : List Launch := (s.part n).launches.filter (fun l => l.started.isSome)

/-- The manager loses a worker (R498). -/
def State.managerLoses (s : State) (n idx reason : Nat) : State :=
  let s := s.modSpan n (fun x =>
    { (x.note reason idx) with st := .broken, losses := sat32 (x.losses + 1), joined := x.joined.filter (fun j => decide (j.1 ≠ idx)) })
  let s := s.fabEvent 3
  let s := s.each (s.spanLaunches n) (fun s l =>
    let l := { l with owing := l.owing.filter (fun i => decide (i ≠ idx)), status := some 0xA, lostAt := some s.clock }
    let s := s.modLaunch n l.id (fun _ => l)
    (if l.aborting then s else s.abortMembers n l).abortLaunch n l.id 3)
  s.peerLost n idx

/-- A worker loses its manager (R499). -/
def State.workerLoses (s : State) (n reason : Nat) (r : SpanRec) : State :=
  let s := s.each (s.spanLaunches n) (fun s l => s.abortLaunch n l.id 3)
  let s := s.report { kind := 9, sev := 1, valid := true, part := n, code := reason, loc := BitVec.ofNat 32 (r.members.headD 0),
                      detail := BitVec.ofNat 32 r.spanId }
  let s := s.modSpan n (fun x => { (x.note reason 0) with st := .broken, losses := sat32 (x.losses + 1) })
  (s.fabEvent 3).peerLost n 0

/-- Member `idx` of Pn's span is lost (R497). A member that has not joined cannot be lost; a worker that loses another worker
only faults the endpoints that face it. -/
def State.loseMember (s : State) (n idx reason : Nat) : State :=
  match s.spanRec n with
  | none => s
  | some r =>
    let x := (s.part n).span
    if idx = r.self then s
    else if r.self = 0 then (if x.joined.any (fun j => decide (j.1 = idx)) then s.managerLoses n idx reason else s)
    else if x.st ≠ .ready then s
    else if idx = 0 then s.workerLoses n 7 r
    else (s.modSpan n (fun x => { (x.note reason idx) with losses := sat32 (x.losses + 1) })).peerLost n idx

/-- Pn's span loses this device itself, whose address changed or entered CONFLICT (R480, R497): as a worker it aborts its running
launches and is BROKEN, with its own index and reason ADDRESS. -/
def State.loseSelf (s : State) (n : Nat) (r : SpanRec) : State :=
  if r.self = 0 then s.managerLoses n 0 4
  else
    let s := s.each (s.spanLaunches n) (fun s l => s.abortLaunch n l.id 3)
    (s.modSpan n (fun x => { (x.note 4 r.self) with st := .broken, losses := sat32 (x.losses + 1) })).fabEvent 3

/-- Every span that names the device's own old address loses it (R480). -/
def State.loseOwn (s : State) (a : Nat) : State :=
  s.each (List.range 32) (fun s n =>
    match s.spanRec n with
    | some r => if r.indexOf a = some r.self ∧ (s.part n).span.st ≠ .broken then s.loseSelf n r else s
    | none => s)

/-- Every span loses the members at an address (R480, R497). -/
def State.loseMembersAt (s : State) (a reason : Nat) : State :=
  s.each (List.range 32) (fun s n =>
    match (s.spanRec n).bind (fun r => r.indexOf a) with
    | some i => s.loseMember n i reason
    | none => s)

/-! ## Joining (R491, R492) -/

/-- A worker's JOIN to its manager (R490). -/
def State.sendJoin (s : State) (n : Nat) : State :=
  match s.image n, s.spanRec n with
  | some i, some r => s.sendSpan n (r.members.headD 0) (.join r.digest r.self (s.part n).span.hops (BitVec.ofNat 32 i.id))
  | _, _ => s

/-- The manager's span becomes READY once every worker has joined (R492): GEN rises, every stream of the span restarts, READY
goes to every worker. -/
def State.readyIfJoined (s : State) (n : Nat) (r : SpanRec) : State :=
  let x := (s.part n).span
  if x.joined.length + 1 < r.members.length then s
  else
    let gen := x.gen + 1
    let s := (s.modSpan n (fun x => { x with st := .ready, gen := gen })).restartSpan n r.spanId
    s.each (r.members.drop 1) (fun s a => s.sendSpan n a (.ready r.digest gen))

/-- The reason a JOIN is refused (R491); 0 where it is not. -/
def SpanRec.refuses (r : SpanRec) (idx : Nat) (digest : W32) (self : Nat) (cap : W64) : Nat :=
  if digest ≠ r.digest then 5 else if self ≠ idx then 6 else if !cap.getLsbD 9 then 8 else 0

/-- JOIN from member `idx` (R491). -/
def State.onJoin (s : State) (n : Nat) (r : SpanRec) (idx : Nat) (digest : W32) (self hops : Nat) (cap : W64) : State :=
  if r.self ≠ 0 ∨ idx = 0 then s
  else
    match r.refuses idx digest self cap with
    | 0 =>
      let s := s.modSpan n (fun x => { x with joined := x.joined.filter (fun j => decide (j.1 ≠ idx)) ++ [(idx, hops)] })
      s.readyIfJoined n r
    | e => (s.modSpan n (fun x => x.note e idx)).sendSpan n (r.members.getD idx 0) (.reject (BitVec.ofNat 8 e))

/-- READY (R492): the worker takes the new GEN. -/
def State.onReady (s : State) (n : Nat) (r : SpanRec) (idx : Nat) (digest : W32) (gen : BitVec 16) : State :=
  if r.self = 0 ∨ idx ≠ 0 ∨ digest ≠ r.digest then s else s.modSpan n (fun x => { x with st := .ready, gen := gen })

/-- REJECT (R491): the worker stays BROKEN with the reason. -/
def State.onReject (s : State) (n : Nat) (r : SpanRec) (idx : Nat) (reason : Byte) : State :=
  if r.self = 0 ∨ idx ≠ 0 then s
  else (s.modSpan n (fun x => { (x.note reason.toNat r.self) with st := .broken })).fabEvent 3

/-- JOIN_RESEND (R491, R499, R500): while no READY or REJECT has come. -/
def execJoinResend (t : Instant) (n : PartId) (s : State) : Result :=
  let s := s.at t
  let x := (s.part n.val).span
  match s.spanRec n.val with
  | some r =>
    if r.self ≠ 0 ∧ (x.st = .joining ∨ (x.st = .broken ∧ (x.reason = 7 ∨ x.reason = 4))) then .next (s.sendJoin n.val) else .next s
  | none => .next s

/-! ## Launches (R494-R496) -/

/-- LAUNCH (R494): the worker queues its share, or answers DONE HELD. -/
def State.onLaunch (s : State) (n : Nat) (r : SpanRec) (idx graph : Nat) (epoch : BitVec 16) (serial : W32) (timed : Bool) (start : W64)
    (params : List (Nat × W64)) : State :=
  if r.self = 0 ∨ idx ≠ 0 then s
  else if (s.part n).st = .held then s.sendSpan n (r.members.headD 0) (.done graph epoch 0x81 0 0 0)
  else
    let i := s.imageOr n
    let l : Launch :=
      { id := (s.part n).nextId, graph := graph, serial := serial, readAt := s.mono, timed := timed, startTime := start,
        epoch := epoch, remote := true, cores := i.graphCores graph,
        params := patched (((i.graph graph).map GraphRec.defaults).getD []) params }
    s.modPart n (fun p => { p with nextId := p.nextId + 1, launches := p.launches ++ [l] })

/-- The launch of a graph and an epoch. -/
def Part.spanLaunch (p : Part) (graph : Nat) (epoch : BitVec 16) : Option Launch :=
  p.launches.find? (fun l => decide (l.graph = graph) && decide (l.epoch = epoch))

/-- A DONE that fails the launch (R495): FAULT, MOLT, SKIPPED or HELD. -/
def doneFails (status : Nat) : Bool := [1, 2, 3, 0x81].contains status

/-- DONE at the manager (R495, R496). -/
def State.onDone (s : State) (n : Nat) (r : SpanRec) (idx graph : Nat) (epoch : BitVec 16) (status cause : Byte) (beats : W64)
    (preempt : Byte) : State :=
  match (s.part n).spanLaunch graph epoch with
  | none => s
  | some l =>
    if r.self ≠ 0 ∨ !l.owing.contains idx then s
    else
      let e : MemberEnd := { index := idx, status := status.toNat, cause := cause.toNat, beats := beats.toNat,
                             preempt := preempt.toNat }
      let fails := doneFails status.toNat
      let l := { l with owing := l.owing.filter (fun i => decide (i ≠ idx)), members := l.members ++ [e],
                        fault := if l.fault.isNone ∧ status = 1 then some cause.toNat else l.fault }
      let s := s.modLaunch n l.id (fun _ => l)
      let s := if fails then (if l.aborting then s else s.abortMembers n l).abortLaunch n l.id 3 else s
      match s.launch n l.id with
      | some l => if l.over then s.finishLaunch n l else s
      | none => s

/-- ABORT (R495): the worker aborts its share. -/
def State.onAbort (s : State) (n : Nat) (r : SpanRec) (idx graph : Nat) (epoch : BitVec 16) : State :=
  match (s.part n).spanLaunch graph epoch with
  | none => s
  | some l =>
    if r.self = 0 ∨ idx ≠ 0 ∨ !l.remote then s
    else if l.started.isNone then s.endLaunch n l 0x80 0
    else s.abortLaunch n l.id 3

/-- What a SPAN packet from member `idx` does (R490). -/
def State.onSpan (s : State) (n : Nat) (r : SpanRec) (idx : Nat) (cap : W64) : SpanOp → State
  | .join digest self hops _ => s.onJoin n r idx digest self hops cap
  | .ready digest gen => s.onReady n r idx digest gen
  | .reject reason => s.onReject n r idx reason
  | .launch graph epoch serial timed start params => s.onLaunch n r idx graph epoch serial timed start params
  | .done graph epoch status cause beats preempt => s.onDone n r idx graph epoch status cause beats preempt
  | .abort graph epoch => s.onAbort n r idx graph epoch
  | .leave _ => s.loseMember n idx 3

/-! ## Acknowledgements (R470) -/

/-- Sends of a channel that have been written at the receiver: the first `k` flights land. -/
def landSome : Nat → List Flight → List Flight
  | 0, l => l
  | k + 1, l => landSome k (landFirst l)

/-- A cumulative acknowledgement of one of our streams (R470); acknowledged DATA packets are sends that have landed (R279). -/
def State.acked (s : State) (dst type spanId stream ack : Nat) : State :=
  match s.fab.tx.find? (fun x => x.named dst type spanId stream) with
  | none => s
  | some x =>
    let done := (x.sent.filter (fun q => ackedSeq ack q.1)).length
    let s := s.dropAcked dst type spanId stream ack
    if type = 0 then s.setFlights x.part stream (landSome done (s.flights x.part stream)) else s

/-- An ACK packet acknowledges the stream that it carries the name of (R470; its STREAM is 0, R465). -/
def State.takeAck (s : State) (h : Bft) (acks : Option (Nat × Nat)) : State :=
  match acks with
  | some (type, stream) =>
    if type = 5 then
      let n := stream / 2 ^ 24 % 32
      let c := stream % 4096
      if (s.conn n c).st ≠ .closed ∧ (s.conn n c).peerAddr = h.src then s.rmaAcked n c h.ack else s
    else if type = 0 ∨ type = 4 then s.acked h.src type h.spanId stream h.ack
    else s
  | none => s

/-! ## Receiving DATA and SPAN packets (R469, R282) -/

/-- A DATA packet's item reaches its channel (R269, R282): discarded, with a CHANNEL record, where no record of this side
matches. -/
def State.applyData (s : State) (n p : Nat) (h : Bft) (cls : Nat) (x : Option Item) : State :=
  let ch := h.stream % 4096
  let fits (r : ChanRec) (y : Item) : Bool :=
    decide ((r.kind = 0) = (cls = 1)) &&
      (if isCredit y then r.leaves && decide (s.member n r.dstMember = h.src)
       else r.enters && decide (s.member n (r.src.toNat % 256) = h.src))
  match x with
  | none => s
  | some y =>
    match (s.image n).bind (fun i => i.channel ch) with
    | some r =>
      if fits r y then
        (if isCredit y then s.receiveItem (endCore r.src) (endEp r.src) y else s.receiveItem (endCore r.dst) (endEp r.dst) y)
      else s.report { kind := 3, sev := 1, loc := BitVec.ofNat 32 p, detail := BitVec.ofNat 32 ch, info := BitVec.ofNat 64 h.src }
    | none => s.report { kind := 3, sev := 1, loc := BitVec.ofNat 32 p, detail := BitVec.ofNat 32 ch, info := BitVec.ofNat 64 h.src }

/-- A packet whose turn has come acts. -/
def State.applyCargo (s : State) (n p : Nat) (r : SpanRec) (idx : Nat) (h : Bft) : Cargo → State
  | .data cls x => s.applyData n p h cls x
  | .span (some op) cap => s.onSpan n r idx cap op
  | .span none _ => s

/-- Our side of a peer's stream. -/
def State.rxStream (s : State) (h : Bft) : RxStream :=
  (s.fab.rx.find? (fun x => x.named h.src h.type h.spanId h.stream)).getD
    { src := h.src, type := h.type, spanId := h.spanId, stream := h.stream }

def State.setRx (s : State) (y : RxStream) : State :=
  let has := s.fab.rx.any (fun x => x.named y.src y.type y.spanId y.stream)
  let rx := if has then s.fab.rx.map (fun x => if x.named y.src y.type y.spanId y.stream then y else x) else s.fab.rx ++ [y]
  { s with fab := { s.fab with rx := rx } }

/-- The packets that now follow in SEQ order act; `fuel` at most. -/
def State.drainRx (n p : Nat) (r : SpanRec) (idx : Nat) (h : Bft) : Nat → State → State
  | 0, s => s
  | fuel + 1, s =>
    let y := s.rxStream h
    match y.held.find? (fun q => decide (q.1 = y.next)) with
    | none => s
    | some (_, x) =>
      let s := s.setRx { y with next := (y.next + 1) % 2 ^ 32, held := y.held.filter (fun q => decide (q.1 ≠ y.next)) }
      State.drainRx n p r idx h fuel (s.applyCargo n p r idx h x)

/-- The acknowledgement of a stream (R470). -/
def State.ackStream (s : State) (h : Bft) : State :=
  let y := s.rxStream h
  (s.setRx { y with unacked := 0 }).sendAck h.src h.spanId y.next

/-- A DATA or SPAN packet in its stream's window (R469, R470). -/
def State.inStream (s : State) (n p : Nat) (r : SpanRec) (idx : Nat) (h : Bft) (x : Cargo) : State :=
  let y := s.rxStream h
  match seqKind y.next (y.held.map Prod.fst) h.seq with
  | .accept =>
    let s := State.drainRx n p r idx h 4097 (s.setRx { y with held := y.held ++ [(h.seq, x)], unacked := y.unacked + 1 })
    if 16 ≤ (s.rxStream h).unacked then s.ackStream h else s
  | .again => s.ackStream h
  | .stray => { s with fab := { s.fab with seqErr := sat32 (s.fab.seqErr + 1) } }

/-- What comes before a SPAN packet's window: a READY with a new GEN, or to a worker that is not READY, restarts every stream of the
span (R492); a JOIN of a member that has not joined, and a REJECT to a worker that is not READY, begin their stream at their SEQ
(DESIGN CHOICE, notes/assumptions/89.md). -/
def State.restartFor (s : State) (n : Nat) (r : SpanRec) (idx : Nat) (h : Bft) : Cargo → State
  | .span (some op) _ =>
    let x := (s.part n).span
    let fresh (s : State) : State := s.setRx { src := h.src, type := h.type, spanId := h.spanId, stream := h.stream, next := h.seq }
    match op with
    | .join .. => if r.self = 0 ∧ idx ≠ 0 ∧ !x.joined.any (fun j => decide (j.1 = idx)) then fresh s else s
    | .ready digest gen =>
      if r.self ≠ 0 ∧ idx = 0 ∧ digest = r.digest ∧ (x.st ≠ .ready ∨ gen ≠ x.gen) then s.restartSpan n r.spanId else s
    | .reject _ => if r.self ≠ 0 ∧ idx = 0 ∧ x.st ≠ .ready then fresh s else s
    | _ => s
  | _ => s

/-- A DATA or SPAN packet for this device (R489): SPAN_ID names the partition, SRC must be a member. `p` is the port. -/
def State.takeStream (s : State) (p : Nat) (h : Bft) (x : Cargo) : State :=
  match s.spanTarget h.spanId h.src with
  | none => s.refuseMember h.src
  | some (n, r, idx) =>
    ((s.acked h.src h.type h.spanId h.stream h.ack).restartFor n r idx h x).inStream n p r idx h x

/-- A SPAN packet (R490): nothing while the device's address carries no traffic (R477). -/
def State.takeSpan (s : State) (h : SpanHead) (op : SpanOp) (cap : W64) : State :=
  if s.speaks then
    s.takeStream 0 { type := 4, dst := s.fab.address, src := h.src, cls := 1, spanId := h.spanId.toNat, seq := h.seq.toNat,
                     ack := h.ack.toNat, payload := op.bytes } (.span (some op) cap)
  else s

/-- SPAN_JOIN (R491). -/
def execSpanJoin (t : Instant) (h : SpanHead) (digest : W32) (self hops : Nat) (image : W32) (cap : W64) (s : State) : Result :=
  .next ((s.at t).takeSpan h (.join digest self hops image) cap)

/-- SPAN_READY (R492). -/
def execSpanReady (t : Instant) (h : SpanHead) (digest : W32) (gen : BitVec 16) (s : State) : Result :=
  .next ((s.at t).takeSpan h (.ready digest gen) 0)

/-- SPAN_REJECT (R491). -/
def execSpanReject (t : Instant) (h : SpanHead) (reason : Byte) (s : State) : Result :=
  .next ((s.at t).takeSpan h (.reject reason) 0)

/-- SPAN_LAUNCH (R494). -/
def execSpanLaunch (t : Instant) (h : SpanHead) (graph : Fin 4096) (epoch : BitVec 16) (serial : W32) (timed : Bool) (start : W64)
    (params : List (Nat × W64)) (s : State) : Result :=
  .next ((s.at t).takeSpan h (.launch graph.val epoch serial timed start params) 0)

/-- SPAN_DONE (R495, R496). -/
def execSpanDone (t : Instant) (h : SpanHead) (graph : Fin 4096) (epoch : BitVec 16) (status cause : Byte) (beats : W64)
    (preempt : Byte) (s : State) : Result :=
  .next ((s.at t).takeSpan h (.done graph.val epoch status cause beats preempt) 0)

/-- SPAN_ABORT (R495). -/
def execSpanAbort (t : Instant) (h : SpanHead) (graph : Fin 4096) (epoch : BitVec 16) (s : State) : Result :=
  .next ((s.at t).takeSpan h (.abort graph.val epoch) 0)

/-- SPAN_LEAVE (R497). -/
def execSpanLeave (t : Instant) (h : SpanHead) (reason : Byte) (s : State) : Result :=
  .next ((s.at t).takeSpan h (.leave reason) 0)

/-- SPAN_LOSS_TIMEOUT (R498): 20 ms after the loss the launches complete with SPAN_LOST. -/
def execSpanLossTimeout (t : Instant) (n : PartId) (s : State) : Result :=
  let s := s.at t
  let due := (s.part n.val).launches.filter (fun l => l.lostAt.any (fun a => decide (a + 20000000 ≤ s.clock)))
  .next (s.each due (fun s l => s.endLaunch n.val l 0xA 0))

end Sys2Proof.Machine
end

