-- ==== Sys2Proof/Machine/Fabric.lean ====
section
/-!
DEFINITION. The fabric (ch. 16): ports (R462, R502), Croaks and adjacencies (R471-R474), addresses (R475-R480), link-state records and
routes (R481-R483), the reception of frames (R463, R464, R467, R485) and retransmission (R470).
-/
namespace Sys2Proof.Machine

/-- A CROAK, LSR or data packet crosses an adjacency only when it is compatible (R474). -/
def compatible (cap : W64) : Bool := decide (bits cap.toNat 7 0 = 1) && cap.getLsbD 8

/-! ## The database and our own record (R481) -/

/-- How ASTATE codes the address state (R471, R501). -/
def AddrState.code : AddrState → Nat
  | .none => 0
  | .tentative => 1
  | .claimed => 2
  | .assigned => 3
  | .conflict => 4
  | .failed => 5

/-- The adjacencies of the device that are up: the port and the adjacency. -/
def State.adjacencies (s : State) : List (Nat × Adj) :=
  (List.range 18).flatMap (fun p => if s.portUp p then ((s.port p).adjs.filter (fun a => !a.mismatch)).map (fun a => (p, a)) else [])

/-- The bytes of a link-state record (R481). -/
def lsrBytes (x : Lsr) : Bytes :=
  leBytes 8 x.unit.toNat ++ leBytes 2 x.address ++ leBytes 1 x.astate ++ leBytes 1 x.adj.length ++ leBytes 4 x.seq.toNat
    ++ x.adj.flatMap (fun (u, a, p, c) => leBytes 8 u.toNat ++ leBytes 2 a ++ leBytes 1 p ++ leBytes 1 c ++ leBytes 4 0)

/-- A record is kept in the database (R481) with the time at which it was refreshed. -/
def State.keepLsr (s : State) (x : Lsr) : State :=
  { s with fab := { s.fab with db := AMap.put none s.fab.db x.unit.toNat (some (x, s.clock)) } }

/-- A record is flooded to every compatible adjacency but the one it came from (R481). -/
def State.flood (s : State) (x : Lsr) (except : Option (Nat × W64)) : State :=
  s.each (s.adjacencies.filter (fun a => decide (except ≠ some (a.1, a.2.unit)))) (fun s a =>
    s.emit a.1 (s.frameOf a.1 (some a.2) { type := 3, dst := a.2.address, src := s.fab.address, payload := lsrBytes x } 0))

/-- A device with an address sends a new LSR (R481). -/
def State.sendLsr (s : State) : State :=
  if s.fab.addrState = .none ∨ s.fab.addrState = .failed then s
  else
    let seq := s.fab.lsrSeq + 1
    let s := { s with fab := { s.fab with lsrSeq := seq } }
    let x : Lsr := { unit := s.unitId, address := s.fab.address, astate := s.fab.addrState.code, seq := seq,
                     adj := s.adjacencies.map (fun a => (a.2.unit, a.2.address, a.1, (s.port a.1).cost)) }
    (s.keepLsr x).flood x none

/-! ## Addresses (R475-R480) -/

/-- Candidate i of the self-claim (R476). -/
def State.candidate (s : State) (i : Nat) : Nat :=
  let u := s.unitId.toNat
  let f := (u % 65536) ^^^ (u / 65536 % 65536) ^^^ (u / 2 ^ 32 % 65536) ^^^ (u / 2 ^ 48 % 65536)
  (f + 4099 * i) % 65534 + 1

/-- Who keeps an address that two claim (R478): the rank of a state, higher first. -/
def claimRank (astate : Nat) : Nat := if astate = 3 ∨ astate = 4 then 3 else if astate = 2 then 2 else if astate = 1 then 1 else 0

/-- Claimant (state, unit) `a` keeps the address against `b`. -/
def keeps (a b : Nat × W64) : Bool :=
  decide (claimRank b.1 < claimRank a.1) || (decide (claimRank a.1 = claimRank b.1) && decide (a.2.toNat < b.2.toNat))

/-- A record of another device claims our address and keeps it; a device in CONFLICT claims nothing. -/
def State.beaten (s : State) (address : Nat) (st : AddrState) : Bool :=
  s.fab.db.any (fun x => match x.2 with
    | some (r, _) => decide (r.unit ≠ s.unitId) && decide (r.address = address) && decide (1 ≤ r.astate) && decide (r.astate ≤ 3)
        && !keeps (st.code, s.unitId) (r.astate, r.unit)
    | none => false)

/-- No address is left to claim (R479); the device's own record goes. -/
def State.failClaim (s : State) : State :=
  { s with fab := { s.fab with addrState := .failed, address := 0, attempt := 255, db := AMap.put none s.fab.db s.unitId.toNat none } }

/-- The next candidate that no record beats, as TENTATIVE; after 256 lost, none (R479). -/
def State.nextCandidate : Nat → Nat → State → State
  | 0, _, s => s.failClaim
  | fuel + 1, i, s =>
    if 256 ≤ i then s.failClaim
    else if s.beaten (s.candidate i) .tentative then State.nextCandidate fuel (i + 1) s
    else { s with fab := { s.fab with addrState := .tentative, address := s.candidate i, attempt := i, since := s.clock } }

/-- A change of the device's own address, or of its right to carry traffic: every span that names the old address loses the device
(R480). -/
def State.readdress (s : State) (f : State → State) : State :=
  let t := f s
  if s.speaks && (!t.speaks || decide (t.fab.address ≠ s.fab.address)) then t.loseOwn s.fab.address else t

/-- The rules of R478 and R479 applied to the database as it stands. -/
def State.settle (s : State) : State :=
  let st := s.fab.addrState
  let a := s.fab.address
  if st = .tentative ∨ st = .claimed then
    (if s.beaten a st then (State.nextCandidate 257 (s.fab.attempt + 1) s).sendLsr else s)
  else if st = .assigned then
    (if s.beaten a st then (({ s with fab := { s.fab with addrState := .conflict } }).fabEvent 1).sendLsr else s)
  else if st = .conflict then
    (if s.beaten a .assigned then s else ({ s with fab := { s.fab with addrState := .assigned } }).sendLsr)
  else s

/-- The rules applied, with what follows for the device's own spans. -/
def State.settleAddress (s : State) : State := s.readdress State.settle

/-- The claim begins with the first adjacency (R475); a new adjacency restarts the 20 ms of a TENTATIVE one (R477). -/
def State.claimOnAdjacency (s : State) : State :=
  if s.fab.addrState = .none then State.nextCandidate 257 0 s
  else if s.fab.addrState = .tentative then { s with fab := { s.fab with since := s.clock } }
  else s

/-- ADDRESS_CLAIM_TIMEOUT (R477). -/
def execAddressClaimTimeout (t : Instant) (s : State) : Result :=
  let s := s.at t
  if s.fab.addrState = .tentative ∧ s.fab.since + 20000000 ≤ s.clock then
    .next (({ s with fab := { s.fab with addrState := .claimed } }).sendLsr)
  else .next s

/-! ## Port commands -/

/-- Every adjacency of a port goes down (R472): FAB_EVENT.LINK, and a new LSR. -/
def State.dropAdjacencies (s : State) (p : Nat) : State :=
  let s := s.modPort p (fun q => { q with adjs := [] })
  (s.fabEvent 0).sendLsr

/-- Training starts (R502). -/
def State.trainPort (s : State) (p : Nat) : State :=
  if s.hasPort p && decide ((s.port p).link = .down) then s.modPort p (fun q => { q with link := .training }) else s

/-- PORT_ENABLE (R464, R502): FAB_PORTp_CFG written. MODE is taken only while the port is disabled; a COST of 0 is ignored. -/
def execPortEnable (t : Instant) (p : PortId) (v : W32) (s : State) : Result :=
  let s := s.at t
  let p := p.val
  if !s.hasPort p then .next s
  else
    let q := s.port p
    let cost := bits v.toNat 7 0
    let q' := { q with enable := v.getLsbD 31, mode := if q.enable then q.mode else v.getLsbD 28,
                       cost := if cost = 0 then q.cost else cost }
    let s := s.setPort p q'
    let s := if q.enable ∧ !q'.enable ∧ q.adjs ≠ [] then s.dropAdjacencies p else if q.cost ≠ q'.cost ∧ q.adjs ≠ [] then s.sendLsr else s
    .next (if v.getLsbD 30 then s.trainPort p else s)

/-- PORT_TRAIN (R502). -/
def execPortTrain (t : Instant) (p : PortId) (s : State) : Result := .next ((s.at t).trainPort p.val)

/-- PORT_LINK_UP (R462). -/
def execPortLinkUp (t : Instant) (p : PortId) (s : State) : Result :=
  let s := s.at t
  if s.hasPort p.val && decide ((s.port p.val).link = .training) then
    .next ((s.modPort p.val (fun q => { q with link := .up })).fabEvent 0)
  else .next s

/-- PORT_LINK_DOWN (R472): its adjacencies go down at once. -/
def execPortLinkDown (t : Instant) (p : PortId) (s : State) : Result :=
  let s := s.at t
  if s.hasPort p.val && decide ((s.port p.val).link ≠ .down) then
    .next ((s.modPort p.val (fun q => { q with link := .down })).dropAdjacencies p.val)
  else .next s

/-! ## Croaks (R471-R474) -/

/-- The device's capability word (R473). -/
def ownCap : W64 := 0x1F01

/-- CROAK_SEND (R471). -/
def execCroakSend (t : Instant) (p : PortId) (s : State) : Result :=
  let s := s.at t
  let p := p.val
  if !s.portUp p then .next s
  else
    let seq := (s.port p).croakSeq + 1
    let s := s.modPort p (fun q => { q with croakSeq := seq })
    let body := leBytes 8 s.unitId.toNat ++ leBytes 2 s.fab.address ++ leBytes 1 p ++ leBytes 1 s.fab.addrState.code
      ++ leBytes 8 ownCap.toNat ++ leBytes 4 s.fab.lsrSeq.toNat ++ leBytes 4 seq.toNat ++ leBytes 4 0
    .next (s.emit p (s.frameOf p none { type := 2, dst := 0xFFFF, src := s.fab.address, payload := body } 0))

/-- Croaks missed between two that came (R502). -/
def missedBetween (last now : Nat) : Nat := (now - last + 500000) / 1000000 - 1

/-- A Croak from a neighbour that the port already holds, or has room for. -/
def State.hearCroak (s : State) (p : Nat) (x : Croak) : State :=
  let q := s.port p
  let bad := !compatible x.cap
  let a : Adj := { unit := x.unit, address := x.address, port := x.port, cap := x.cap, mismatch := bad, lastAt := s.clock, ip := x.ip }
  match q.adjs.find? (fun y => decide (y.unit = x.unit)) with
  | some y =>
    let s := s.setPort p { q with adjs := q.adjs.map (fun z => if z.unit = x.unit then a else z),
                                  missed := sat32 (q.missed + missedBetween y.lastAt s.clock) }
    if bad ∧ !y.mismatch then (s.fabEvent 2).sendLsr
    else if !bad ∧ y.mismatch then ((s.fabEvent 0).claimOnAdjacency).sendLsr
    else if !bad ∧ y.address ≠ x.address then s.sendLsr
    else s
  | none =>
    if q.mode ∧ 64 ≤ q.adjs.length then s.setPort p { q with drop := sat32 (q.drop + 1) }
    else
      let s := s.setPort p { q with adjs := (if q.mode then q.adjs else []) ++ [a] }
      if bad then s.fabEvent 2 else ((s.fabEvent 0).claimOnAdjacency).sendLsr

/-- A Croak (R472, R474). On a DIRECT port one with another UNIT_ID takes the old adjacency down first. -/
def State.takeCroak (s : State) (p : Nat) (x : Croak) : State :=
  if !s.portUp p ∨ x.unit = s.unitId then s
  else
    let q := s.port p
    let s := if !q.mode ∧ q.adjs.any (fun a => decide (a.unit ≠ x.unit)) then s.dropAdjacencies p else s
    s.hearCroak p x

/-- CROAK_RECEIVE (R472). -/
def execCroakReceive (t : Instant) (p : PortId) (x : Croak) (s : State) : Result := .next ((s.at t).takeCroak p.val x)

/-- ADJACENCY_TIMEOUT (R472): 3 ms since the last Croak. -/
def execAdjacencyTimeout (t : Instant) (p : PortId) (unit : W64) (s : State) : Result :=
  let s := s.at t
  let p := p.val
  let q := s.port p
  match q.adjs.find? (fun a => decide (a.unit = unit)) with
  | some a =>
    if a.lastAt + 3000000 ≤ s.clock then
      let s := s.setPort p { q with adjs := q.adjs.filter (fun a => decide (a.unit ≠ unit)), missed := sat32 (q.missed + 3) }
      .next ((s.fabEvent 0).sendLsr)
    else .next s
  | none => .next s

/-! ## Link-state records (R481) -/

/-- The record is newer than the one kept, under the window of launch serials. -/
def State.newerLsr (s : State) (x : Lsr) : Bool :=
  match AMap.get none s.fab.db x.unit.toNat with
  | some (y, _) => serialNewer x.seq y.seq
  | none => true

/-- An address that a device has left, or now holds in CONFLICT, is lost to spans and connections (R480); a TENTATIVE one carried no
traffic (R477). -/
def State.leftAddress (s : State) (old new : Lsr) : State :=
  if old.address ≠ 0 ∧ ((old.address ≠ new.address ∧ 2 ≤ old.astate ∧ old.astate ≤ 3) ∨ (new.astate = 4 ∧ old.astate ≠ 4)) then
    (s.loseMembersAt old.address 4).loseAddress old.address
  else s

/-- A link-state record (R481, R478): a newer one is kept and flooded, and conflicts are settled. -/
def State.takeLsr (s : State) (p : Nat) (sender : W64) (x : Lsr) : State :=
  if !(s.adjacencies.any (fun a => decide (a.1 = p) && decide (a.2.unit = sender))) ∨ x.unit = s.unitId ∨ !s.newerLsr x then s
  else
    let old := AMap.get none s.fab.db x.unit.toNat
    let s := (s.keepLsr x).flood x (some (p, sender))
    let s := match old with
      | some (y, _) => s.leftAddress y x
      | none => s
    s.settleAddress

/-- LSR_RECEIVE (R481). -/
def execLsrReceive (t : Instant) (p : PortId) (sender : W64) (x : Lsr) (s : State) : Result :=
  .next ((s.at t).takeLsr p.val sender x)

/-- LSR_REFRESH (R481). -/
def execLsrRefresh (t : Instant) (s : State) : Result := .next ((s.at t).sendLsr)

/-- LSR_EXPIRY (R481): a record not refreshed for 3.5 s is removed. -/
def execLsrExpiry (t : Instant) (unit : W64) (s : State) : Result :=
  let s := s.at t
  match AMap.get none s.fab.db unit.toNat with
  | some (_, at0) =>
    if unit = s.unitId ∨ s.clock < at0 + 3500000000 then .next s
    else .next ({ s with fab := { s.fab with db := AMap.put none s.fab.db unit.toNat none } }).settleAddress
  | none => .next s

/-! ## Routes (R482, R483) -/

/-- The records of the database. -/
def State.lsrs (s : State) : List Lsr := s.fab.db.filterMap (fun x => x.2.map Prod.fst)

/-- The links of a record that both ends report: the neighbour, the port, the cost. -/
def bothWays (db : List Lsr) (x : Lsr) : List (W64 × Nat × Nat) :=
  (x.adj.filter (fun (u, _, _, _) => db.any (fun y => decide (y.unit = u) && y.adj.any (fun z => decide (z.1 = x.unit))))).map
    (fun (u, _, p, c) => (u, p, c))

/-- The better of two distances (cost, hops). -/
def better (a b : Option (Nat × Nat)) : Option (Nat × Nat) :=
  match a, b with
  | some x, some y => if y.1 < x.1 ∨ (y.1 = x.1 ∧ y.2 < x.2) then some y else some x
  | some x, none => some x
  | none, y => y

/-- One round of distances to a destination: each device's best through a neighbour. -/
def distRound (db : List Lsr) (dst : W64) (d : List (W64 × Nat × Nat)) : List (W64 × Nat × Nat) :=
  db.filterMap (fun x =>
    if x.unit = dst then some (dst, 0, 0)
    else
      let best := (bothWays db x).foldl (fun a (u, _, c) =>
        better a ((d.find? (fun y => decide (y.1 = u))).map (fun y => (c + y.2.1, 1 + y.2.2)))) none
      best.map (fun b => (x.unit, b.1, b.2)))

/-- The distances to a destination after `n` rounds. -/
def distances (db : List Lsr) (dst : W64) : Nat → List (W64 × Nat × Nat)
  | 0 => []
  | n + 1 => distRound db dst (distances db dst n)

/-- Insertion into a list of ports in rising order, each once. -/
def portList (l : List Nat) : List Nat := l.foldl (fun a p => insertNat p a) []

/-- The route to a device: up to four next-hop ports among the equal-cost paths, the lowest first (R482). -/
def routeTo (db : List Lsr) (me dst : W64) : Route :=
  let d := distances db dst (db.length + 1)
  match d.find? (fun y => decide (y.1 = me)), db.find? (fun x => decide (x.unit = me)) with
  | some (_, cost, hops), some x =>
    let links := (bothWays db x).filter (fun (u, _, c) => d.any (fun y => decide (y.1 = u) && decide (c + y.2.1 = cost)))
    let ports := (portList (links.map (fun l => l.2.1))).take 4
    { valid := true, hops := hops, ports := ports,
      vias := ports.map (fun p => ((links.find? (fun l => decide (l.2.1 = p))).map Prod.fst).getD 0) }
  | _, _ => {}

/-- The table (R482): one entry for each device whose address is CLAIMED or ASSIGNED and kept by it. -/
def State.routeTable (s : State) : AMap Route :=
  let db := s.lsrs
  let ok (x : Lsr) : Bool := decide (x.unit ≠ s.unitId) && (decide (x.astate = 2) || decide (x.astate = 3)) && decide (x.address ≠ 0)
    && db.all (fun y => decide (y.unit = x.unit) || decide (y.address ≠ x.address) || decide (y.astate = 0)
        || decide (3 < y.astate) || keeps (x.astate, x.unit) (y.astate, y.unit))
  (db.filter ok).foldl (fun m x => AMap.put {} m x.address (routeTo db s.unitId x.unit)) []

/-- Members of spans and peers of connections that no longer have a route are lost (R497, R528). -/
def State.loseUnrouted (s : State) : State :=
  let s := s.each (List.range 32) (fun s n =>
    match s.spanRec n with
    | some r => s.each ((List.range r.members.length).filter (fun i =>
        decide (r.members.getD i 0 ≠ s.fab.address) && !(s.route (r.members.getD i 0)).valid)) (fun s i => s.loseMember n i 1)
    | none => s)
  s.each (List.range 32) (fun s n =>
    s.each ((s.part n).rma.opened.filter (fun c =>
        decide ((s.conn n c).peerAddr ≠ s.fab.address) && !(s.route (s.conn n c).peerAddr).valid)) (fun s c => s.loseConn n c))

/-- ROUTE_INSTALL (R483). -/
def execRouteInstall (t : Instant) (s : State) : Result :=
  let s := s.at t
  let s := { s with fab := { s.fab with routes := s.routeTable } }
  .next s.loseUnrouted.watchLate

/-! ## Frames that arrive -/

/-- The neighbour that a frame comes from: by its source MAC address, on a SWITCHED port by its source IPv6 address (R464). -/
def State.sender (s : State) (p : Nat) (frame : Bytes) : Option Adj :=
  let q := s.port p
  q.adjs.find? (fun a =>
    if q.mode then decide (a.ip = BitVec.ofNat 128 (beNat ((frame.drop 22).take 16))) else decide (macOf a.unit a.port = (frame.drop 6).take 6))

/-- A CROAK packet's contents (R471). -/
def Bft.croak (h : Bft) (ip : BitVec 128) : Croak :=
  let b := h.payload
  { src := h.src, unit := BitVec.ofNat 64 (field b 0 8), address := field b 8 2, port := field b 10 1, astate := field b 11 1,
    cap := BitVec.ofNat 64 (field b 12 8), lsrSeq := BitVec.ofNat 32 (field b 20 4), croakSeq := BitVec.ofNat 32 (field b 24 4), ip := ip }

/-- An LSR packet's contents (R481). -/
def Bft.lsr (h : Bft) : Lsr :=
  let b := h.payload
  { unit := BitVec.ofNat 64 (field b 0 8), address := field b 8 2, astate := field b 10 1, seq := BitVec.ofNat 32 (field b 12 4),
    adj := (List.range (field b 11 1)).map (fun i =>
      (BitVec.ofNat 64 (field b (16 + 16 * i) 8), field b (24 + 16 * i) 2, field b (26 + 16 * i) 1, field b (27 + 16 * i) 1)) }

/-- An RMA packet's contents (R513). -/
def Bft.rma (h : Bft) : RmaPkt :=
  let b := h.payload
  { src := h.src, partFrom := h.part, partTo := Fin.ofNat 32 (bits h.stream 28 24), peerConn := bits h.stream 23 12,
    conn := bits h.stream 11 0, seq := BitVec.ofNat 32 h.seq, ack := BitVec.ofNat 32 h.ack, flags := BitVec.ofNat 8 (field b 1 1),
    window := Fin.ofNat 64 (field b 2 1), status := BitVec.ofNat 8 (field b 3 1), key := BitVec.ofNat 32 (field b 4 4),
    roff := BitVec.ofNat 64 (field b 8 8), op0 := BitVec.ofNat 64 (field b 16 8), op1 := BitVec.ofNat 64 (field b 24 8),
    data := b.drop 32 }

/-- A packet addressed to this device (R489): DATA and SPAN by their streams, RMA by its connection, ACK by the stream it names; one
with a SPAN_ID only from a member of that span. -/
def State.takePacket (s : State) (p : Nat) (h : Bft) (x : Carried) : State :=
  if h.type = 0 then s.takeStream p h (.data h.cls x.item)
  else if h.type = 4 then s.takeStream p h (.span (SpanOp.parse h.payload) x.cap)
  else if h.spanId ≠ 0 ∧ (s.spanTarget h.spanId h.src).isNone then s.refuseMember h.src
  else if h.type = 1 then s.takeAck h x.acks
  else s.inRma (field h.payload 0 1) h.rma x.upsets

/-- A packet that R467 accepts: a Croak; nothing else over an adjacency in MISMATCH (R474); a record; a packet for this device, while
its address carries traffic (R477); or one to forward (R485). -/
def State.arrive (s : State) (p : Nat) (frame : Bytes) (h : Bft) (x : Carried) : State :=
  let from' := s.sender p frame
  if h.type = 2 then s.takeCroak p (h.croak (BitVec.ofNat 128 (beNat ((frame.drop 22).take 16))))
  else if from'.any Adj.mismatch then s
  else if h.type = 3 then
    match from' with
    | some a => s.takeLsr p a.unit h.lsr
    | none => s
  else if h.dst = s.fab.address ∧ s.speaks then s.takePacket p h x
  else if h.hops = 0 then { s with fab := { s.fab with hopExp := sat32 (s.fab.hopExp + 1) } }
  else s.sendRouted { h with hops := h.hops - 1 }

/-- BFT_PACKET_RECEIVE (R463, R464, R466, R467, R469, R485): an Ethernet frame reaches a port. -/
def execBftPacketReceive (t : Instant) (p : PortId) (header body : Bytes) (x : Carried) (s : State) : Result :=
  let s := s.at t
  let p := p.val
  let frame := header ++ body
  if !s.portUp p then .next s
  else
    let s := s.modPort p (fun q => { q with rx := q.rx + frame.length })
    match (s.unwrap p frame).bind Bft.parse with
    | some h =>
      if h.payload.length ≤ (s.port p).maxPayload then .next (s.arrive p frame h x)
      else .next (s.modPort p (fun q => { q with drop := sat32 (q.drop + 1) }))
    | none => .next (s.modPort p (fun q => { q with drop := sat32 (q.drop + 1) }))

/-- ACK_DELAY_EXPIRY (R470): an accepted packet waits for its acknowledgement. -/
def execAckDelayExpiry (t : Instant) (stream : Nat) (s : State) : Result :=
  let s := s.at t
  match s.fab.rx[stream]? with
  | some y =>
    if y.unacked = 0 then .next s
    else .next (s.ackStream { type := y.type, dst := s.fab.address, src := y.src, spanId := y.spanId, stream := y.stream })
  | none => .next s

/-! ## Retransmission (R470) -/

/-- The timeout of a packet after its k-th transmission, in ns. -/
def State.timeout (s : State) (k : Nat) : Nat := bits s.fab.rto.toNat 15 0 * 2 ^ (k - 1) * 1000

/-- FABRIC of R192 for the launches of a span that run now. -/
def State.noteFabric (s : State) (n : Nat) : State :=
  s.modPart n (fun p => { p with launches := p.launches.map (fun l =>
    if l.started.isSome then { l with late := l.late ||| 8 } else l) })

/-- The port a stream's packets leave on: that of a circuit's HUB-out hop (R484). -/
def State.streamPort (s : State) (x : TxStream) : Option Nat :=
  if x.type = 0 then ((s.image x.part).bind (fun i => i.channel x.stream)).bind (fun r => if r.leaves then r.outPort else none)
  else none

/-- A packet sent again, with RETX and the latest ACK. -/
def State.sendAgain (s : State) (x : TxStream) (bs : Bytes) : State :=
  match Bft.parse bs with
  | none => s
  | some h => s.sendOwn (s.streamPort x) { h with retx := true, ack := s.ackFor x.part h.dst h.type h.spanId h.stream }

/-- A stream of this device breaks (R470): a member of its span is lost (R497), an RMA connection is lost (R528). -/
def State.breakStream (s : State) (x : TxStream) : State :=
  if x.type = 5 then s.loseConn x.part (bits x.stream 23 12)
  else
    match (s.spanRec x.part).bind (fun r => r.indexOf x.dst) with
    | some i => s.loseMember x.part i 2
    | none => s

/-- RETRANSMIT_TIMEOUT (R470): sent again with a doubled timeout, or after eight transmissions the stream breaks. -/
def execRetransmitTimeout (t : Instant) (stream : Nat) (seq : W32) (s : State) : Result :=
  let s := s.at t
  match s.fab.tx[stream]? with
  | none => .next s
  | some x =>
    match x.sent.find? (fun q => decide (q.1 = seq.toNat)) with
    | none => .next s
    | some (q, bs, sends, last) =>
      if s.clock < last + s.timeout sends then .next s
      else if 8 ≤ sends then
        .next (({ s with fab := { s.fab with tx := s.fab.tx.eraseIdx stream } }).breakStream x)
      else
        let y := { x with sent := x.sent.map (fun z => if z.1 = q then (q, bs, sends + 1, s.clock) else z) }
        let s := { s with fab := { s.fab with tx := setAt s.fab.tx stream y, retx := sat32 (s.fab.retx + 1) } }
        .next (((s.countHub 0x30 1 none).noteFabric x.part).sendAgain x bs)

end Sys2Proof.Machine
end

