-- ==== Sys2Proof/Machine/Observe.lean ====
section
/-!
DEFINITION. Observation (ch. 20): the selection of tower and hub counters (R576, R579), snapshots (R585-R587), the fault
log (R588-R595, R611) and the lamps (R596-R602, R612).
-/
namespace Sys2Proof.Machine

/-! ## Event counters -/

/-- A counter after a selection word is written: 0, with OVF clear; reserved bits stay 0 (R576, R579). -/
def Counter.selected (k : Counter) (v : W32) : Counter :=
  { k with sel := v &&& 0xBF07FFFF, val := 0, ovf := false, qval := 0, qovf := false }

/-- COUNTER_SELECT_WRITE (R579): the hub holds 64 counters and a tower 16. -/
def execCounterSelectWrite (t : Instant) (w : Option TowerId) (i : Fin 64) (v : W32) (s : State) : Result :=
  let s := s.at t
  match w with
  | none => .next { s with evc := AMap.put {} s.evc i.val ((AMap.get {} s.evc i.val).selected v) }
  | some w =>
    if i.val < 16 then
      .next (s.modTower w.val (fun x => { x with evc := AMap.put {} x.evc i.val ((AMap.get {} x.evc i.val).selected v) }))
    else .next s

/-! ## Snapshots -/

/-- A counter with SNAP set copies its VAL and OVF (R585). -/
def Counter.snapped (k : Counter) : Counter :=
  if k.sel.getLsbD 18 then { k with snap := k.val, snapOvf := k.ovf, qsnap := k.qval, qsnapOvf := k.qovf } else k

/-- Every counter of a group copied. -/
def snapAll (m : AMap Counter) : AMap Counter := m.map (fun (p : Nat × Counter) => (p.1, p.2.snapped))

/-- The snapshot is taken (R585). -/
def State.takeSnapshot (s : State) : State :=
  { s with
    evc := snapAll s.evc,
    towers := s.towers.map (fun (p : Nat × Tower) => (p.1, { p.2 with evc := snapAll p.2.evc })),
    cores := s.cores.map (fun (p : Nat × Core) =>
      if (s.coreOwner p.1).any (fun n => s.snap.mask.getLsbD n) then (p.1, { p.2 with evc := snapAll p.2.evc }) else p),
    snap := { s.snap with armed := false, done := true, seq := s.snap.seq + 1, stamp := s.stamp } }

/-- An armed snapshot whose time TIM_NOW has reached is taken; before S8 it waits (R585, R587). -/
def State.snapshotDue (s : State) : State :=
  if s.snap.armed && decide (s.tim.st ≠ .off) && decide (s.snap.time.toNat ≤ s.now) then s.takeSnapshot else s

/-- A BAR0 offset of a function, as one number. -/
def regKey (f : Fn) (offset : Nat) : Nat := 2 ^ 28 * fnNum f + offset

/-- The writable 64-bit pairs by number (R8): QUE_BASE of ring r, RMA_QROLE of Pn, TIM_SET, EVC_SNAP_TIME, BUP_SREP. -/
def pairQueBase (r : Nat) : Nat := r
def pairQrole (n : Nat) : Nat := 0x10000 + n
def pairTimSet : Nat := 0x20000
def pairSnapTime : Nat := 0x20001
def pairSrep : Nat := 0x20002

/-- The _LO half of a pair most recently written, through whichever function (R8). -/
def State.loOf (s : State) (pair : Nat) : W32 := AMap.get 0 s.link.los pair

/-- The _LO half of a pair is written (R8). -/
def State.keepLo (s : State) (pair : Nat) (v : W32) : State :=
  { s with link := { s.link with los := AMap.put 0 s.link.los pair v } }

/-- SNAPSHOT_ARM (R585, R587): a write of EVC_SNAP_TIME_HI. -/
def execSnapshotArm (t : Instant) (hi : W32) (s : State) : Result :=
  let s := s.at t
  .next { s with snap := { s.snap with time := hi ++ s.loOf pairSnapTime, armed := true, done := false } }.snapshotDue

/-- SNAPSHOT_TRIGGER (R585): TIM_NOW reaches the time. -/
def execSnapshotTrigger (t : Instant) (s : State) : Result := .next (s.at t).snapshotDue

/-! ## The fault log -/

/-- The source of a record: its partition, or 32 for the device (R591). -/
def FltRec.source (r : FltRec) : Nat := if r.valid then r.part else 32

/-- The 32 bytes of a record, as eight words (R588). -/
def FltRec.words (r : FltRec) : List W32 :=
  if r.kind = 0 then List.replicate 8 0
  else
    [r.seq, BitVec.ofNat 32 (r.kind + 256 * r.sev + 65536 * (128 * nat r.valid + r.part) + 2 ^ 24 * r.code),
     r.stamp.setWidth 32, (r.stamp >>> 32).setWidth 32, r.loc, r.detail, r.info.setWidth 32, (r.info >>> 32).setWidth 32]

/-- The lowest-numbered empty slot. -/
def FltLog.emptySlot (l : FltLog) : Option Nat :=
  (List.range 256).find? (fun i => decide ((AMap.get {} l.slots i).kind = 0))

/-- Records that a source holds. -/
def FltLog.held (l : FltLog) (src : Nat) : Nat := (l.slots.filter (fun (p : Nat × FltRec) => decide (p.2.source = src))).length

/-- The slot of the oldest record of the source that holds the most; the oldest of all of theirs where several tie (R591). -/
def FltLog.victim (l : FltLog) : Nat :=
  let most := ((List.range 33).map l.held).foldl max 0
  let pick := (l.slots.filter (fun (p : Nat × FltRec) => decide (l.held p.2.source = most))).foldl
    (fun (b : Option (Nat × Nat)) (p : Nat × FltRec) =>
      let age := (l.next - p.2.seq).toNat
      match b with
      | some (a, i) => if a < age then some (age, p.1) else some (a, i)
      | none => some (age, p.1)) none
  (pick.map Prod.snd).getD 0

/-- A record takes its slot and its SEQ (R590, R591). -/
def FltLog.put (l : FltLog) (r : FltRec) : FltLog :=
  let r := { r with seq := l.next }
  match l.emptySlot with
  | some i => { l with slots := AMap.put {} l.slots i r, next := l.next + 1 }
  | none => { l with slots := AMap.put {} l.slots l.victim r, next := l.next + 1, evicted := sat32 (l.evicted + 1) }

/-- FAULT_LOG_WRITE (R590, R591, R595): the arbiter's choice of the records that wait. -/
def execFaultLogWrite (t : Instant) (which : Nat) (s : State) : Result :=
  let s := s.at t
  match s.flt.waiting[which]? with
  | none => .next s
  | some r =>
    let s := { s with flt := { s.flt with waiting := s.flt.waiting.eraseIdx which }.put r }
    let s := s.countHub 0x36 1 (if r.valid then some r.part else none)
    let s := s.signal 0 2
    .next (if r.valid then s.signal (r.part + 1) 0 else s)

/-- Pn's view of a record: empty unless it is Pn's; a field that names a region or a core outside Pn reads 0 (R593). -/
def State.viewed (s : State) (f : Fn) (r : FltRec) : FltRec :=
  match f with
  | .pf => r
  | .vf n =>
    if !r.valid ∨ r.part ≠ n.val then {}
    else
      let c := if r.kind = 0x0B then bits r.loc.toNat 15 6 else bits r.loc.toNat 9 0
      let foreign := (decide (r.kind = 1) || (decide (r.kind = 2) && decide (c ≠ 0x3FF)) || decide (r.kind = 0x0B))
        && decide (s.coreOwner c ≠ some n.val)
      let region := decide (r.kind = 2) && decide (r.code = 2)
        && !((s.regionRec (bits r.detail.toNat 5 0)).any (fun x => decide (x.part = n.val)))
      { r with loc := if !foreign then r.loc else if r.kind = 0x0B then r.loc &&& 0xFFFF003F else r.loc &&& 0xFFFFFC00,
               detail := if region then r.detail &&& 0xFFFFFFC0 else r.detail }

/-- The log's record in a slot, as a function sees it now. -/
def State.slotFor (s : State) (f : Fn) (i : Nat) : FltRec := s.viewed f (AMap.get {} s.flt.slots i)

/-- FAULT_RECORD_CAPTURE (R592): a read of word 0 of a slot captures all its bytes. -/
def execFaultRecordCapture (t : Instant) (f : Fn) (slot : Fin 256) (s : State) : Result :=
  let s := s.at t
  let r := s.slotFor f slot.val
  .next (if !s.reaches f then s.unreached 4 else ({ s with flt := { s.flt with
      captures := AMap.put none s.flt.captures (256 * fnNum f + slot.val) (some r) } }).readsWord (r.words.headD 0))

/-- FAULT_LOG_CLEAR (R611): bit 0 empties the log; SEQ continues. -/
def execFaultLogClear (t : Instant) (v : W32) (s : State) : Result :=
  let s := s.at t
  .next (if v.getLsbD 0 then { s with flt := { s.flt with slots := [] } } else s)

/-! ## Lamps -/

/-- The partition that the committed frame gives a lamp (R598). -/
def State.lampOwner (s : State) (i : Nat) : Option Nat :=
  match s.frame with
  | some f => (f.parts.find? (fun p => p.lamps.getLsbD i)).map PartRec.part
  | none => none

/-- LMP_CFGn as it reads: PROVE and PROVE_DARK of LAMP[11] are fixed at 1 (R602). -/
def lampWord (i : Nat) (v : W32) : W32 := if i = 11 then v ||| 0x03000000 else v

/-- DUTY 0-256 and CURRENT 20-200 (R596). -/
def lampFits (v : W32) : Bool :=
  decide (bits v.toNat 8 0 ≤ 256) && decide (20 ≤ bits v.toNat 23 16) && decide (bits v.toNat 23 16 ≤ 200)

/-- A setting that takes effect at the next period (R597), where it is in range. -/
def State.setLampCfg (s : State) (i : Nat) (v : W32) : State :=
  if lampFits v then s.setLamp i { s.lamp i with pending := some (v &&& 0x83FF01FF) } else s

/-- The function that controls the lamp (R598). -/
def State.lampControl (s : State) (f : Fn) (i : Nat) : Bool :=
  match f with
  | .pf => (s.lampOwner i).isNone
  | .vf n => decide (s.lampOwner i = some n.val)

/-- LAMP_CFG_WRITE (R596, R598). -/
def execLampCfgWrite (t : Instant) (f : Fn) (lamp : Fin 12) (v : W32) (s : State) : Result :=
  let s := s.at t
  .next (if s.reaches f && s.lampControl f lamp.val then s.setLampCfg lamp.val v else s)

/-- The duty in force: 0 with ENABLE 0; LAMP[11] is lit at 256 while test access is unlocked (R597, R602). -/
def State.lampDuty (s : State) (i : Nat) (cfg : W32) : Nat :=
  if i = 11 ∧ s.test.unlocked then 256 else if cfg.getLsbD 31 then bits cfg.toNat 8 0 else 0

/-- Whether period `k` after a setting carries an on-time of 40 µs or more: by its duty, stretched (R600), or a pulse at
duty 0 once a second (R601). A duty of 11 is 42.97 µs. -/
def lampMeasured (cfg : W32) (duty k : Nat) : Bool :=
  decide (11 ≤ duty) || (cfg.getLsbD 24 && decide (0 < duty) && decide (k % 256 = 255))
    || (cfg.getLsbD 25 && decide (duty = 0) && decide (k % 1000 = 999))

/-- A measurement (R599): one pass is OK; two failures in a row are OPEN and a LAMP record. -/
def State.lampMeasure (s : State) (i : Nat) (ok : Bool) : State :=
  let l := s.lamp i
  if ok then s.setLamp i { l with status := 1, fails := 0, measuredAt := s.clock }
  else if l.fails = 0 then s.setLamp i { l with fails := 1, measuredAt := s.clock }
  else if l.status = 2 then s.setLamp i { l with fails := 2, measuredAt := s.clock }
  else
    (s.setLamp i { l with status := 2, fails := 2, measuredAt := s.clock, opens := l.opens.add 1 }).report
      { kind := 0x0C, sev := 1, valid := (s.lampOwner i).isSome, part := (s.lampOwner i).getD 0, code := 2,
        loc := BitVec.ofNat 32 i }

/-- LAMP_PERIOD (R597, R599, R600): one PWM period. The drivers are off while VIO is off (R596). -/
def execLampPeriod (t : Instant) (lamp : Fin 12) (current : Bool) (s : State) : Result :=
  let s := s.at t
  if !s.rails.good.getLsbD 7 then .next s
  else
    let l := s.lamp lamp.val
    let l := match l.pending with
      | some v => { l with cfg := v, pending := none, periods := 0 }
      | none => l
    let cfg := lampWord lamp.val l.cfg
    let duty := s.lampDuty lamp.val cfg
    let s' := s.setLamp lamp.val { l with periods := l.periods + 1 }
    .next (if lampMeasured cfg duty l.periods then s'.lampMeasure lamp.val current else s')

/-- LAMP_UNPROVEN_TIMEOUT (R601): no measurement for 1 s. -/
def execLampUnprovenTimeout (t : Instant) (lamp : Fin 12) (s : State) : Result :=
  let s := s.at t
  let l := s.lamp lamp.val
  .next (if l.measuredAt + 1000000000 < s.clock then s.setLamp lamp.val { l with status := 0 } else s)

end Sys2Proof.Machine
end

