-- ==== Sys2Proof/Machine/TestPort.lean ====
section
/-!
DEFINITION. Test access (ch. 20): the selections of the test multiplexers (R604-R606, R613) and the TAP (R608).
-/
namespace Sys2Proof.Machine

/-! ## Test multiplexers -/

/-- Fields of a selection word (R613): ENABLE, BLOCK, SIGNAL. -/
def tmxBlock (v : W32) : Nat := bits v.toNat 17 10
def tmxSignal (v : W32) : Nat := bits v.toNat 9 0

/-- Rows of cores on the variant (R2). -/
def State.coreRows (s : State) : Nat := if s.dk36 then 12 else 16

/-- The public blocks and the signal codes that R605 lists for each, on a digital output or on TMX_AN. -/
def State.tmxPublic (s : State) (analog : Bool) (v : W32) : Bool :=
  let sig := tmxSignal v
  match tmxBlock v with
  | 0 => !analog && decide (sig ≤ 5)
  | 1 => !analog && decide (sig ≤ 9)
  | 2 => analog && decide (sig ≤ 8)
  | 3 => analog && decide (sig < 58)
  | 4 | 5 | 6 | 7 => !analog && decide (sig < 16 * s.coreRows)
  | _ => false

/-- A write to an output's selection that R605 refuses while test access is LOCKED. -/
def State.tmxRefused (s : State) (analog : Bool) (v : W32) : Bool :=
  !s.test.unlocked && v.getLsbD 31 && !s.tmxPublic analog v

/-- An internal signal that a test output carries or a test input drives (R604, R605). -/
inductive TmxSignal where
  | ppsOut
  | paceTokens (w : TowerId)
  | timeRef
  | refclk
  | fabricRef
  | phyRef (k : StackId)
  | rail (i : Nat)
  | tripDiode (x : Nat)
  | tempoLoop (c : Nat)
  | hidden (block signal : Nat)
deriving DecidableEq, Repr

/-- The signal that a selection word names; none with ENABLE 0. -/
def tmxNames (v : W32) : Option TmxSignal :=
  let sig := tmxSignal v
  if !v.getLsbD 31 then none
  else match tmxBlock v with
    | 0 => some (if sig = 0 then .ppsOut else if sig < 5 then .paceTokens (Fin.ofNat 4 (sig - 1)) else .timeRef)
    | 1 => some (if sig = 0 then .refclk else if sig = 1 then .fabricRef else .phyRef (Fin.ofNat 8 (sig - 2)))
    | 2 => some (.rail sig)
    | 3 => some (.tripDiode sig)
    | 4 | 5 | 6 | 7 => some (.tempoLoop (256 * (tmxBlock v - 4) + sig))
    | b => some (.hidden b sig)

/-- What TMX_OUT[k] carries (R604). -/
def State.tmxCarried (s : State) (k : Nat) : Option TmxSignal := tmxNames (AMap.get 0 s.test.outs k)
/-- What TMX_AN carries. -/
def State.tmxAnalog (s : State) : Option TmxSignal := tmxNames s.test.an
/-- What TMX_IN[j] drives: nothing while test access is LOCKED (R605). -/
def State.tmxDriven (s : State) (j : Nat) : Option TmxSignal := if s.test.unlocked then tmxNames (AMap.get 0 s.test.ins j) else none

/-- A refused selection counts in TMX_ERR and changes nothing else. -/
def State.tmxError (s : State) : State := { s with test := { s.test with err := sat32 (s.test.err + 1) } }

/-- TMX_SELECT_WRITE (R605): a write to TMX_OUT0-3, TMX_AN, TMX_IN0-1; elsewhere the block takes no write. -/
def execTmxSelectWrite (t : Instant) (offset : Nat) (v : W32) (s : State) : Result :=
  let s := s.at t
  let w := v &&& 0x8003FFFF
  if offset = 0x10 ∨ offset = 0x14 ∨ offset = 0x18 ∨ offset = 0x1C then
    .next (if s.tmxRefused false w then s.tmxError
      else { s with test := { s.test with outs := AMap.put 0 s.test.outs ((offset - 0x10) / 4) w } })
  else if offset = 0x20 then
    .next (if s.tmxRefused true w then s.tmxError else { s with test := { s.test with an := w } })
  else if offset = 0x30 ∨ offset = 0x34 then
    .next (if !s.test.unlocked && w.getLsbD 31 then s.tmxError
      else { s with test := { s.test with ins := AMap.put 0 s.test.ins ((offset - 0x30) / 4) w } })
  else .next s

/-- The lock (R606): ENABLE clears in every output that R605 would refuse and in every TMX_INj. -/
def State.tmxLock (s : State) : State :=
  let s := { s with test := { s.test with unlocked := false } }
  let off := fun (v : W32) => v &&& 0x7FFFFFFF
  { s with test := { s.test with
      outs := (List.range 4).foldl (fun (m : AMap W32) k =>
        let v := AMap.get 0 m k
        if s.tmxRefused false v then AMap.put 0 m k (off v) else m) s.test.outs,
      an := if s.tmxRefused true s.test.an then off s.test.an else s.test.an,
      ins := (List.range 2).foldl (fun (m : AMap W32) k => AMap.put 0 m k (off (AMap.get 0 m k))) s.test.ins } }

/-! ## The TAP -/

/-- A register shifted by the bits given: what leaves it and what it holds, the bit nearest TDO first (IEEE 1149.1). -/
def shiftBits (reg tdi : List Bool) : List Bool × List Bool :=
  ((reg ++ tdi).take tdi.length, (reg ++ tdi).drop tdi.length)

/-- A scan of the one-bit bypass register, which captures 0. -/
def Test.bypass (x : Test) (tdi : List Bool) : Test := { x with shifted := (shiftBits [false] tdi).1 }

/-- A scan of the boundary chain, which captures the pins. -/
def Test.scan (x : Test) (pins tdi : List Bool) : Test :=
  { x with shifted := (shiftBits pins tdi).1, chain := (shiftBits pins tdi).2 }

/-- TAP_RESET (R608, IEEE 1149.1): IDCODE is selected and the pins are the logic's. The instructions are numbered 0 IDCODE,
1 BYPASS, 2 SAMPLE/PRELOAD, 3 EXTEST, 4 CLAMP, 5 HIGHZ (PRESUMED, notes/assumptions/71.md). -/
def execTapReset (t : Instant) (s : State) : Result :=
  let s := s.at t
  .next { s with test := { s.test with tapInstr := 0, shifted := [], pins := none, floating := false } }

/-- TAP_BYPASS (R608), and every instruction outside the list while test access is LOCKED. -/
def execTapBypass (t : Instant) (tdi : List Bool) (s : State) : Result :=
  let s := s.at t
  .next { s with test := { s.test with tapInstr := 1, pins := none, floating := false }.bypass tdi }

/-- TAP_SAMPLE_PRELOAD (R608): the pins are sampled and the chain loaded; the logic keeps its pins. -/
def execTapSamplePreload (t : Instant) (pins tdi : List Bool) (s : State) : Result :=
  let s := s.at t
  .next { s with test := { s.test with tapInstr := 2, pins := none, floating := false }.scan pins tdi }

/-- TAP_EXTEST (R608): the chain takes the pins. -/
def execTapExtest (t : Instant) (pins tdi : List Bool) (s : State) : Result :=
  let s := s.at t
  let x := { s.test with tapInstr := 3, floating := false }.scan pins tdi
  .next { s with test := { x with pins := some x.chain } }

/-- IDCODE (R608). -/
def State.idcode (s : State) : W32 :=
  BitVec.ofNat 32 (0x10000000 + bits s.hubId.toNat 15 0 * 4096 + 2 * Config.jedec.toNat + 1)

/-- TAP_IDCODE (R608): the 32-bit identification register. -/
def execTapIdcode (t : Instant) (tdi : List Bool) (s : State) : Result :=
  let s := s.at t
  let reg := (List.range 32).map (fun i => s.idcode.getLsbD i)
  .next { s with test := { s.test with tapInstr := 0, pins := none, floating := false, shifted := (shiftBits reg tdi).1 } }

/-- TAP_CLAMP (R608): the pins stand as the chain holds them; the bypass register is scanned. -/
def execTapClamp (t : Instant) (tdi : List Bool) (s : State) : Result :=
  let s := s.at t
  .next { s with test := { s.test with tapInstr := 4, pins := some s.test.chain, floating := false }.bypass tdi }

/-- TAP_HIGHZ (R608): the pins float; the bypass register is scanned. -/
def execTapHighz (t : Instant) (tdi : List Bool) (s : State) : Result :=
  let s := s.at t
  .next { s with test := { s.test with tapInstr := 5, pins := none, floating := true }.bypass tdi }

end Sys2Proof.Machine
end

