-- ==== Sys2Proof/Machine/Time.lean ====
section
/-!
DEFINITION. Fabric time (ch. 18): sources and their qualification (R537-R541), PTP (R542, R543), TIM_UNC, TIME_VALID and
the risk bits (R544-R546), the correction of the offset (R547-R549), PPS_OUT (R550), TIM_SET (R551). The model's clock
counts nanoseconds of the disciplined oscillator (DESIGN CHOICE, notes/assumptions/65.md).
-/
namespace Sys2Proof.Machine

/-! ## TIM_UNC and what follows it -/

/-- A figure in ns of a rate in ns per s over `d` ns, rounded up. -/
def perSecond (rate d : Nat) : Nat := (rate * d + 999999999) / 1000000000

/-- The remaining offset: the offset last measured less what slewing has corrected since (R544). -/
def State.remainingOffset (s : State) : Int := s.tim.remaining - slewDone s.tim.slew (s.clock - s.tim.at0)

/-- TIM_UNC by state (R544). -/
def State.uncNow (s : State) : Nat :=
  let t := s.tim
  let src := t.srcUnc.toNat
  min 0xFFFFFFFF (match t.st with
    | .off => 0xFFFFFFFF
    | .free => if t.wasSet then src + perSecond t.holdRate.toNat (s.clock - t.setAt) else 0xFFFFFFFF
    | .locked => src + s.remainingOffset.natAbs
        + (if t.source = 2 then 20 * ((t.master.map PtpMaster.stepsRemoved).getD 0) else 0)
    | .brumation => t.uncEntry + t.holdEntry.toNat + perSecond t.holdRate.toNat (s.clock - t.entryAt))

/-- Pn is a span partition at risk under an uncertainty of `u` ns (R546). -/
def Part.atRisk (p : Part) (u : Nat) : Bool := (p.image.bind PartImage.span?).any (fun r => decide (r.margin < u))

/-- TIM_UNC is updated; TIME_VALID and its events (R545) and the risk bits and theirs (R546) follow. -/
def State.refreshUnc (s : State) : State :=
  let u := s.uncNow
  let valid := decide (s.tim.st ≠ .off) && decide (u ≤ s.tim.uncLimit.toNat)
  let was := s.tim.valid
  let s := { s with tim := { s.tim with unc := BitVec.ofNat 32 u, valid := valid } }
  let s := if valid && !was then s.timEvent 4 else if was && !valid then s.timEvent 3 else s
  let s := s.each (List.range 32) (fun s n =>
    let bitn := BitVec.ofNat 32 (2 ^ n)
    if (s.part n).atRisk u then
      (if s.tim.risk.getLsbD n then s
       else (({ s with tim := { s.tim with risk := s.tim.risk ||| bitn } }).timEvent 6).signal (n + 1) 0)
    else { s with tim := { s.tim with risk := s.tim.risk &&& ~~~bitn } })
  s.watchLate

/-- UNC_UPDATE (R544). -/
def execUncUpdate (t : Instant) (s : State) : Result := .next (s.at t).refreshUnc

/-! ## Moving TIM_NOW -/

/-- The corrected time, the slew and the remaining offset taken at this instant. -/
def State.rebased (s : State) : State :=
  let d := slewDone s.tim.slew (s.clock - s.tim.at0)
  { s with tim := { s.tim with base := s.corrected, at0 := s.clock, slew := s.tim.slew - d, remaining := s.tim.remaining - d } }

/-- Timed launches whose START a forward move passes complete with SKIPPED and set SKIP (R447, R548). -/
def State.skipTimed (s : State) (old new : Nat) : State :=
  let hit := fun (l : Launch) => l.timed && l.started.isNone && l.status.isNone
    && decide (old < l.startTime.toNat) && decide (l.startTime.toNat < new)
  s.each (List.range 32) (fun s n =>
    s.each ((s.part n).launches.filter hit) (fun s l => (s.endLaunch n l 3 0).timEvent 5))

/-- The timed launches whose START TIM_NOW has reached, with the instant noted, before time moves (R189). -/
def State.markReached (s : State) : State :=
  { s with parts := s.parts.map (fun (x : Nat × Part) =>
      (x.1, { x.2 with launches := x.2.launches.map (fun l =>
        if l.timed && l.started.isNone && l.reachedAt.isNone && decide (l.startTime.toNat ≤ s.now) then
          { l with reachedAt := some (s.reachedAt l) } else l) })) }

/-- TIM_NOW moves to a corrected time: forward at once (R548), or held after a backward move (R549). -/
def State.moveTime (s : State) (new : Int) : State :=
  let old := s.now
  let s := s.markReached.rebased
  let s := { s with tim := { s.tim with base := new, hold := if new.toNat < old then some old else none } }
  if old < new.toNat then (s.skipTimed old new.toNat).snapshotDue else s

/-! ## Correcting the offset (R547) -/

/-- Slews an offset. -/
def State.slewBy (s : State) (off : Int) : State :=
  let s := s.rebased
  { s with tim := { s.tim with slew := off, remaining := off, offset := off, stepPending := none } }

/-- An offset that waits for the PPS_OUT edge. -/
def State.stepBy (s : State) (off : Int) : State :=
  let s := s.rebased
  { s with tim := { s.tim with slew := 0, remaining := off, offset := off, stepPending := some off } }

/-- The offset exceeds TIM_STEP_LIMIT. -/
def State.large (s : State) (off : Int) : Bool := decide (s.tim.stepLimit.toNat < off.natAbs)

/-- The offset at the event that qualifies or changes the source. -/
def State.correctAtChange (s : State) (off : Int) : State := if s.large off then s.stepBy off else s.slewBy off

/-- The offset at a later good event of the selected source: it replaces the correction in progress. -/
def State.correctLater (s : State) (off : Int) : State :=
  if s.tim.stepPending.isSome && s.large off then s.stepBy off else s.slewBy off

/-- The offset at an edge of PPS_IN: to the nearest whole second. -/
def State.ppsOffset (s : State) : Int := (s.corrected + 500000000) / 1000000000 * 1000000000 - s.corrected

/-- SLEW_END (R547): the whole remaining offset is corrected. -/
def execSlewEnd (t : Instant) (s : State) : Result :=
  let s := s.at t
  .next (if s.tim.slew ≠ 0 ∧ slewDone s.tim.slew (s.clock - s.tim.at0) = s.tim.slew then s.rebased.refreshUnc else s)

/-- HOLD_END (R549): the corrected time passes the value held. -/
def execHoldEnd (t : Instant) (s : State) : Result :=
  let s := s.at t
  match s.tim.hold with
  | some h => .next (if (h : Int) ≤ s.corrected then { s with tim := { s.tim with hold := none } } else s)
  | none => .next s

/-! ## Selecting a source (R538-R541) -/

/-- The unit selects a source with its offset (R539, R540). -/
def State.selectSource (s : State) (src : Nat) (off : Int) : State :=
  let was := s.tim.st
  let s := { s with tim := { s.tim with st := .locked, source := src } }
  let s := if was = .locked then s.timEvent 7 else s.timEvent 1
  s.correctAtChange off

/-- The unit enters BRUMATION: a slew stops, a step that waits is dropped (R541). -/
def State.brumate (s : State) : State :=
  let u := s.uncNow
  let s := s.rebased
  ({ s with tim := { s.tim with st := .brumation, source := 0, uncEntry := u, entryAt := s.clock, slew := 0, remaining := 0,
                                stepPending := none } }).timEvent 0

/-- The selected source is lost or deselected: the best other qualified one, or BRUMATION. -/
def State.deselect (s : State) (src : Nat) : State :=
  if s.tim.st ≠ .locked ∨ s.tim.source ≠ src then s
  else if src = 1 ∧ s.tim.qualPtp = 8 then s.selectSource 2 (s.tim.ptpOffset.getD 0)
  else s.brumate

/-- A good event of a source: it counts, and the offset is corrected where the source is, or becomes, the selected one. -/
def State.goodEvent (s : State) (src : Nat) (off : Int) : State :=
  let q := min 8 ((if src = 1 then s.tim.qualPps else s.tim.qualPtp) + 1)
  let s := { s with tim := { s.tim with qualPps := if src = 1 then q else s.tim.qualPps,
                                        qualPtp := if src = 1 then s.tim.qualPtp else q } }
  if s.tim.st = .locked ∧ s.tim.source = src then s.correctLater off
  else if q = 8 ∧ (s.tim.st ≠ .locked ∨ src = 1) then s.selectSource src off
  else s

/-- A bad event of PPS_IN (R538). -/
def State.badPps (s : State) : State := ({ s with tim := { s.tim with qualPps := 0 } }).deselect 1
/-- A bad event of PTP. -/
def State.badPtp (s : State) : State := ({ s with tim := { s.tim with qualPtp := 0 } }).deselect 2
/-- PPS_IN is lost; the next edge is a first one (R537). -/
def State.losePps (s : State) : State := ({ s with tim := { s.tim with ppsLost := true, ppsMissed := 0 } }).badPps
/-- PTP is lost. -/
def State.losePtp (s : State) : State := ({ s with tim := { s.tim with ptpOffset := none, ptpTwoStep := false } }).badPtp

/-- PPS_IN is enabled and the unit runs. -/
def State.ppsOn (s : State) : Bool := decide (s.tim.st ≠ .off) && s.tim.cfg.getLsbD 0
/-- PTP is enabled and the unit runs. -/
def State.ptpOn (s : State) : Bool := decide (s.tim.st ≠ .off) && s.tim.cfg.getLsbD 1

/-- PPS_IN_EDGE (R537). -/
def execPpsInEdge (t : Instant) (wide : Bool) (cycles : Nat) (s : State) : Result :=
  let s := s.at t
  if !s.ppsOn then .next s
  else
    let good := wide && s.tim.timeRef && (s.tim.ppsLost || (decide (9999998 ≤ cycles) && decide (cycles ≤ 10000002)))
    let s := { s with tim := { s.tim with ppsLost := false, ppsMissed := 0, ppsLastAt := s.clock } }
    .next (if good then s.goodEvent 1 s.ppsOffset else s.badPps).refreshUnc

/-- PPS_EDGE_MISSED (R537): the window of 1 ms after an expected edge closes; two in a row lose the source. -/
def execPpsEdgeMissed (t : Instant) (s : State) : Result :=
  let s := s.at t
  if !s.ppsOn || s.tim.ppsLost || decide (s.clock < s.tim.ppsLastAt + (s.tim.ppsMissed + 1) * 1000000000 + 1000000) then .next s
  else
    let s := { s with tim := { s.tim with ppsMissed := s.tim.ppsMissed + 1 } }
    .next (if s.tim.ppsMissed = 2 then s.losePps.refreshUnc else s)

/-- TIME_REF_LOST (R537): absent for more than 10 µs. -/
def execTimeRefLost (t : Instant) (s : State) : Result :=
  let s := s.at t
  let s := { s with tim := { s.tim with timeRef := false } }
  .next (if s.ppsOn then s.losePps.refreshUnc else s)

/-- TIME_REF_RETURN (R537). -/
def execTimeRefReturn (t : Instant) (s : State) : Result :=
  let s := s.at t
  .next { s with tim := { s.tim with timeRef := true } }

/-- TIM_CFG_WRITE (R537): clearing an enable loses that source. -/
def execTimCfgWrite (t : Instant) (v : W32) (s : State) : Result :=
  let s := s.at t
  let old := s.tim.cfg
  let s := { s with tim := { s.tim with cfg := v &&& 3, ptpGoodAt := if !old.getLsbD 1 && v.getLsbD 1 then s.clock else s.tim.ptpGoodAt } }
  let s := if old.getLsbD 0 && !v.getLsbD 0 then s.losePps else s
  let s := if old.getLsbD 1 && !v.getLsbD 1 then s.losePtp else s
  .next s.refreshUnc

/-! ## PTP (R537, R542, R543) -/

/-- A PTP port: an enabled port whose adjacency is up and compatible (R474, R542). -/
def State.ptpPort (s : State) (p : Nat) : Bool :=
  decide (p < s.portCount) && (s.port p).enable && (s.port p).adjs.any (fun a => !a.mismatch)

/-- The device acts as master on the port. -/
def State.ptpMasterOn (s : State) (p : Nat) : Bool :=
  decide (s.tim.st ≠ .off) && s.ptpPort p && !s.tim.ptpCfg.getLsbD 24
    && !(s.tim.master.any (fun m => m.valid && decide (m.slavePort = p)))

/-- Messages of the grandmaster reach the device: it follows a master on a port that takes part in PTP (R474, R542). -/
def State.gmHeard (s : State) : Bool := s.ptpOn && s.tim.master.any (fun m => m.valid && s.ptpPort m.slavePort)

/-- A PTP message sent. -/
def State.ptpSend (s : State) (p : Nat) (m : PtpMsg) : State := { s with out := { s.out with ptp := s.out.ptp ++ [(p, m)] } }

/-- A Sync whose timestamp is known: good with a path delay computed and an offset within 1 µs of the previous one; a larger
jump is bad; a first offset, or one without a path delay, is neither (R537). -/
def State.judgeSync (s : State) (off : Int) : State :=
  if !s.tim.ptpDelay then s
  else
    let prev := s.tim.ptpOffset
    let s := { s with tim := { s.tim with ptpOffset := some off } }
    match prev with
    | none => s
    | some x =>
      if (off - x).natAbs ≤ 1000 then ({ s with tim := { s.tim with ptpGoodAt := s.clock } }).goodEvent 2 off else s.badPtp

/-- PTP_SYNC (R537): a one-step Sync is judged at once, a two-step one at its Follow_Up. -/
def execPtpSync (t : Instant) (fromGm : Bool) (offset : Int) (twoStep : Bool) (s : State) : Result :=
  let s := s.at t
  if !s.gmHeard || !fromGm then .next s
  else if twoStep then .next { s with tim := { s.tim with ptpTwoStep := true } }
  else .next (s.judgeSync offset).refreshUnc

/-- PTP_FOLLOW_UP (R542). -/
def execPtpFollowUp (t : Instant) (offset : Int) (s : State) : Result :=
  let s := s.at t
  if !s.gmHeard || !s.tim.ptpTwoStep then .next s
  else .next (({ s with tim := { s.tim with ptpTwoStep := false } }).judgeSync offset).refreshUnc

/-- PTP_SYNC_TIMEOUT (R537): no good Sync for 3 s. -/
def execPtpSyncTimeout (t : Instant) (s : State) : Result :=
  let s := s.at t
  .next (if s.ptpOn && decide (s.tim.ptpGoodAt + 3000000000 ≤ s.clock) then s.losePtp.refreshUnc else s)

/-- The outcome of the best master clock algorithm; a change of grandmaster is a bad event (R537). -/
def State.newMaster (s : State) (m : PtpMaster) : State :=
  let old := s.tim.master
  let same := old.any (fun o => decide (o.valid = m.valid) && decide (o.identity = m.identity))
  let moved := !(old.any (fun o => decide (o.slavePort = m.slavePort)))
  let s := { s with tim := { s.tim with master := some m, ptpDelay := s.tim.ptpDelay && same && !moved } }
  if same || !s.ptpOn then s else ({ s with tim := { s.tim with ptpOffset := none, ptpTwoStep := false } }).badPtp

/-- PTP_ANNOUNCE (R542): ignored on a port that takes no part in PTP (R474). -/
def execPtpAnnounce (t : Instant) (m : PtpMaster) (s : State) : Result :=
  let s := s.at t
  .next (if decide (s.tim.st = .off) || (m.valid && !s.ptpPort m.slavePort) then s else (s.newMaster m).refreshUnc)

/-- ANNOUNCE_RECEIPT_TIMEOUT (R542): the algorithm runs again. -/
def execAnnounceReceiptTimeout (t : Instant) (m : PtpMaster) (s : State) : Result :=
  let s := s.at t
  .next (if s.tim.st = .off then s else (s.newMaster m).refreshUnc)

/-- PTP_DELAY_REQ (R542): as master, answered with Delay_Resp. -/
def execPtpDelayReq (t : Instant) (p : PortId) (requester : W64) (s : State) : Result :=
  let s := s.at t
  .next (if s.ptpMasterOn p.val then s.ptpSend p.val (.delayResp requester s.stamp) else s)

/-- PTP_DELAY_RESP (R542): the path delay is computed; the offsets that the Syncs bring take it in. -/
def execPtpDelayResp (t : Instant) (_delay : Nat) (s : State) : Result :=
  let s := s.at t
  .next (if s.gmHeard then { s with tim := { s.tim with ptpDelay := true } } else s)

/-- PTP_SYNC_SEND (R542): two-step Sync. -/
def execPtpSyncSend (t : Instant) (p : PortId) (s : State) : Result :=
  let s := s.at t
  .next (if s.ptpMasterOn p.val then (s.ptpSend p.val .sync).ptpSend p.val (.followUp s.stamp) else s)

/-- The clockClass announced (R543). -/
def State.clockClass (s : State) : Nat :=
  match s.tim.st with
  | .locked => if s.tim.source = 1 then 6 else (s.tim.master.map PtpMaster.clockClass).getD 248
  | .brumation => if s.tim.valid then 7 else 248
  | _ => 248

/-- PTP_ANNOUNCE_SEND (R543): while the device follows PTP it announces its parent's grandmaster, else itself. -/
def execPtpAnnounceSend (t : Instant) (p : PortId) (s : State) : Result :=
  let s := s.at t
  let parent := if s.tim.st = .locked ∧ s.tim.source = 2 then s.tim.master else none
  .next (if s.ptpMasterOn p.val then
    s.ptpSend p.val (.announce s.clockClass ((parent.map (fun m => m.stepsRemoved + 1)).getD 0)
      ((parent.map PtpMaster.identity).getD s.unitId) s.tim.ptpCfg)
    else s)

/-! ## PPS_OUT and TIM_SET -/

/-- A step at the PPS_OUT edge (R547). -/
def State.takeStep (s : State) (off : Int) : State :=
  let s := { s with tim := { s.tim with stepPending := none, steps := sat32 (s.tim.steps + 1), lastStep := off } }
  let s := (s.timEvent 2).moveTime (s.corrected + off)
  { s with tim := { s.tim with remaining := 0, slew := 0 } }

/-- PPS_OUT_EDGE (R550): the first nanosecond at a whole second of the corrected time, at least 500 ms after the previous
rising edge; a step that waits is taken (R547). -/
def execPpsOutEdge (t : Instant) (s : State) : Result :=
  let s := s.at t
  if decide (s.tim.st = .off) || decide (1 < s.corrected % 1000000000)
      || s.tim.ppsOutAt.any (fun p => decide (s.clock < p + 500000000)) then .next s
  else
    let s := { s with tim := { s.tim with ppsOutAt := some s.clock, ppsHigh := s.clock + s.tim.ppsWidth.toNat * 1000000 } }
    .next (match s.tim.stepPending with
      | some off => (s.takeStep off).refreshUnc
      | none => s)

/-- PPS_OUT as the pin stands (R550). -/
def State.ppsOut (s : State) : Bool := decide (s.clock < s.tim.ppsHigh)

/-- TIM_SET (R551): a write of TIM_SET_HI in FREE moves TIM_NOW; it is not a step. -/
def execTimSet (t : Instant) (hi : W32) (s : State) : Result :=
  let s := s.at t
  if s.tim.st ≠ .free then .next s
  else
    let s := s.moveTime ((hi ++ s.loOf pairTimSet).toNat : Nat)
    .next ({ s with tim := { s.tim with wasSet := true, setAt := s.clock } }).refreshUnc

end Sys2Proof.Machine
end

