-- ==== Sys2Proof/Machine/Restart.lean ====
section
/-!
DEFINITION. The restart of bring-up at S0 (R27, R90, R99, R124): what PERST_N, a rail loss, a trip and an emergency
power-down leave.
-/
namespace Sys2Proof.Machine

/-- The device restarts in Tadpole at S0. What the always-on domain holds stays: rails, fuse map, key digest, soft repairs,
sideband, trip record, a sideband power limit (R90, R117, R556). `vio`: VIO stayed good, so the fault log (R590), the TAP
and TIME_REF stay as they are. Slices keep what they hold, their bad words and the refresh they owe while VSLICE stays good
(R362), though nothing can read them before S4 has zeroed them. Everything else is at its reset value, and S0 runs (R99).
PWR_VCOREn reads its start-up value of 750 mV again, also where a rail stayed up and no PMBus write set it back (R25 is
silent on it: DESIGN CHOICE, notes/assumptions/81.md). -/
def State.restart (s : State) (vio : Bool) : State :=
  { clock := s.clock, free := s.free, pending := s.pending, out := { s.out with pba := [] }, rails := s.rails, fuse := s.fuse,
    digest := s.digest, srep := s.srep, sb := s.sb, trip := s.trip, bup := { st := .running, caps := [] },
    pwr := { sbLimit := s.pwr.sbLimit }, flt := if vio then s.flt else {},
    cores := if s.rails.good.getLsbD 4 then
        s.cores.foldl (fun m x =>
          AMap.put {} m x.1 { slice := x.2.slice, marks := x.2.marks, owed := x.2.owed }) []
      else [],
    tim := { timeRef := s.tim.timeRef },
    test := if vio then { s.test with unlocked := false, outs := [], an := 0, ins := [], err := 0 } else {} }

/-- PWR_KILL_N is low (R33). -/
def State.killed (s : State) : Bool := s.trip.hold || s.trip.emHold

/-- PWR_KILL_N falls: every switched rail collapses without a _LOST bit, and every switched domain is lost (R33, R567). -/
def State.collapse (s : State) : State := ({ s with rails := { s.rails with good := 0 } }).restart false

end Sys2Proof.Machine
end

