-- ==== Sys2Proof/Machine/Power.lean ====
section
/-!
DEFINITION. Power and thermal management (ch. 19), the tempo monitor and the pace tokens (ch. 02), the shared-resource
windows (R219-R221) and the bands that follow the dies' temperatures (R360, R366, R367, R406).
-/
namespace Sys2Proof.Machine

/-! ## Dies and their bands (R560, R564) -/

/-- The die's band (R560). -/
def State.dieBand (s : State) (d : Nat) : Nat := bandOf (s.dieCounted d) (dieMax d)

/-- Some die is in a band at or above `b`. -/
def State.anyBand (s : State) (b : Nat) : Bool := (List.range 29).any (fun d => decide (b ≤ s.dieBand d))

/-! ## Bands with the 100 ms rule (R360, R366, R367, R406) -/

/-- Everything whose band follows a temperature. -/
def allBands : List BandOf :=
  (List.finRange 4).flatMap (fun n => (List.finRange 4).flatMap (fun j => [BandOf.refresh n j, BandOf.ceiling n j]))
    ++ (List.finRange 8).map BandOf.stack

/-- A hotter reading moves a ceiling at once (R367); a refresh interval follows at the next command (R360, R406). -/
def State.raiseBands (s : State) (d : Nat) : State :=
  s.each (allBands.filter (fun b => decide (BandOfDie b = d) && (match b with
    | .ceiling _ _ => true
    | _ => false))) State.raiseBand

/-- The readings that held in the last 100 ms: those since, and the one that held when they began. -/
def recent (now : Nat) : List (Nat × Int) → List (Nat × Int)
  | [] => []
  | (t, r) :: l => if now < t + 100000000 then (t, r) :: recent now l else [(t, r)]

/-- The hottest counted reading of a die in the last 100 ms. -/
def State.hottestRecent (s : State) (d : Nat) : Int :=
  (recent s.clock (AMap.get [] s.pwr.history d)).foldl (fun m p => max m p.2) (s.dieCounted d)

/-- BAND_RELAX_EXPIRY (R360): after 100 ms at least 2 °C below the band's lower bound, straight to the longest interval that
those readings allow. -/
def execBandRelaxExpiry (t : Instant) (b : BandOf) (s : State) : Result :=
  let s := s.at t
  let x := bandBelow (bandBounds b) (s.hottestRecent (BandOfDie b))
  .next (if x < s.bandNow b then s.setBand x b else s)

/-- A die's readings have changed: its history, its bands, the temperature alarm (R562), the 100 ms of R561, the causes of
lateness. `hot` says whether the alarm stood before. -/
def State.dieChanged (s : State) (d : Nat) (hot : Bool) : State :=
  let h := AMap.get [] s.pwr.history d
  let s := { s with pwr := { s.pwr with history := AMap.put [] s.pwr.history d ((s.clock, s.dieCounted d) :: recent s.clock h) } }
  let s := s.raiseBands d
  let s := if s.anyBand 1 then { s with pwr := { s.pwr with coolSince := none } }
           else { s with pwr := { s.pwr with coolSince := some (s.pwr.coolSince.getD s.clock) } }
  let s := if s.anyBand 3 && !hot then (s.thmEvent 0).alert .temperature else s
  s.watchLate

/-- The code of a failure (THM_SENS_DATA.FAULT, R573). -/
def SensorFault.code : SensorFault → Nat
  | .none => 0
  | .isOpen => 1
  | .short => 2
  | .range => 3
  | .stuck => 4

/-- A sensor is found broken (R563): PF0 vector 3 each time, and a SENSOR record. -/
def State.breakSensor (s : State) (x : Nat) (f : SensorFault) : State :=
  let s := { s with pwr := { s.pwr with sensors := AMap.put {} s.pwr.sensors x { s.sensor x with fault := f } } }
  let s := if s.pwr.event.getLsbD 3 then s.signal 0 3 else s.thmEvent 3
  s.report { kind := 7, sev := 1, code := SensorFault.code f, loc := BitVec.ofNat 32 x }

/-- A reading of −40 °C to 150 °C, in 0.125 °C (R563). -/
def inRange (r : Int) : Bool := decide (-320 ≤ r) && decide (r ≤ 1200)

/-- A sensor after a sample of reading `r`: the run of unchanged codes goes on or begins again (R563). -/
def Sensor.sampled (x : Sensor) (r : Int) : Sensor :=
  if 0 < x.same ∧ r = x.reading then { x with same := x.same + 1 } else { x with reading := r, same := 1, moved := [] }

/-- Another sensor `y` of the die was sampled: it went from `old`, where it had a reading, to `r`. -/
def Sensor.beside (x : Sensor) (y : Nat) (old : Option Int) (r : Int) : Sensor :=
  let lo := min r (old.getD r)
  let hi := max r (old.getD r)
  let m := match AMap.get none x.moved y with
    | some (a, b) => (min a lo, max b hi)
    | none => (lo, hi)
  { x with moved := AMap.put none x.moved y (some m) }

/-- STUCK (R563): the code is unchanged for 4,096 samples while another sensor of the die moved by more than 2 °C. -/
def Sensor.stuck (x : Sensor) : Bool :=
  decide (4096 ≤ x.same) && x.moved.any (fun (y : Nat × Option (Int × Int)) => y.2.any (fun m => decide (m.1 + 16 < m.2)))

/-- The sample of sensor x told to the other sensors of its die. -/
def State.tellDie (s : State) (x : Nat) (r : Int) : State :=
  let old := if 0 < (s.sensor x).same then some (s.sensor x).reading else none
  { s with pwr := { s.pwr with sensors := (sensorsOf (sensorDie x)).foldl (fun m y =>
      if y = x then m else AMap.put {} m y ((AMap.get {} m y).beside x old r)) s.pwr.sensors } }

/-- SENSOR_SAMPLE (R560, R563): every sample runs a self-check, whose electrical part `check` finds OPEN or SHORT; a mapped or a
broken sensor is not sampled. -/
def execSensorSample (t : Instant) (sensor : Fin 560) (reading : BitVec 16) (check : SensorFault) (s : State) : Result :=
  let s := s.at t
  let x := sensor.val
  if !s.powered || s.sensorMapped x || s.sensorBroken x then .next s
  else
    let hot := s.anyBand 3
    let r := reading.toInt
    let y := (s.sensor x).sampled r
    let f : SensorFault :=
      if check = .isOpen ∨ check = .short then check else if !inRange r then .range else if y.stuck then .stuck else .none
    let s := if f ≠ .none then s.breakSensor x f
             else
               let s := s.tellDie x r
               { s with pwr := { s.pwr with sensors := AMap.put {} s.pwr.sensors x y } }
    .next (s.dieChanged (sensorDie x) hot)

/-! ## The power manager (R554-R561, R572, R623) -/

/-- A PMBus write of VCORE_Tn whose first attempts the regulator does not acknowledge; after three the regulator is at
fault and the voltage stays (R25, R572). -/
def State.writeVcore (s : State) (n mv unacked : Nat) : State :=
  let s := { s with out := { s.out with vr := s.out.vr ++ List.replicate (min 3 (unacked + 1)) (n, mv) } }
  if unacked < 3 then { s with pwr := { s.pwr with vcore := AMap.put 750 s.pwr.vcore n mv } }
  else
    (({ s with pwr := { s.pwr with vrFault := s.pwr.vrFault ||| BitVec.ofNat 4 (2 ^ n) } }).thmEvent 5).report
      { kind := 8, sev := 1, loc := BitVec.ofNat 32 n }

/-- The lower bound of VCORE_Tn (R558). -/
def State.vcoreFloor (s : State) (n : Nat) : Nat := if s.floored n then 620 else 550

/-- The limit or a floor changed: a tower that R50 now covers is set to 0.62 V in one write (R623); `ack` lists the towers
whose regulator acknowledges. -/
def State.raiseFloors (s : State) (ack : List TowerId) : State :=
  if !s.pwr.armed then s
  else
    s.each (List.finRange 4) (fun s n =>
      if !s.pwr.vrFault.getLsbD n.val && decide (s.vcore n.val < s.vcoreFloor n.val) then
        s.writeVcore n.val (s.vcoreFloor n.val) (if ack.contains n then 0 else 3)
      else s)

/-- POWER_LOOP_TICK (R558, R559): `unacked` gives, by tower, how many attempts of a write its regulator leaves
unacknowledged. -/
def execPowerLoopTick (t : Instant) (average : Nat) (unacked : List Nat) (s : State) : Result :=
  let s := s.at t
  if !s.pwr.armed || !s.powered then .next s
  else
    let ws := (s.clock, average) :: s.pwr.windows.filter (fun w => decide (s.clock < w.1 + 1000000000))
    let s := ({ s with pwr := { s.pwr with now := average, windows := ws, energy := s.pwr.energy + average } }).countHub 0x33 average none
    let live := (List.range 4).filter (fun n => !s.pwr.vrFault.getLsbD n)
    if s.limit < average then
      let low := live.filter (fun n => decide (s.vcoreFloor n < s.vcore n))
      .next (if low.isEmpty then s.thmEvent 4
             else s.each low (fun s n => s.writeVcore n (max (s.vcoreFloor n) (s.vcore n - 10)) (unacked.getD n 0)))
    else if average + 25 ≤ s.limit ∧ !s.anyBand 1 then
      .next (s.each (live.filter (fun n => decide (s.vcore n < 900))) (fun s n =>
        s.writeVcore n (min 900 (s.vcore n + 5)) (unacked.getD n 0)))
    else .next s

/-- THERMAL_ROUND (R561). -/
def execThermalRound (t : Instant) (s : State) : Result :=
  let s := s.at t
  if !s.pwr.armed || !s.powered then .next s
  else if s.anyBand 2 then
    if s.limit = s.floorSum then .next s
    else
      let s := { s with pwr := { s.pwr with steps := s.pwr.steps + 1, stepsAt := s.clock, throttles := sat32 (s.pwr.throttles + 1) } }
      .next ((s.countHub 0x32 1 none).thmEvent 1)
  else if 0 < s.pwr.steps ∧ s.pwr.coolSince.any (fun t0 => decide (t0 + 100000000 ≤ s.clock)) ∧ s.pwr.stepsAt + 100000000 ≤ s.clock then
    .next (({ s with pwr := { s.pwr with steps := s.pwr.steps - 1, stepsAt := s.clock } }).thmEvent 2)
  else .next s

/-! ## The trip chain (R566-R571) -/

/-- The threshold and the re-arm threshold of a trip sensor, in 0.125 °C (R566). -/
def tripAt (x : Nat) : Int := if x < 16 then 920 else if x < 48 then 880 else if x < 50 then 920 else 840
def rearmAt (x : Nat) : Int := if x < 16 then 760 else if x < 48 then 720 else if x < 50 then 760 else 680

/-- The trip sensor is fuse-mapped (R569). -/
def State.tripMapped (s : State) (x : Nat) : Bool :=
  match s.fuse with
  | some f => f.tripMapped.contains x
  | none => false

/-- Every trip sensor that is not mapped reads below its re-arm threshold; a broken one never does (R568, R569). -/
def State.cooled (s : State) : Bool :=
  (List.range 58).all (fun x => s.tripMapped x ||
    (!s.trip.broken.contains x && decide ((AMap.get (0 : BitVec 16) s.trip.readings x).toInt < rearmAt x)))

/-- The re-arm timer runs while the trip holds and every sensor is cool (R568). -/
def State.rearmTimer (s : State) : State :=
  { s with trip := { s.trip with since := if s.trip.hold && s.cooled then some (s.trip.since.getD s.clock) else none } }

/-- The cause record holds the first cause since it was cleared (R570). -/
def State.recordTrip (s : State) (kind sensor : Nat) (reading : BitVec 16) : State :=
  if s.trip.cause.getLsbD 31 then s
  else { s with trip := { s.trip with
           cause := BitVec.ofNat 32 (2 ^ 31 + kind * 2 ^ 28 + sensor * 2 ^ 16 + reading.toNat) } }

/-- The chain trips (R567, R570): PWR_KILL_N and THERM_TRIP_N fall (R32, R33). -/
def State.takeTrip (s : State) (kind sensor : Nat) (reading : BitVec 16) : State :=
  let s := s.recordTrip kind sensor reading
  if s.trip.hold then s.rearmTimer
  else
    let s := { s with trip := { s.trip with hold := true, pin := true, count := min 0xFFFF (s.trip.count + 1) } }
    (s.alert .trip).collapse.rearmTimer

/-- TRIP_TEMP (R567): a trip sensor reads at or above its threshold. -/
def execTripTemp (t : Instant) (sensor : Fin 58) (reading : BitVec 16) (s : State) : Result :=
  let s := s.at t
  let x := sensor.val
  if !s.rails.vaon || s.tripMapped x then .next s
  else
    let s := { s with trip := { s.trip with readings := AMap.put 0 s.trip.readings x reading } }
    .next (if tripAt x ≤ reading.toInt then s.takeTrip 1 x reading else s.rearmTimer)

/-- TRIP_SELF_CHECK (R567, R569). -/
def execTripSelfCheck (t : Instant) (failed : Option (Fin 58)) (reading : BitVec 16) (s : State) : Result :=
  let s := s.at t
  match failed with
  | none => .next s
  | some x =>
    if !s.rails.vaon || s.tripMapped x.val then .next s
    else
      let s := { s with trip := { s.trip with broken := insertNat x.val s.trip.broken } }
      .next (s.takeTrip 2 x.val reading)

/-- REARM_THRESHOLD_CROSSING (R568): a trip sensor's reading while the chain measures cooling. -/
def execRearmThresholdCrossing (t : Instant) (sensor : Fin 58) (reading : BitVec 16) (s : State) : Result :=
  let s := s.at t
  if !s.rails.vaon then .next s
  else .next ({ s with trip := { s.trip with readings := AMap.put 0 s.trip.readings sensor.val reading } }).rearmTimer

/-- THERM_TRIP_N rises when PWR_KILL_N is released (R32, R568). -/
def State.releasePin (s : State) : State := { s with trip := { s.trip with pin := s.trip.pin && s.killed } }

/-- TRIP_REARM_EXPIRY (R568): after 10 s the trip releases its hold; the pins rise when no hold remains. -/
def execTripRearmExpiry (t : Instant) (s : State) : Result :=
  let s := s.at t
  .next (if s.trip.hold && s.trip.since.any (fun t0 => decide (t0 + 10000000000 ≤ s.clock)) then
    ({ s with trip := { s.trip with hold := false, since := none } }).releasePin else s)

/-- The trip cause record cleared (R570, R573). -/
def State.clearTripCause (s : State) : State := { s with trip := { s.trip with cause := 0 } }

/-- TRIP_CAUSE_CLEAR (R570): a 1 written to THM_TRIP_CAUSE.VALID. -/
def execTripCauseClear (t : Instant) (s : State) : Result := .next (s.at t).clearTripCause

/-! ## Tempo and pace (R55-R62) -/

/-- The length of the core's measuring window, in ns (R63). -/
def Core.tmonWindow (k : Core) : Nat := 1000 * 10 ^ bits k.tmonCfg.toNat 1 0

/-- The window that runs has ended (R55): windows follow one another, the first from the time the last rail became good. -/
def State.tmonDue (s : State) (c : Nat) : Bool :=
  decide (max (s.core c).tmonAt s.rails.allGoodAt + (s.core c).tmonWindow ≤ s.clock)

/-- TMON_WINDOW_END (R55, R56): the tempo measured over a window of CORE_TMON_CFG.WINDOW. -/
def execTmonWindowEnd (t : Instant) (c : CoreId) (tempo : BitVec 12) (s : State) : Result :=
  let s := s.at t
  if !s.powered || !s.coreUp c.val || !s.tmonDue c.val then .next s
  else
    .next (s.modCore c.val (fun k =>
      { k with tempo := tempo, tmonAt := s.clock, tmonValid := true, tmonCount := (k.tmonCount + 1) % 256,
               tmonMin := if tempo.toNat < k.tmonMin.toNat then tempo else k.tmonMin,
               tmonLow := k.tmonLow || decide (tempo.toNat < bits k.tmonCfg.toNat 27 16) })).watchLate

/-- CORE_TMON_MIN cleared (R65). -/
def Core.clearMin (k : Core) : Core := { k with tmonLow := false, tmonMin := 0xFFF }

/-- TMON_MIN_CLEAR (R65): a 1 written to LOW. -/
def execTmonMinClear (t : Instant) (c : CoreId) (s : State) : Result := .next ((s.at t).modCore c.val Core.clearMin)

/-- The core's tempo is below guard: its last window measured less than 1,050 Mbeat/s (R47, R61). -/
def Core.slow (k : Core) : Bool := k.tmonValid && decide (k.tempo.toNat < 1050)

/-- A lane can go on: its last burst is not done, and the ring of the inlet it feeds has room. -/
def Core.laneWorks (k : Core) (l : Lane) : Bool :=
  !l.finished && !((inletOf (bits (l.words.getD 1 0).toNat 63 60)).any (fun n => (k.run.str.inlet n).full))

/-- Which budgets a core whose tempo is below guard has work for and has not used (R61): beats for the strip or the AOUT that
runs, instruction issues, the stream engine. -/
def Core.owes (k : Core) : Bool × Bool × Bool :=
  (k.slow && (k.stripRuns || k.run.arr.out.isSome) && decide (0 < k.budgetBeats),
   k.slow && decide (k.mode = .running) && decide (0 < k.budgetIssues),
   k.slow && k.run.str.lanes.any (fun x => x.2.any k.laneWorks) && decide (0 < k.budgetStream))

/-- A pace token at a pinned core (R60, R61): one budget each, and nothing of an unused one is carried forward. Work below
guard that has not finished the previous budget slips: it finishes that one and uses the next at once. A pass whose first
strip both inlets have granted may begin it now (R62). -/
def Core.paced (k : Core) : Core :=
  let (b, i, d) := k.owes
  let slip := b || i || d
  { k with budgetBeats := 128 + (if b then min 128 k.budgetBeats else 0),
           budgetIssues := 256 + (if i then min 256 k.budgetIssues else 0),
           budgetStream := 16384 + (if d then min 16384 k.budgetStream else 0), budgetSend := 16384,
           slips := if slip then { pf := min 0xFFFF (k.slips.pf + 1), vf := min 0xFFFF (k.slips.vf + 1) } else k.slips,
           run := { k.run with arr := { k.run.arr with begun := k.run.arr.begun || k.stripRuns } } }

/-- PACE_TOKEN (R59-R61): each pinned core of the tower. -/
def execPaceToken (t : Instant) (w : TowerId) (s : State) : Result :=
  let s := s.at t
  if s.tim.st = .off then .next s
  else
    .next (s.each ((List.range 256).map (fun i => 256 * w.val + i)) (fun s c =>
      if !s.pinned c then s
      else
        let (b, i, d) := (s.core c).owes
        let s := s.modCore c Core.paced
        if b || i || d then s.countCore c 0x14 1 else s))

/-! ## Shared-resource windows (R219-R221, R583) -/

/-- The value of a key in a list, 0 where it is not listed. -/
def look {α : Type} [DecidableEq α] (l : List (α × Nat)) (i : α) : Nat := ((l.find? (fun p => decide (p.1 = i))).map Prod.snd).getD 0

/-- A bridge direction touches tower m (R621). -/
def bridgeTouches (b m : Nat) : Bool :=
  if b < 8 then decide (b / 2 = m) else decide ((b - 8) / 2 = m) || decide (((b - 8) / 2 + 1) % 4 = m)

/-- The maximum package power limit, in W (R2). -/
def State.maxPower (s : State) : Nat := if s.dk36 then 1250 else 1600

/-- A shared resource by the number of its event source (R580): what the window measured, its full scale (R220), and
whether Pn may read it. -/
def State.shared (s : State) (x : Traffic) (n src : Nat) : Nat × Nat × Bool :=
  if 0x8000 ≤ src ∧ src < 0x8024 then
    let p := (src - 0x8000) / 2
    (((if src % 2 = 0 then x.portTx else x.portRx).find? (fun y => decide (y.1.val = p))).map Prod.snd |>.getD 0, 100000000,
     ((s.frame.map Frame.ports).getD []).any (fun r => decide (r.port = p) && decide (r.part = n)))
  else if 0x8100 ≤ src ∧ src < 0x8110 then
    let b := src - 0x8100
    ((x.bridge.find? (fun y => decide (y.1.val = b))).map Prod.snd |>.getD 0, if b < 8 then 1000000000 else 512000000,
     (List.range 4).any (fun m => bridgeTouches b m && (List.range 16).any (fun g => decide (s.groupOwner m g = some n))))
  else if 0x8200 ≤ src ∧ src < 0x8300 then
    let i := src - 0x8200
    let k := i / 32
    let c := i % 32
    ((x.chan.find? (fun y => decide (y.1.val = i))).map Prod.snd |>.getD 0, 62500000,
     ((s.frame.map Frame.regions).getD []).any (fun r => decide (r.part = n) && (r.covers k (2 * c) || r.covers k (2 * c + 1))))
  else if src = 0x8300 then (x.power, s.maxPower, true)
  else (0, 1, false)

/-- Q of R219 for Pn: 0 where Pn may not see the resource. -/
def State.quantised (s : State) (x : Traffic) (n src : Nat) : Nat :=
  let (m, full, ok) := s.shared x n src
  if ok then min 64 (64 * m / full) else 0

/-- The VF's accumulation of a counter (R583). -/
def Counter.addQ (k : Counter) (q : Nat) : Counter :=
  let v := k.qval + q
  if v < 2 ^ 48 - (if k.sel.getLsbD 16 then 0 else 1) then { k with qval := v }
  else { k with qval := if k.sel.getLsbD 16 then v % 2 ^ 48 else 2 ^ 48 - 1, qovf := true }

/-- The counters of a core that count shared resources take the window in (R583). -/
def State.countShared (s : State) (x : Traffic) (n c : Nat) : State :=
  let srcs := ((s.core c).evc.filter (fun (p : Nat × Counter) => p.2.sel.getLsbD 31 && p.2.sel.getLsbD 15)).map
    (fun (p : Nat × Counter) => bits p.2.sel.toNat 15 0)
  let s := s.each srcs.eraseDups (fun s src =>
    let (m, _, ok) := s.shared x n src
    if ok then s.countCore c src m else s)
  s.modCore c (fun k => { k with evc := k.evc.map (fun (p : Nat × Counter) =>
    if p.2.sel.getLsbD 31 && p.2.sel.getLsbD 15 then (p.1, p.2.addQ (s.quantised x n (bits p.2.sel.toNat 15 0))) else p) })

/-- QUANT_WINDOW_END (R219): a window ends at a whole millisecond of TIM_MONO; its readings replace the last ones, and the
bridge bytes count in the towers (R581: 8 and 9 the hub link, 0xA and 0xB the ring link). -/
def execQuantWindowEnd (t : Instant) (x : Traffic) (s : State) : Result :=
  let s := s.at t
  if decide (s.tim.st = .off) || decide (s.mono % 1000000 ≠ 0) then .next s
  else
    let s := { s with window := x, windows := s.windows + 1 }
    let b := fun (i : Fin 16) => look x.bridge i
    let s := s.each (List.finRange 4) (fun s m =>
      (((s.countTower m.val 8 (b ⟨2 * m.val, by omega⟩) none).countTower m.val 9 (b ⟨2 * m.val + 1, by omega⟩) none).countTower
        m.val 0xA (b ⟨8 + 2 * m.val, by omega⟩) none).countTower m.val 0xB (b ⟨9 + 2 * m.val, by omega⟩) none)
    .next (s.each (s.cores.map Prod.fst) (fun s c =>
      match s.coreOwner c with
      | some n => s.countShared x n c
      | none => s))

end Sys2Proof.Machine
end

