-- ==== Sys2Proof/Machine/Sideband.lean ====
section
/-!
DEFINITION. The I3C sideband target (R82-R89): addresses, the private commands and their answers, ALERT_N, the emergency
power-down (R86). It lies in the always-on domain and answers whenever VAON is good (R83).
-/
namespace Sys2Proof.Machine

/-! ## Answers -/

/-- What the next private read, or a CCC's read, returns. -/
def State.answers (s : State) (status : Nat) (fs : List SbField) : State := { s with sb := { s.sb with status := status, resp := fs } }

/-- A field of 16 bits, signed or not. -/
def f16 (x : Int) : SbField := { width := 16, value := (BitVec.ofInt 16 x).toNat }
/-- A field of 8 bits. -/
def f8 (x : Nat) : SbField := { width := 8, value := x % 256 }

/-- The target answers private writes: VAON is good and it has a dynamic address. -/
def State.sbOn (s : State) : Bool := s.rails.vaon && s.sb.addr.isSome

/-- A SET_ or EMERGENCY_ command (R84): a repeat of its previous sequence byte returns the first outcome with bit 7 set;
otherwise it is carried out and its outcome kept. -/
def State.sequenced (s : State) (code : Nat) (seq : Byte) (act : State → State) : State :=
  match AMap.get none s.sb.last code with
  | some r =>
    if r.seq = seq then s.answers (r.status + 128) r.fields
    else
      let s := act s
      let r : SbLast := { seq := seq, status := s.sb.status, fields := s.sb.resp }
      { s with sb := { s.sb with last := AMap.put none s.sb.last code (some r) } }
  | none =>
    let s := act s
    let r : SbLast := { seq := seq, status := s.sb.status, fields := s.sb.resp }
    { s with sb := { s.sb with last := AMap.put none s.sb.last code (some r) } }

/-! ## Common command codes (R82) -/

/-- ENTDAA: assigned where the target has no dynamic address. -/
def execEntdaa (t : Instant) (addr : BitVec 7) (s : State) : Result :=
  let s := s.at t
  .next (if s.rails.vaon && s.sb.addr.isNone then { s with sb := { s.sb with addr := some addr } } else s)

/-- SETDASA from the static address 0x5C. -/
def execSetdasa (t : Instant) (static addr : BitVec 7) (s : State) : Result :=
  let s := s.at t
  .next (if s.rails.vaon && s.sb.addr.isNone && decide (static = 0x5C) then { s with sb := { s.sb with addr := some addr } } else s)

/-- RSTDAA. -/
def execRstdaa (t : Instant) (s : State) : Result :=
  let s := s.at t
  .next (if s.rails.vaon then { s with sb := { s.sb with addr := none } } else s)

/-- ENEC enables in-band interrupts. -/
def execEnec (t : Instant) (s : State) : Result :=
  let s := s.at t
  .next (if s.rails.vaon then { s with sb := { s.sb with ibi := true } } else s)

/-- DISEC disables them. -/
def execDisec (t : Instant) (s : State) : Result :=
  let s := s.at t
  .next (if s.rails.vaon then { s with sb := { s.sb with ibi := false } } else s)

/-- GETPID; the provisioned ID is not stated. -/
def execGetpid (t : Instant) (s : State) : Result :=
  let s := s.at t
  .next (if s.sbOn then s.answers 0 [{ width := 48, value := Config.i3cPid.toNat }] else s)

/-- GETBCR; not stated. -/
def execGetbcr (t : Instant) (s : State) : Result :=
  let s := s.at t
  .next (if s.sbOn then s.answers 0 [f8 Config.i3cBcr.toNat] else s)

/-- GETDCR; not stated. -/
def execGetdcr (t : Instant) (s : State) : Result :=
  let s := s.at t
  .next (if s.sbOn then s.answers 0 [f8 Config.i3cDcr.toNat] else s)

/-- GETSTATUS; the status word is not stated: a free value. -/
def execGetstatus (t : Instant) (s : State) : Result :=
  let s := s.at t
  .next (if s.sbOn then s.drawn.answers 0 [f16 (Config.i3cStatus s.free).toNat] else s)

/-- GETMXDS; not stated. -/
def execGetmxds (t : Instant) (s : State) : Result :=
  let s := s.at t
  .next (if s.sbOn then s.answers 0 [f16 Config.i3cMxds.toNat] else s)

/-! ## Reading commands (R85) -/

/-- The command codes of R85. -/
def sbCodes : List Nat := [0x01, 0x02, 0x10, 0x11, 0x12, 0x20, 0x21, 0x30, 0x31, 0x40, 0x41, 0x50, 0x51, 0x52]

/-- GET_ID: HUB_ID, HUB_STEP (R39), unit ID. A command byte that R85 does not list, which no row of the table carries, also
comes here and is answered BAD_CMD; another listed byte has a row of its own (notes/assumptions/38.md). -/
def execGetId (x : SbCall) (s : State) : Result :=
  let s := s.at x.time
  .next (if s.sbOn && !sbCodes.contains x.code.toNat then s.answers 1 []
    else if s.sbOn && decide (x.code = 1) then s.answers 0 [{ width := 32, value := s.hubId.toNat }, { width := 32, value := 0x4201 },
    { width := 64, value := s.unitId.toNat }] else s)

/-- GET_STATE: the bring-up step, the Tadpole flag, the committed partition count, and the failure code (R104). -/
def execGetState (t : Instant) (s : State) : Result :=
  let s := s.at t
  let n := (s.parts.filter (fun (p : Nat × Part) => p.2.image.isSome)).length
  .next (if s.sbOn then s.answers 0 [f8 s.bup.step, f8 (nat s.tadpole), f8 n, f8 s.bup.code] else s)

/-- The rail of a die is good (R24). -/
def State.diePowered (s : State) (d : Nat) : Bool :=
  if d < 4 then s.rails.good.getLsbD d
  else if d < 20 then s.rails.good.getLsbD 4
  else if d < 28 then s.rails.good.getLsbD 5 && s.rails.good.getLsbD 6
  else s.rails.good.getLsbD 7

/-- The hottest reading among some dies. -/
def State.hottestOf (s : State) (lo n : Nat) : Int :=
  (List.range n).foldl (fun m i => max m (s.dieReading (lo + i))) (s.dieReading lo)

/-- GET_TEMP: the hottest TLD, slice layer, stack and hub temperature. -/
def execGetTemp (t : Instant) (s : State) : Result :=
  let s := s.at t
  .next (if !s.sbOn then s
    else if !(List.range 29).all s.diePowered then s.answers 3 []
    else s.answers 0 [f16 (s.hottestOf 0 4), f16 (s.hottestOf 4 16), f16 (s.hottestOf 20 8), f16 (s.dieReading 28)])

/-- GET_POWER: package power and the limit in force. -/
def execGetPower (t : Instant) (s : State) : Result :=
  let s := s.at t
  .next (if !s.sbOn then s
    else if !s.diePowered 28 then s.answers 3 []
    else s.answers 0 [f16 s.pwr.now, f16 s.limit])

/-- GET_TELEMETRY: a count of 0 is Empty; a sensor above 559 is a bad argument. -/
def execGetTelemetry (t : Instant) (first : BitVec 16) (count : Byte) (s : State) : Result :=
  let s := s.at t
  let xs := (List.range count.toNat).map (fun i => first.toNat + i)
  .next (if !s.sbOn then s
    else if count = 0 then s.answers 0 []
    else if 560 < first.toNat + count.toNat then s.answers 2 []
    else if !xs.all (fun x => s.diePowered (sensorDie x)) then s.answers 3 []
    else s.answers 0 (xs.map (fun x => f16 (s.sensor x).reading)))

/-- The default limit (R2, R556). -/
def State.defaultPower (s : State) : Nat := if s.dk36 then 950 else 1200

/-- GET_LIMITS: default and maximum limits, the sum of floors. -/
def execGetLimits (t : Instant) (s : State) : Result :=
  let s := s.at t
  .next (if s.sbOn then s.answers 0 [f16 s.defaultPower, f16 s.maxPower, f16 s.floorSum] else s)

/-- GET_LAMP: byte 3 holds STATUS as LMP_STATn codes it (R612). A lamp above 11 is BAD_ARG before anything else: R87 gives the
range for SET_LAMP only (DESIGN CHOICE, notes/assumptions/39.md). -/
def execGetLamp (t : Instant) (lamp : Byte) (s : State) : Result :=
  let s := s.at t
  let i := lamp.toNat
  let l := s.lamp i
  let cfg := l.pending.getD l.cfg
  let duty := bits cfg.toNat 8 0
  .next (if !s.sbOn then s
    else if 11 < i then s.answers 2 []
    else if !s.diePowered 28 then s.answers 3 []
    else s.answers 0 [f8 (i + 16 * (duty / 256)), f8 duty, f8 (bits cfg.toNat 23 16), f8 l.status])

/-- GET_TRIP_CAUSE: the kept cause (R570), the rail losses (R40), the emergency state. -/
def execGetTripCause (t : Instant) (s : State) : Result :=
  let s := s.at t
  let armed := s.sb.armedAt.any (fun a => decide (s.clock ≤ a + 10000000))
  .next (if s.sbOn then s.answers 0 [{ width := 32, value := s.trip.cause.toNat }, f8 s.rails.lost.toNat,
    f8 (Config.emergencyByte s.trip.emHold armed).toNat] else s)

/-! ## Limits and lamps -/

/-- The range of the Operator limit (R556). -/
def State.limitFits (s : State) (v : Nat) : Bool := decide ((if s.dk36 then 725 else 900) ≤ v) && decide (v ≤ s.maxPower)

/-- SET_POWER_LIMIT on the sideband (R556): before S6 is DONE it is recorded for S6. -/
def execSbSetPowerLimit (t : Instant) (seq : Byte) (limit : BitVec 16) (s : State) : Result :=
  let s := s.at t
  let v := limit.toNat / 25 * 25
  .next (if !s.sbOn then s
    else s.sequenced 0x20 seq (fun s =>
      if !s.limitFits v then s.answers 2 []
      else if s.pwr.armed then
        let s := { s with pwr := { s.pwr with opLimit := v } }
        s.answers 0 [f16 s.limit]
      else ({ s with pwr := { s.pwr with sbLimit := some v } }).answers 0 [f16 v]))

/-- SET_LAMP (R87): DUTY and CURRENT set, the lamp enabled, PROVE and PROVE_DARK kept. -/
def execSetLamp (t : Instant) (seq b0 b1 b2 : Byte) (s : State) : Result :=
  let s := s.at t
  let i := bits b0.toNat 3 0
  let duty := 256 * nat (b0.getLsbD 4) + b1.toNat
  .next (if !s.sbOn then s
    else s.sequenced 0x30 seq (fun s =>
      let l := s.lamp i
      let v := BitVec.ofNat 32 (2 ^ 31 + b2.toNat * 2 ^ 16 + duty) ||| (l.pending.getD l.cfg &&& 0x03000000)
      if 256 < duty ∨ b2.toNat < 20 ∨ 200 < b2.toNat ∨ 11 < i ∨ bits b0.toNat 7 5 ≠ 0 then s.answers 2 []
      else if !s.diePowered 28 then s.answers 3 []
      else if (s.lampOwner i).isSome then s.answers 4 []
      else (s.setLampCfg i v).answers 0 []))

/-! ## ALERT_N (R89) -/

/-- The numbers that Config uses for the causes. -/
def AlertCause.num : AlertCause → Fin 4
  | .trip => 0
  | .rail => 1
  | .temperature => 2
  | .emergency => 3

/-- The condition of a cause has ended. -/
def State.alertEnded (s : State) : AlertCause → Bool
  | .trip => !s.trip.hold
  | .rail => decide (s.rails.good = 0xFF)
  | .temperature => !s.anyBand 3
  | .emergency => !s.trip.emHold

/-- ALERT_N is low: a cause is set, or both copies of the fuse map failed (R89, R104). -/
def State.alertLow (s : State) : Bool := !s.sb.alerts.isEmpty || decide (s.bup.step = 1 ∧ s.bup.code = 0x20)

/-- CLEAR_ALERT (R89): the causes in the mask whose condition has ended; how the mask's bits name them is not stated. -/
def execClearAlert (t : Instant) (mask : Byte) (s : State) : Result :=
  let s := s.at t
  if !s.sbOn then .next s
  else
    let left := s.sb.alerts.filter (fun a => !(mask.getLsbD (Config.alertBit (AlertCause.num a)).val && s.alertEnded a))
    .next (({ s with sb := { s.sb with alerts := left } }).answers 0
      [f8 (Config.alertByte (left.map (fun a => (AlertCause.num a).val))).toNat])

/-! ## The emergency power-down (R86) -/

/-- EMERGENCY_ARM. Another payload byte is BAD_ARG, here and for EMERGENCY_OFF and EMERGENCY_RELEASE, and for OFF before the
arm is looked at: R85 and R86 give no status for it (DESIGN CHOICE, notes/assumptions/39.md). -/
def execEmergencyArm (t : Instant) (seq payload : Byte) (s : State) : Result :=
  let s := s.at t
  .next (if !s.sbOn then s
    else s.sequenced 0x50 seq (fun s =>
      if payload ≠ 0xA5 then s.answers 2 []
      else ({ s with sb := { s.sb with armedAt := some s.clock } }).answers 0 []))

/-- EMERGENCY_OFF: within 10 ms of an accepted ARM, which one OFF does not use up, PWR_KILL_N falls, all keys are destroyed and
the cause is kept where none is recorded (R33, R212, R570). -/
def execEmergencyOff (t : Instant) (seq payload : Byte) (s : State) : Result :=
  let s := s.at t
  .next (if !s.sbOn then s
    else s.sequenced 0x51 seq (fun s =>
      if payload ≠ 0x5A then s.answers 2 []
      else if !s.sb.armedAt.any (fun a => decide (s.clock ≤ a + 10000000)) then s.answers 5 []
      else
        let s := (s.recordTrip 3 0 0).alert .emergency
        ({ s with trip := { s.trip with emHold := true } }).collapse.answers 0 []))

/-- EMERGENCY_RELEASE: the sideband's hold is dropped; where no trip holds, the pins rise (R32, R86). -/
def execEmergencyRelease (t : Instant) (seq payload : Byte) (s : State) : Result :=
  let s := s.at t
  .next (if !s.sbOn then s
    else s.sequenced 0x52 seq (fun s =>
      if payload ≠ 0x5A then s.answers 2 []
      else ({ s with trip := { s.trip with emHold := false } }).releasePin.answers 0 []))

end Sys2Proof.Machine
end

