-- ==== Sys2Proof/Machine/Crypto.lean ====
section
/-!
DEFINITION. The signature check of stage 2 (R136, R137): SHA-384 and the verification of an ECDSA P-384 signature with the
validation of its public key; and the key store's CTR_DRBG with AES-256 (R207). The standards that the rules name, FIPS 180-4, FIPS 186-5, FIPS 197 and SP 800-90A, supply the constants and the
steps (PRESUMED, notes/assumptions/27.md).
-/
namespace Sys2Proof.Machine

/-! ## SHA-384 (FIPS 180-4) -/

/-- The eight words of a hash state. -/
structure Sha where
  a : W64
  b : W64
  c : W64
  d : W64
  e : W64
  f : W64
  g : W64
  h : W64
deriving DecidableEq, Repr

def shaK0 : List W64 :=
  [0x428A2F98D728AE22, 0x7137449123EF65CD, 0xB5C0FBCFEC4D3B2F, 0xE9B5DBA58189DBBC,
   0x3956C25BF348B538, 0x59F111F1B605D019, 0x923F82A4AF194F9B, 0xAB1C5ED5DA6D8118,
   0xD807AA98A3030242, 0x12835B0145706FBE, 0x243185BE4EE4B28C, 0x550C7DC3D5FFB4E2,
   0x72BE5D74F27B896F, 0x80DEB1FE3B1696B1, 0x9BDC06A725C71235, 0xC19BF174CF692694,
   0xE49B69C19EF14AD2, 0xEFBE4786384F25E3, 0x0FC19DC68B8CD5B5, 0x240CA1CC77AC9C65,
   0x2DE92C6F592B0275, 0x4A7484AA6EA6E483, 0x5CB0A9DCBD41FBD4, 0x76F988DA831153B5,
   0x983E5152EE66DFAB, 0xA831C66D2DB43210, 0xB00327C898FB213F, 0xBF597FC7BEEF0EE4,
   0xC6E00BF33DA88FC2, 0xD5A79147930AA725, 0x06CA6351E003826F, 0x142929670A0E6E70,
   0x27B70A8546D22FFC, 0x2E1B21385C26C926, 0x4D2C6DFC5AC42AED, 0x53380D139D95B3DF,
   0x650A73548BAF63DE, 0x766A0ABB3C77B2A8, 0x81C2C92E47EDAEE6, 0x92722C851482353B]

def shaK1 : List W64 :=
  [0xA2BFE8A14CF10364, 0xA81A664BBC423001, 0xC24B8B70D0F89791, 0xC76C51A30654BE30,
   0xD192E819D6EF5218, 0xD69906245565A910, 0xF40E35855771202A, 0x106AA07032BBD1B8,
   0x19A4C116B8D2D0C8, 0x1E376C085141AB53, 0x2748774CDF8EEB99, 0x34B0BCB5E19B48A8,
   0x391C0CB3C5C95A63, 0x4ED8AA4AE3418ACB, 0x5B9CCA4F7763E373, 0x682E6FF3D6B2B8A3,
   0x748F82EE5DEFB2FC, 0x78A5636F43172F60, 0x84C87814A1F0AB72, 0x8CC702081A6439EC,
   0x90BEFFFA23631E28, 0xA4506CEBDE82BDE9, 0xBEF9A3F7B2C67915, 0xC67178F2E372532B,
   0xCA273ECEEA26619C, 0xD186B8C721C0C207, 0xEADA7DD6CDE0EB1E, 0xF57D4F7FEE6ED178,
   0x06F067AA72176FBA, 0x0A637DC5A2C898A6, 0x113F9804BEF90DAE, 0x1B710B35131C471B,
   0x28DB77F523047D84, 0x32CAAB7B40C72493, 0x3C9EBE0A15C9BEBC, 0x431D67C49C100D4C,
   0x4CC5D4BECB3E42B6, 0x597F299CFC657E2A, 0x5FCB6FAB3AD6FAEC, 0x6C44198C4A475817]

/-- The 80 constants of the rounds. -/
def shaK : List W64 := shaK0 ++ shaK1

/-- The state before the first block. -/
def shaInit : Sha :=
  { a := 0xCBBB9D5DC1059ED8, b := 0x629A292A367CD507, c := 0x9159015A3070DD17, d := 0x152FECD8F70E5939,
    e := 0x67332667FFC00B31, f := 0x8EB44A8768581511, g := 0xDB0C2E0D64F98FA7, h := 0x47B5481DBEFA4FA4 }

def shaS0 (x : W64) : W64 := x.rotateRight 28 ^^^ x.rotateRight 34 ^^^ x.rotateRight 39
def shaS1 (x : W64) : W64 := x.rotateRight 14 ^^^ x.rotateRight 18 ^^^ x.rotateRight 41
def shaT0 (x : W64) : W64 := x.rotateRight 1 ^^^ x.rotateRight 8 ^^^ x >>> 7
def shaT1 (x : W64) : W64 := x.rotateRight 19 ^^^ x.rotateRight 61 ^^^ x >>> 6

/-- `n` more words of the message schedule; `w` holds those so far, newest first. -/
def shaExtend : Nat → List W64 → List W64
  | 0, w => w
  | n + 1, w => shaExtend n ((shaT1 (w.getD 1 0) + w.getD 6 0 + shaT0 (w.getD 14 0) + w.getD 15 0) :: w)

/-- One round with the sum of its constant and its word. -/
def shaRound (s : Sha) (kw : W64) : Sha :=
  let t := s.h + shaS1 s.e + ((s.e &&& s.f) ^^^ (~~~s.e &&& s.g)) + kw
  let u := shaS0 s.a + ((s.a &&& s.b) ^^^ (s.a &&& s.c) ^^^ (s.b &&& s.c))
  { a := t + u, b := s.a, c := s.b, d := s.c, e := s.d + t, f := s.e, g := s.f, h := s.g }

/-- One block of 128 bytes. -/
def shaBlock (s : Sha) (block : Bytes) : Sha :=
  let first := (List.range 16).map (fun i => BitVec.ofNat 64 (beNat ((block.drop (8 * i)).take 8)))
  let t := (List.zipWith (fun k w => k + w) shaK (shaExtend 64 first.reverse).reverse).foldl shaRound s
  { a := s.a + t.a, b := s.b + t.b, c := s.c + t.c, d := s.d + t.d, e := s.e + t.e, f := s.f + t.f, g := s.g + t.g, h := s.h + t.h }

/-- SHA-384: 48 bytes. -/
def sha384 (m : Bytes) : Bytes :=
  let zeros := (239 - m.length % 128) % 128
  let p := m ++ 0x80 :: List.replicate zeros 0 ++ beBytes 16 (8 * m.length)
  let s := ((List.range (p.length / 128)).map (fun i => (p.drop (128 * i)).take 128)).foldl shaBlock shaInit
  [s.a, s.b, s.c, s.d, s.e, s.f].flatMap (fun w => beBytes 8 w.toNat)

/-! ## ECDSA over P-384 (FIPS 186-5, SP 800-186) -/

/-- The field prime, the coefficient b of y² = x³ - 3x + b, the order n of the base point, and the base point. -/
def ecP : Nat := 2 ^ 384 - 2 ^ 128 - 2 ^ 96 + 2 ^ 32 - 1
def ecB : Nat := 0xB3312FA7E23EE7E4988E056BE3F82D19181D9C6EFE8141120314088F5013875AC656398D8A2ED19D2A85C8EDD3EC2AEF
def ecN : Nat := 0xFFFFFFFFFFFFFFFFFFFFFFFFFFFFFFFFFFFFFFFFFFFFFFFFC7634D81F4372DDF581A0DB248B0A77AECEC196ACCC52973
def ecGx : Nat := 0xAA87CA22BE8B05378EB1C71EF320AD746E1D3B628BA79B9859F741E082542A385502F25DBF55296C3A545E3872760AB7
def ecGy : Nat := 0x3617DE4A96262C6F5D9E98BF9292DC29F8F41DBD289A147CE9DA3113B5F0B8C00A60B1CE1D7E819D7A431D7C90EA0E5F

/-- The difference modulo `m` of two numbers below `m`. -/
def subMod (m a b : Nat) : Nat := (a + m - b) % m

/-- `a` to the power `e` modulo `m`, for e below 2^384. -/
def powMod (m a e : Nat) : Nat :=
  (List.range 384).foldl (fun acc i => let x := acc * acc % m; if bit e (383 - i) then x * a % m else x) 1

/-- A point in Jacobian coordinates, (X/Z², Y/Z³); Z is 0 at infinity. -/
structure EcPoint where
  x : Nat
  y : Nat
  z : Nat
deriving DecidableEq, Repr

def EcPoint.double (q : EcPoint) : EcPoint :=
  let p := ecP
  let zz := q.z * q.z % p
  let yy := q.y * q.y % p
  let s := 4 * q.x * yy % p
  let m := 3 * (subMod p q.x zz) * (q.x + zz) % p
  let x := subMod p (m * m % p) (2 * s % p)
  { x := x, y := subMod p (m * subMod p s x % p) (8 * yy * yy % p), z := 2 * q.y * q.z % p }

def EcPoint.add (q r : EcPoint) : EcPoint :=
  let p := ecP
  if q.z = 0 then r
  else if r.z = 0 then q
  else
    let zq := q.z * q.z % p
    let zr := r.z * r.z % p
    let u := q.x * zr % p
    let v := q.y * (r.z * zr % p) % p
    let h := subMod p (r.x * zq % p) u
    let d := subMod p (r.y * (q.z * zq % p) % p) v
    if h = 0 then (if d = 0 then q.double else { x := 1, y := 1, z := 0 })
    else
      let hh := h * h % p
      let w := u * hh % p
      let x := subMod p (subMod p (d * d % p) (h * hh % p)) (2 * w % p)
      { x := x, y := subMod p (d * subMod p w x % p) (v * (h * hh % p) % p), z := h * (q.z * r.z % p) % p }

/-- u₁G + u₂Q, both factors below 2^384. -/
def ecSum (u1 u2 : Nat) (q : EcPoint) : EcPoint :=
  let g : EcPoint := { x := ecGx, y := ecGy, z := 1 }
  (List.range 384).foldl (fun acc i =>
    let a := acc.double
    let a := if bit u1 (383 - i) then a.add g else a
    if bit u2 (383 - i) then a.add q else a) { x := 1, y := 1, z := 0 }

/-- R137: the public key is a point of the curve with coordinates below the prime, r and s lie from 1 to n - 1, and the
signature holds over SHA-384 of the message. -/
def ecdsaP384 (xb yb rb sb msg : Bytes) : Bool :=
  let x := beNat xb
  let y := beNat yb
  let r := beNat rb
  let s := beNat sb
  if decide (x < ecP) && decide (y < ecP) && decide (y * y % ecP = subMod ecP ((x * x % ecP * x + ecB) % ecP) (3 * x % ecP))
      && decide (1 ≤ r) && decide (r < ecN) && decide (1 ≤ s) && decide (s < ecN) then
    let w := powMod ecN s (ecN - 2)
    let t := ecSum (beNat (sha384 msg) * w % ecN) (r * w % ecN) { x := x, y := y, z := 1 }
    let zi := powMod ecP t.z (ecP - 2)
    decide (t.z ≠ 0) && decide (t.x * (zi * zi % ecP) % ecP % ecN = r)
  else false

/-! ## AES-256 (FIPS 197) -/

/-- A byte times x in the field of AES. -/
def aesTwice (a : Nat) : Nat := if 128 ≤ a then (2 * a) ^^^ 0x11B else 2 * a

/-- The product of two bytes in the field of AES. -/
def aesMul (a b : Nat) : Nat :=
  ((List.range 8).foldl (fun x i => (if bit b i then x.1 ^^^ x.2 else x.1, aesTwice x.2)) (0, a)).1

/-- A byte rotated left. -/
def rotByte (a n : Nat) : Nat := a * 2 ^ n % 256 + a / 2 ^ (8 - n)

/-- The S-box: the inverse, which is the 254th power, then the affine map. -/
def aesBox (a : Nat) : Nat :=
  let x := (List.range 7).foldl (fun p _ => aesMul (aesMul p p) a) 1
  let i := aesMul x x
  i ^^^ rotByte i 1 ^^^ rotByte i 2 ^^^ rotByte i 3 ^^^ rotByte i 4 ^^^ 0x63

/-- `n` more words of the key schedule, each four bytes; `w` holds those so far, newest first. -/
def aesExpand : Nat → Nat → Nat → List (List Nat) → List (List Nat)
  | 0, _, _, w => w
  | n + 1, i, rcon, w =>
    let t := w.headD []
    let t :=
      if i % 8 = 0 then (List.zipWith (· ^^^ ·) ((t.drop 1 ++ t.take 1).map aesBox) [rcon, 0, 0, 0])
      else if i % 8 = 4 then t.map aesBox
      else t
    aesExpand n (i + 1) (if i % 8 = 0 then aesTwice rcon else rcon) (List.zipWith (· ^^^ ·) (w.getD 7 []) t :: w)

/-- The fifteen round keys of an AES-256 key, sixteen bytes each. -/
def aesKeys (key : BitVec 256) : List (List Nat) :=
  let bytes := (beBytes 32 key.toNat).map BitVec.toNat
  let first := (List.range 8).map (fun i => (bytes.drop (4 * i)).take 4)
  let words := (aesExpand 52 8 1 first.reverse).reverse
  (List.range 15).map (fun r => ((words.drop (4 * r)).take 4).flatten)

/-- SubBytes and ShiftRows of a block, by columns. -/
def aesShift (b : List Nat) : List Nat := (List.range 16).map (fun i => aesBox (b.getD ((i + 4 * (i % 4)) % 16) 0))

/-- MixColumns. -/
def aesMix (b : List Nat) : List Nat :=
  (List.range 16).map (fun i =>
    let at_ (k : Nat) : Nat := b.getD (i / 4 * 4 + (i + k) % 4) 0
    aesMul 2 (at_ 0) ^^^ aesMul 3 (at_ 1) ^^^ at_ 2 ^^^ at_ 3)

/-- One block under AES-256. -/
def aes256 (key : BitVec 256) (block : BitVec 128) : BitVec 128 :=
  let ks := aesKeys key
  let mix (a b : List Nat) : List Nat := List.zipWith (· ^^^ ·) a b
  let b := mix ((beBytes 16 block.toNat).map BitVec.toNat) (ks.headD [])
  let b := ((ks.drop 1).take 13).foldl (fun b k => mix (aesMix (aesShift b)) k) b
  let b := mix (aesShift b) (ks.getD 14 [])
  BitVec.ofNat 128 (b.foldl (fun a x => 256 * a + x) 0)

/-! ## CTR_DRBG (SP 800-90A, section 10.2) -/

/-- `n` blocks of the generator, as one number, and V after them. -/
def drbgBlocks (key : BitVec 256) : Nat → Nat × BitVec 128 → Nat × BitVec 128
  | 0, x => x
  | n + 1, (acc, v) => drbgBlocks key n (2 ^ 128 * acc + (aes256 key (v + 1)).toNat, v + 1)

/-- CTR_DRBG_Update with 384 bits. -/
def Drbg.update (d : Drbg) (input : BitVec 384) : Drbg :=
  let x := BitVec.ofNat 384 (drbgBlocks d.key 3 (0, d.v)).1 ^^^ input
  { d with key := (x >>> 128).setWidth 256, v := x.setWidth 128 }

/-- A reseed, without a derivation function (DESIGN CHOICE, notes/assumptions/85.md). -/
def Drbg.reseed (d : Drbg) (entropy : BitVec 384) : Drbg := { d.update entropy with count := 1 }

/-- A request of 512 bits: one region's key pair. -/
def Drbg.generate (d : Drbg) : BitVec 512 × Drbg :=
  let (x, v) := drbgBlocks d.key 4 (0, d.v)
  (BitVec.ofNat 512 x, { ({ d with v := v } : Drbg).update 0 with count := d.count + 1 })

end Sys2Proof.Machine
end

