-- ==== Sys2Proof/Machine/Images.lean ====
section
/-!
DEFINITION. Images as bytes (ch. 05): the header, the record walk of stage 1 (R129-R135, R153), the payloads of the records
(R138, R141, R176), stage 2 (R136, R137), and the frame and partition image that the records describe.
-/
namespace Sys2Proof.Machine

/-- A record of an image: its offset, TYPE, LEN and payload with padding. -/
structure Rec where
  off : Nat
  type : Nat
  len : Nat
  payload : Bytes
deriving DecidableEq, Repr

/-- A field of a record's payload. -/
def Rec.f (r : Rec) (a n : Nat) : Nat := field r.payload a n

/-- Why a stage refuses an image: the reason of R165, IMG_OFFSET of R620, and what the ADM_ registers show (R194). -/
structure Refused where
  reason : Nat
  off : Nat
  check : Nat := 0
  rkind : Nat := 0
  res : Nat := 0
  graph : Nat := 0
  value : Nat := 0
  limit : Nat := 0
deriving DecidableEq, Repr

/-- The first of two outcomes that refuses. -/
def orElse (a b : Option Refused) : Option Refused := if a.isSome then a else b

/-- The first element of a list that is refused. -/
def firstRefused {α : Type} (f : α → Option Refused) : List α → Option Refused
  | [] => none
  | x :: l => if (f x).isSome then f x else firstRefused f l

/-! ## The cost vector (R176) -/

/-- The terms of a phase, and what follows them; none where the vector runs past LEN. -/
def takeTerms : Nat → Bytes → Option (List Term × Bytes)
  | 0, b => some ([], b)
  | n + 1, b =>
    if b.length < 16 then none
    else (takeTerms n (b.drop 16)).map (fun x =>
      ({ kind := field b 0 1, id := field b 2 2, amount := field b 8 8 } :: x.1, x.2))

/-- The phases of a vector, and what follows them. -/
def takePhases : Nat → Bytes → Option (List (List Term) × Bytes)
  | 0, b => some ([], b)
  | n + 1, b =>
    if b.length < 8 then none
    else
      match takeTerms (field b 0 2) (b.drop 8) with
      | none => none
      | some (ts, b') => (takePhases n b').map (fun x => (ts :: x.1, x.2))

/-- The reserved bytes of `n` terms are 0, as far as LEN goes; and what follows them. -/
def termsClear : Nat → Bytes → Bool × Bytes
  | 0, b => (true, b)
  | n + 1, b =>
    if b.length < 16 then (true, [])
    else
      let (ok, b') := termsClear n (b.drop 16)
      (decide (field b 1 1 = 0) && decide (field b 4 4 = 0) && ok, b')

/-- The reserved bytes of the phases and the padding after them are 0. -/
def phasesClear : Nat → Bytes → Bool
  | 0, b => b.all (fun x => decide (x = 0))
  | n + 1, b =>
    if b.length < 8 then true
    else
      let (ok, b') := termsClear (field b 0 2) (b.drop 8)
      decide (field b 2 6 = 0) && ok && phasesClear n b'

/-! ## Payloads (R134, R135, R138, R141) -/

/-- Types of frame records, of partition records. -/
def frameTypes : List Nat := [0x100, 0x110, 0x112, 0x113, 0x114, 0x120]
def partTypes : List Nat := [0x200, 0x210, 0x220, 0x230, 0x240, 0x241, 0x242, 0x250, 0x251, 0x260, 0x270]

/-- The bytes of a payload up to the end of its last field (R134); none for an unknown advisory record. A cost vector whose
phases or terms run past the record needs more than it has. -/
def Rec.need (r : Rec) : Option Nat :=
  match r.type with
  | 0x100 => some 4
  | 0x110 => some 28
  | 0x112 => some 12
  | 0x113 => some 4
  | 0x114 => some 28
  | 0x120 => some 4
  | 0x200 => some 4
  | 0x210 => some (16 + 2 * r.f 10 2)
  | 0x220 => some (4 + 32 * r.f 2 2)
  | 0x230 => some 4132
  | 0x240 => some (8 + 8 * r.f 6 2)
  | 0x241 => some (12 + 8 * r.f 4 4)
  | 0x242 => some (4 + 2 * r.f 2 2)
  | 0x250 => some 16
  | 0x251 =>
    if r.payload.length < 8 then some 8
    else
      match takePhases (r.f 2 2) (r.payload.drop 8) with
      | some x => some (r.payload.length - x.2.length)
      | none => some (r.payload.length + 8)
  | 0x260 => some (4 + 4 * r.f 2 2)
  | 0x270 => some (16 + 2 * r.f 4 2)
  | 0xFFFF => some 196
  | _ => none

/-- LEN is the smallest that holds the payload (R134). -/
def Rec.fits (r : Rec) : Bool :=
  match r.need with
  | some n => decide (r.len = (4 + n + 7) / 8)
  | none => true

/-- The reserved ranges of a payload, as offset and size. -/
def reservedOf : Nat → List (Nat × Nat)
  | 0x100 => [(1, 3)]
  | 0x110 => [(1, 1), (22, 6)]
  | 0x113 => [(3, 1)]
  | 0x114 => [(20, 8)]
  | 0x120 => [(1, 1)]
  | 0x200 => [(2, 2)]
  | 0x230 => [(3, 1)]
  | 0x240 => [(3, 1)]
  | 0x241 => [(8, 4)]
  | 0x250 => [(2, 2), (12, 4)]
  | 0x270 => [(12, 4)]
  | 0xFFFF => [(0, 4)]
  | _ => []

/-- The reserved bits of descriptor `i` of a STREAM_DEF (R374): word 0 [53:48], word 1 [41:40], word 3 [63]. -/
def Rec.descClear (r : Rec) (i : Nat) : Bool :=
  let w := fun k => r.f (4 + 32 * i + 8 * k) 8
  decide (bits (w 0) 53 48 = 0) && decide (bits (w 1) 41 40 = 0) && !bit (w 3) 63

/-- Reserved fields and padding are 0 (R128). -/
def Rec.clear (r : Rec) : Bool :=
  (reservedOf r.type).all (fun x => decide (r.f x.1 x.2 = 0))
    && (decide (r.type ≠ 0x220) || (List.range (r.f 2 2)).all r.descClear)
    && (if r.type = 0x251 then phasesClear (r.f 2 2) (r.payload.drop 8)
        else (r.payload.drop (r.need.getD r.payload.length)).all (fun x => decide (x = 0)))

/-! ## Stage 1 (R153) -/

/-- One record of the walk at `off`, the `last` one by RECORDS or not (R132-R135). -/
def walkOne (types : List Nat) (img : Bytes) (total off : Nat) (last : Bool) : Rec ⊕ Refused :=
  let len := field img (off + 2) 2
  let fin := off + 8 * len
  let r : Rec := { off := off, type := field img off 2, len := len, payload := (img.drop (off + 4)).take (8 * len - 4) }
  if len = 0 ∨ total < fin then .inr { reason := 4, off := off }
  else if r.type = 0 ∨ (r.type < 0x8000 ∧ !types.contains r.type) then .inr { reason := 5, off := off }
  else if r.type = 0xFFFF ∧ r.len ≠ 25 then .inr { reason := 4, off := off }
  else if r.type = 0xFFFF ∧ !last ∧ fin < total then .inr { reason := 6, off := off }
  else if !r.fits then .inr { reason := 4, off := off }
  else .inl r

/-- The record walk (R132, R620): `n` records from `off`, the last walked at `prev`. -/
def walkRecords (types : List Nat) (img : Bytes) (total : Nat) : Nat → Nat → Option Rec → List Rec ⊕ Refused
  | 0, off, prev =>
    if off ≠ total then .inr { reason := 2, off := off }
    else
      match prev with
      | some r => if r.type = 0xFFFF then .inl [] else .inr { reason := 6, off := r.off }
      | none => .inl []
  | n + 1, off, _ =>
    if total ≤ off then .inr { reason := 2, off := total }
    else
      match walkOne types img total off (decide (n = 0)) with
      | .inr e => .inr e
      | .inl r =>
        match walkRecords types img total n (off + 8 * r.len) (some r) with
        | .inr e => .inr e
        | .inl l => .inl (r :: l)

/-- Stage 1 over the staged bytes (R153): `frame` or partition `part`, of length `len`. -/
def stage1 (stage : Staging) (frame : Bool) (part len : Nat) : (Bytes × List Rec) ⊕ Refused :=
  if frame ∧ 0x1000000 < len then .inr { reason := 9, off := 0xFFFFFFFF }
  else
    match (List.range ((len + 65535) / 65536)).find? (fun c => !stage.chunks.contains c) with
    | some c => .inr { reason := 3, off := 65536 * c }
    | none =>
      let img := Memory.readN stage.bytes 0 len
      if field img 0 4 ≠ 0x49535256 then .inr { reason := 1, off := 0 }
      else if field img 4 2 ≠ 1 ∨ field img 6 1 ≠ (if frame then 1 else 2) ∨ field img 7 1 ≠ (if frame then 0 else part)
          ∨ field img 8 4 ≠ len ∨ len % 8 ≠ 0 ∨ field img 12 4 = 0 then .inr { reason := 2, off := 0 }
      else
        match walkRecords (if frame then frameTypes else partTypes) img len (field img 12 4) 64 none with
        | .inr e => .inr e
        | .inl rs => .inl (img, rs)

/-! ## Stage 2 (R136, R137) -/

/-- The signature record's key and values, and the signed bytes. -/
def stage2 (digest : Option Bytes) (img : Bytes) (rs : List Rec) : Option Refused :=
  match rs.getLast? with
  | none => none
  | some r =>
    let p := fun a => (r.payload.drop a).take 48
    if digest ≠ some (sha384 (0x04 :: (p 4 ++ p 52))) then some { reason := 7, off := r.off }
    else if !ecdsaP384 (p 4) (p 52) (p 100) (p 148) (img.take r.off) then some { reason := 8, off := r.off }
    else none

/-! ## What the records describe -/

/-- The records of a type. -/
def recsOf (type : Nat) (rs : List Rec) : List Rec := rs.filter (fun r => decide (r.type = type))

/-- `n` values of `w` bytes from offset `a` of the payload. -/
def Rec.list (r : Rec) (a w n : Nat) : List Nat := (List.range n).map (fun i => r.f (a + w * i) w)

def Rec.toPart (r : Rec) : PartRec :=
  { off := r.off, part := r.f 0 1, floor := r.f 2 2, ringBase := r.f 4 4, ringCount := r.f 8 4,
    groups := BitVec.ofNat 64 (r.f 12 8), lamps := BitVec.ofNat 16 (r.f 20 2) }

def Rec.toRegion (r : Rec) : RegionRec :=
  { off := r.off, index := r.f 0 1, part := r.f 1 1, mode := r.f 2 1, farCached := bit (r.f 3 1) 0,
    target := BitVec.ofNat 16 (r.f 4 2), baseRow := r.f 6 2, size := r.f 8 4 }

def Rec.toPort (r : Rec) : PortRec := { off := r.off, port := r.f 0 1, part := r.f 1 1, share := r.f 2 1 }

def Rec.toPool (r : Rec) : PoolRec :=
  { off := r.off, pool := r.f 0 2, part := r.f 2 1, region := r.f 3 1, bufSize := r.f 4 4, bufCount := r.f 8 4,
    offset := r.f 12 8 }

def Rec.toFabric (r : Rec) : FabricRec := { off := r.off, policy := r.f 0 1, address := r.f 2 2 }

/-- The frame image of a walk. -/
def toFrame (img : Bytes) (rs : List Rec) : Frame :=
  { id := field img 0x10 4, capVer := field img 0x18 4, capFeat := field img 0x1C 4,
    variants := (recsOf 0x100 rs).map (fun r => (r.off, r.f 0 1)),
    parts := (recsOf 0x110 rs).map Rec.toPart, regions := (recsOf 0x112 rs).map Rec.toRegion,
    ports := (recsOf 0x113 rs).map Rec.toPort, pools := (recsOf 0x114 rs).map Rec.toPool,
    fabric := (recsOf 0x120 rs).map Rec.toFabric }

def Rec.toChan (r : Rec) : ChanRec :=
  { off := r.off, chan := r.f 0 2, kind := r.f 2 1, credits := r.f 3 1, src := BitVec.ofNat 16 (r.f 4 2),
    dst := BitVec.ofNat 16 (r.f 6 2), dstMember := r.f 8 2, bw := r.f 12 4,
    hops := (r.list 16 2 (r.f 10 2)).map (BitVec.ofNat 16) }

def Rec.toStream (r : Rec) : StreamDef :=
  { off := r.off, core := r.f 0 2,
    descs := (List.range (r.f 2 2)).map (fun i => (r.list (4 + 32 * i) 8 4).map (BitVec.ofNat 64)) }

def Rec.toTable (r : Rec) : SfuTabRec :=
  { off := r.off, core := r.f 0 2, table := r.f 2 1, body := (r.payload.drop 4).take 4128 }

def Rec.toGraph (r : Rec) : GraphRec :=
  { off := r.off, graph := r.f 0 2, prio := r.f 2 1, cores := r.f 4 2,
    defaults := (r.list 8 8 (r.f 6 2)).map (BitVec.ofNat 64) }

def Rec.toProg (r : Rec) : ProgRec :=
  { off := r.off, graph := r.f 0 2, core := r.f 2 2, words := (r.list 12 8 (r.f 4 4)).map (BitVec.ofNat 64) }

def Rec.toBind (r : Rec) : BindRec := { off := r.off, graph := r.f 0 2, chans := r.list 4 2 (r.f 2 2) }

def Rec.toDead (r : Rec) : DeadRec := { off := r.off, graph := r.f 0 2, deadline := r.f 4 4, period := r.f 8 4 }

def Rec.toCost (r : Rec) : CostRec :=
  let ph := takePhases (r.f 2 2) (r.payload.drop 8)
  { off := r.off, graph := r.f 0 2, energy := r.f 4 4, phases := (ph.map Prod.fst).getD [], ok := ph.isSome }

def Rec.toCounters (r : Rec) : CountersRec :=
  { off := r.off, core := r.f 0 2, sels := (r.list 4 4 (r.f 2 2)).map (BitVec.ofNat 32) }

/-- SPAN; DIGEST covers the payload with SELF taken as 0 (R490). -/
def Rec.toSpan (r : Rec) : SpanRec :=
  { off := r.off, spanId := r.f 0 4, self := r.f 6 2, margin := r.f 8 4, members := r.list 16 2 (r.f 4 2),
    digest := crc32c (r.payload.take 6 ++ [0, 0] ++ (r.payload.drop 8).take (8 + 2 * r.f 4 2)) }

/-- The partition image of a walk. -/
def toPartImage (img : Bytes) (rs : List Rec) : PartImage :=
  { id := field img 0x10 4, capVer := field img 0x18 4, capFeat := field img 0x1C 4,
    info := (recsOf 0x200 rs).map (fun r => (r.off, r.f 0 1, BitVec.ofNat 8 (r.f 1 1))),
    chans := (recsOf 0x210 rs).map Rec.toChan, streams := (recsOf 0x220 rs).map Rec.toStream,
    tables := (recsOf 0x230 rs).map Rec.toTable, graphs := (recsOf 0x240 rs).map Rec.toGraph,
    progs := (recsOf 0x241 rs).map Rec.toProg, binds := (recsOf 0x242 rs).map Rec.toBind,
    deads := (recsOf 0x250 rs).map Rec.toDead, costs := (recsOf 0x251 rs).map Rec.toCost,
    counters := (recsOf 0x260 rs).map Rec.toCounters, spans := (recsOf 0x270 rs).map Rec.toSpan }

end Sys2Proof.Machine
end

