-- ==== Sys2Proof/Machine/ImageChecks.lean ====
section
/-!
DEFINITION. Routes of channels (R267-R269), and stages 3 and 4 of a commit: structure (R128, R138-R143, R229, R257, R262,
R264, R339, R372, R451, R488, R578, R598) and state with capability (R110, R111, R144, R155, R163). A stage refuses at the
first failure in record order; the order of the checks on one record is the model's (DEDUCED, notes/assumptions/28.md).
-/
namespace Sys2Proof.Machine

/-- Refuses with a reason at an offset unless `ok`. -/
def judge (ok : Bool) (reason off : Nat) : Option Refused := if ok then none else some { reason := reason, off := off }

/-- The first refusal of a list. -/
def firstOf (l : List (Option Refused)) : Option Refused := l.findSome? id

def BAD_VALUE : Nat := 0x10
def ZERO_FIELD : Nat := 0x11
def DUPLICATE : Nat := 0x12
def MISSING : Nat := 0x13
def OVERLAP : Nat := 0x14
def OVERSUBSCRIBED : Nat := 0x15
def FLOOR_SUM : Nat := 0x16
def DANGLING : Nat := 0x17

/-! ## Routes (R267-R269) -/

/-- What a route does at each of its steps: it begins in a group or comes down into it from a bridge, enters a group over a
boundary of the mesh (R199), crosses a mesh link (named by its western or southern core,
its axis 0 east-west or 1 north-south, and whether it runs east or north), crosses a bridge direction of R621, or passes
a fabric port, out or in. -/
inductive Leg where
  | group (tower g : Nat)
  | enter (tower g : Nat)
  | link (core axis : Nat) (rising : Bool)
  | bridge (b : Nat)
  | port (out : Bool) (p : Nat)
deriving DecidableEq, Repr

/-- Where a route stands: on a core's mesh node, at a tower's bridge interface after so many legs, in the hub, or out. -/
inductive Spot where
  | mesh (tower row col : Nat)
  | bridge (tower legs : Nat)
  | hub
  | out
deriving DecidableEq, Repr

def coreNum (t r c : Nat) : Nat := 256 * t + 16 * r + c
def groupAt (r c : Nat) : Nat := 4 * (r / 4) + c / 4

/-- `n` mesh links in direction `d` (0 east, 1 west, 2 north, 3 south); none where the route runs off the mesh. -/
def meshRun (d t : Nat) : Nat → Nat → Nat → Option (Nat × Nat × List Leg)
  | 0, r, c => some (r, c, [])
  | n + 1, r, c =>
    let off : Bool := if d = 0 then decide (15 ≤ c) else if d = 1 then decide (c = 0) else if d = 2 then decide (15 ≤ r) else decide (r = 0)
    if off then none
    else
      let r' := if d = 2 then r + 1 else if d = 3 then r - 1 else r
      let c' := if d = 0 then c + 1 else if d = 1 then c - 1 else c
      let link := Leg.link (coreNum t (min r r') (min c c')) (d / 2) (decide (d % 2 = 0))
      let enter := if groupAt r c = groupAt r' c' then [] else [Leg.enter t (groupAt r' c')]
      (meshRun d t n r' c').map (fun x => (x.1, x.2.1, link :: (enter ++ x.2.2)))

/-- One hop word from a place (`up` tells whether the route has gone up, `packet` whether the channel is one); none where
R267 or R268 forbids it. -/
def hop (packet first : Bool) (w : Nat) : Spot × Bool → Option ((Spot × Bool) × List Leg)
  | (at_, up) =>
    let k := bits w 15 13
    match at_ with
    | .out => none
    | .mesh t r c =>
      if k < 4 then
        if bits w 12 5 = 0 ∧ 1 ≤ bits w 4 0 ∧ bits w 4 0 ≤ 15 then
          (meshRun k t (bits w 4 0) r c).map (fun x => ((.mesh t x.1 x.2.1, up), x.2.2))
        else none
      else if k = 4 ∧ bits w 12 0 = 0 ∧ !up then some ((.bridge t 0, true), [])
      else none
    | .bridge t legs =>
      if k = 5 ∧ bits w 12 1 = 0 then
        let t' := if bit w 0 then (t + 3) % 4 else (t + 1) % 4
        some ((.bridge t' (legs + 1), up), [.bridge (if bit w 0 then 9 + 2 * t' else 8 + 2 * t)])
      else if k = 6 ∧ !bit w 12 ∧ bits w 11 2 = 0 then
        some ((.bridge (bits w 1 0) (legs + 1), up), [.bridge (2 * t), .bridge (2 * bits w 1 0 + 1)])
      else if k = 6 ∧ bit w 12 ∧ !bit w 11 ∧ bits w 10 5 = 0 ∧ (bits w 4 0 < 18 ∨ (bits w 4 0 = 31 ∧ packet)) then
        some ((.out, up), [.bridge (2 * t), .port true (bits w 4 0)])
      else if k = 7 ∧ bits w 12 4 = 0 ∧ 0 < legs then
        let g := bits w 3 0
        some ((.mesh t (4 * (g / 4)) (4 * (g % 4)), true), [.group t g])
      else none
    | .hub =>
      if first ∧ k = 6 ∧ bit w 12 ∧ bit w 11 ∧ bits w 10 5 = 0 ∧ (bits w 4 0 < 18 ∨ (bits w 4 0 = 31 ∧ packet)) then
        some ((.hub, up), [.port false (bits w 4 0)])
      else if !first ∧ k = 6 ∧ !bit w 12 ∧ bits w 11 2 = 0 then
        some ((.bridge (bits w 1 0) 1, true), [.bridge (2 * bits w 1 0 + 1)])
      else none

/-- The hops of a route from a place. -/
def routeHops (packet : Bool) : Bool → List Nat → Spot × Bool → Option (Spot × List Leg)
  | _, [], x => some (x.1, [])
  | first, w :: l, x =>
    match hop packet first w x with
    | none => none
    | some (y, legs) => (routeHops packet false l y).map (fun z => (z.1, legs ++ z.2))

/-- The route comes in from the fabric (R269). -/
def ChanRec.inbound (r : ChanRec) : Bool := r.hops.head?.any (fun h => decide (bits h.toNat 15 11 = 0b11011))

/-- The channel leaves the device (R269). -/
def ChanRec.outbound (r : ChanRec) : Bool := decide (r.dstMember ≠ 0xFFFF)

/-- What a channel's route passes; none where R268 or R269 refuses its form, among them a route that comes in from the fabric
for a channel whose DST_MEMBER is not 0xFFFF. -/
def ChanRec.route (r : ChanRec) : Option (List Leg) :=
  if r.inbound && r.outbound then none else
  let s := endCore r.src
  let d := endCore r.dst
  let t := coreTower s
  let start := Leg.group t (coreGroup s)
  if r.hops = [] then
    if t ≠ coreTower d ∨ coreGroup s ≠ coreGroup d ∨ r.outbound then none
    else
      let (cs, cd, rs, rd) := (coreCol s, coreCol d, coreRow s, coreRow d)
      match meshRun (if cs ≤ cd then 0 else 1) t (max cs cd - min cs cd) rs cs with
      | none => none
      | some (_, _, a) =>
        (meshRun (if rs ≤ rd then 2 else 3) t (max rs rd - min rs rd) rs cd).map (fun x => start :: (a ++ x.2.2))
  else
    let from0 : Spot := if r.inbound then .hub else .mesh t (coreRow s) (coreCol s)
    match routeHops (decide (r.kind = 1)) true (r.hops.map BitVec.toNat) (from0, false) with
    | none => none
    | some (stop, legs) =>
      let legs := if r.inbound then legs else start :: legs
      if r.outbound then (if stop = .out then some legs else none)
      else if stop = .mesh (coreTower d) (coreRow d) (coreCol d) then some legs
      else none

/-- The endpoints a CHANNEL record names on this device, as 64 × core + endpoint (R262). -/
def ChanRec.ends (r : ChanRec) : List Nat :=
  (if r.inbound then [] else [64 * endCore r.src + endEp r.src])
    ++ (if r.outbound then [] else [64 * endCore r.dst + endEp r.dst])

/-! ## Stage 3: frame images (R138-R140, R451, R598) -/

/-- The header's reserved bytes and IMAGE_ID (R128, R129, R142). -/
def headerCheck (img : Bytes) : Option Refused :=
  firstOf [
    judge (decide (field img 0x20 32 = 0) && decide (field img 0x18 4 < 256) && decide (field img 0x1C 4 < 128)) BAD_VALUE 0,
    judge (decide (field img 0x10 4 ≠ 0)) ZERO_FIELD 0]

/-- Two runs of numbers meet. -/
def runsMeet (a n b m : Nat) : Bool := decide (0 < n) && decide (0 < m) && decide (a < b + m) && decide (b < a + n)

/-- Two PARTITION records share a core group, a lamp or a ring (R140). -/
def PartRec.meets (p q : PartRec) : Bool :=
  decide (p.groups &&& q.groups ≠ 0) || decide (p.lamps &&& q.lamps ≠ 0)
    || runsMeet p.ringBase p.ringCount q.ringBase q.ringCount

/-- Two regions share a cell (R139, R140). -/
def RegionRec.meets (a b : RegionRec) : Bool :=
  runsMeet a.baseRow a.rows b.baseRow b.rows
    && (List.range 512).any (fun i => a.covers (i / 64) (i % 64) && b.covers (i / 64) (i % 64))

/-- The largest floor sum of the variant, 75 % of the default limit (R140). -/
def floorMax (dk36 : Bool) : Nat := if dk36 then 712 else 900

/-- The TARGET bits and the unit of SIZE of a MODE (R139). -/
def targetMask (mode : Nat) : Nat := if mode = 0 then 0 else if mode = 1 then 3 else if mode = 2 then 7 else 0x3F07
def sizeStep (mode : Nat) : Nat := if mode = 0 then 8 else if mode = 1 then 2 else 1

def checkVariant (dk36 : Bool) (r : Rec) (dup : Bool) : Option Refused :=
  let v := r.f 0 1
  firstOf [
    judge (decide (v = 0) || decide (v = (if dk36 then 0x36 else 0x48))) BAD_VALUE r.off,
    judge (!dup) DUPLICATE r.off]

def checkPartRec (dk36 : Bool) (f : Frame) (p : PartRec) : Option Refused :=
  let before := f.parts.filter (fun q => decide (q.off < p.off))
  firstOf [
    judge (decide (p.part ≤ 31) && decide (p.lamps.toNat < 2 ^ 11)
      && (if p.ringCount = 0 then decide (p.ringBase = 0) else decide (p.ringBase + p.ringCount ≤ 65536))) BAD_VALUE p.off,
    judge (decide (p.groups ≠ 0)) ZERO_FIELD p.off,
    judge (before.all (fun q => decide (q.part ≠ p.part))) DUPLICATE p.off,
    judge (before.all (fun q => !p.meets q)) OVERLAP p.off,
    judge (decide (p.floor + (before.map PartRec.floor).sum ≤ floorMax dk36)) FLOOR_SUM p.off]

def checkRegion (f : Frame) (attr : Nat) (r : RegionRec) : Option Refused :=
  let before := f.regions.filter (fun q => decide (q.off < r.off))
  firstOf [
    judge (decide (r.index ≤ 63) && decide (r.part ≤ 31) && decide (r.mode ≤ 3) && decide (attr < 2)
      && decide (r.target.toNat &&& targetMask r.mode = r.target.toNat)) BAD_VALUE r.off,
    judge (decide (r.size ≠ 0)) ZERO_FIELD r.off,
    judge (decide (r.size % sizeStep r.mode = 0)) BAD_VALUE r.off,
    judge (before.all (fun q => decide (q.index ≠ r.index))) DUPLICATE r.off,
    judge (f.parts.any (fun p => decide (p.part = r.part))) DANGLING r.off,
    judge (before.all (fun q => !r.meets q)) OVERLAP r.off]

def checkPort (f : Frame) (p : PortRec) : Option Refused :=
  let upTo := f.ports.filter (fun q => decide (q.off ≤ p.off) && decide (q.port = p.port))
  firstOf [
    judge (decide (p.port ≤ 17) && decide (p.part ≤ 31)) BAD_VALUE p.off,
    judge (decide (p.share ≠ 0)) ZERO_FIELD p.off,
    judge (f.parts.any (fun q => decide (q.part = p.part))) DANGLING p.off,
    judge (decide ((upTo.map PortRec.share).sum ≤ 64)) OVERSUBSCRIBED p.off]

def checkPool (f : Frame) (p : PoolRec) : Option Refused :=
  let region := f.regions.find? (fun r => decide (r.index = p.region) && decide (r.part = p.part))
  firstOf [
    judge (decide (p.pool ≤ 1023) && decide (p.part ≤ 31) && decide (p.region ≤ 63) && decide (p.bufSize % 256 = 0)
      && decide (p.bufCount ≤ 1048576)) BAD_VALUE p.off,
    judge (decide (p.bufSize ≠ 0) && decide (p.bufCount ≠ 0)) ZERO_FIELD p.off,
    judge (f.pools.all (fun q => !(decide (q.off < p.off) && decide (q.pool = p.pool)))) DUPLICATE p.off,
    judge (f.parts.any (fun q => decide (q.part = p.part)) && region.isSome) DANGLING p.off,
    judge (region.all (fun r => decide (p.offset + p.bufSize * p.bufCount ≤ r.bytes))) BAD_VALUE p.off]

def checkFabricRec (f : Frame) (r : FabricRec) : Option Refused :=
  firstOf [
    judge ((decide (r.policy = 0) && decide (r.address = 0))
      || (decide (r.policy = 1) && decide (r.address ≠ 0) && decide (r.address ≠ 0xFFFF))) BAD_VALUE r.off,
    judge (f.fabric.all (fun q => decide (r.off ≤ q.off))) DUPLICATE r.off]

/-- The checks of one record of a frame image. -/
def checkFrameRec (dk36 : Bool) (f : Frame) (r : Rec) : Option Refused :=
  orElse (judge r.clear BAD_VALUE r.off)
    (match r.type with
     | 0x100 => checkVariant dk36 r (f.variants.any (fun v => decide (v.1 < r.off)))
     | 0x110 => checkPartRec dk36 f r.toPart
     | 0x112 => checkRegion f (r.f 3 1) r.toRegion
     | 0x113 => checkPort f r.toPort
     | 0x114 => checkPool f r.toPool
     | 0x120 => checkFabricRec f r.toFabric
     | _ => none)

/-- Advisory records that the hub does not know are skipped (R133). -/
def known (rs : List Rec) : List Rec := rs.filter (fun r => decide (r.type < 0x8000) || decide (r.type = 0xFFFF))

/-- Stage 3 of a frame image. -/
def stage3Frame (dk36 : Bool) (img : Bytes) (rs : List Rec) : Option Refused :=
  let f := toFrame img rs
  firstOf [headerCheck img, firstRefused (checkFrameRec dk36 f) (known rs), judge (!f.variants.isEmpty) MISSING 0]

/-! ## Stage 3: partition images (R141-R143) -/

def checkInfo (i : PartImage) (n : Nat) (r : Rec) : Option Refused :=
  firstOf [
    judge (decide (r.f 0 1 = n) && decide (r.f 1 1 < 4)) BAD_VALUE r.off,
    judge (i.info.all (fun x => decide (r.off ≤ x.1))) DUPLICATE r.off]

/-- R141, R142, R143, R262, R268, R269. -/
def checkChan (i : PartImage) (r : ChanRec) : Option Refused :=
  let before := i.chans.filter (fun q => decide (q.off < r.off))
  let members := (i.span?.map SpanRec.members).getD []
  firstOf [
    judge (decide (r.chan ≤ 4095) && decide (r.kind ≤ 1) && (decide (r.kind = 0) || decide (r.bw = 0))
      && (!r.outbound || decide (r.dstMember < members.length)) && (!r.inbound || !i.spans.isEmpty)) BAD_VALUE r.off,
    judge (decide (r.credits ≠ 0) && (decide (r.kind = 1) || decide (r.bw ≠ 0))) ZERO_FIELD r.off,
    judge r.route.isSome BAD_VALUE r.off,
    judge (before.all (fun q => decide (q.chan ≠ r.chan))) DUPLICATE r.off,
    judge (decide r.ends.Nodup && r.ends.all (fun e => before.all (fun q => !q.ends.contains e))) BAD_VALUE r.off]

/-- The CORE field of R143. -/
def coreField (c : Nat) : Bool := decide (c < 1024)

/-- R143, R372. -/
def checkStream (i : PartImage) (r : StreamDef) : Option Refused :=
  let upTo := i.streams.filter (fun q => decide (q.off ≤ r.off) && decide (q.core = r.core))
  judge (coreField r.core && decide ((upTo.map (fun q => q.descs.length)).sum ≤ 64)) BAD_VALUE r.off

/-- R143, R339. -/
def checkTable (i : PartImage) (r : SfuTabRec) : Option Refused :=
  let before := i.tables.filter (fun q => decide (q.off < r.off) && decide (q.table = r.table))
  firstOf [
    judge ((coreField r.core || decide (r.core = 0xFFFF)) && decide (r.table ≤ 3) && tableOk r.body) BAD_VALUE r.off,
    judge (before.all (fun q => decide (q.core ≠ r.core) && decide (q.core ≠ 0xFFFF) && decide (r.core ≠ 0xFFFF)))
      DUPLICATE r.off]

def checkGraph (i : PartImage) (r : GraphRec) : Option Refused :=
  firstOf [
    judge (decide (r.graph ≤ 4095) && decide (r.prio ≤ 7) && decide (r.defaults.length ≤ 256)) BAD_VALUE r.off,
    judge (decide (r.cores ≠ 0)) ZERO_FIELD r.off,
    judge (i.graphs.all (fun q => !(decide (q.off < r.off) && decide (q.graph = r.graph)))) DUPLICATE r.off]

/-- R143, R229. -/
def checkProg (i : PartImage) (r : ProgRec) : Option Refused :=
  let upTo := i.progs.filter (fun q => decide (q.off ≤ r.off) && decide (q.core = r.core))
  firstOf [
    judge (coreField r.core && decide (r.graph ≤ 4095) && decide (r.words.length ≤ 8192)) BAD_VALUE r.off,
    judge (decide (r.words.length ≠ 0)) ZERO_FIELD r.off,
    judge (upTo.all (fun q => decide (q.graph ≠ r.graph) || decide (q.off = r.off))) DUPLICATE r.off,
    judge (i.graph r.graph).isSome DANGLING r.off,
    judge (decide ((upTo.map (fun q => q.words.length)).sum ≤ 8192)) BAD_VALUE r.off]

def checkBind (i : PartImage) (r : BindRec) : Option Refused :=
  firstOf [
    judge (decide (r.graph ≤ 4095)) BAD_VALUE r.off,
    judge (i.binds.all (fun q => !(decide (q.off < r.off) && decide (q.graph = r.graph)))) DUPLICATE r.off,
    judge ((i.graph r.graph).isSome && r.chans.all (fun c => (i.channel c).isSome)) DANGLING r.off]

def checkDead (i : PartImage) (r : DeadRec) : Option Refused :=
  firstOf [
    judge (decide (r.graph ≤ 4095)) BAD_VALUE r.off,
    judge (decide (r.deadline ≠ 0) && decide (r.period ≠ 0)) ZERO_FIELD r.off,
    judge (i.deads.all (fun q => !(decide (q.off < r.off) && decide (q.graph = r.graph)))) DUPLICATE r.off,
    judge (i.graph r.graph).isSome DANGLING r.off]

def checkCost (i : PartImage) (r : CostRec) : Option Refused :=
  firstOf [
    judge (decide (r.graph ≤ 4095)) BAD_VALUE r.off,
    judge (i.costs.all (fun q => !(decide (q.off < r.off) && decide (q.graph = r.graph)))) DUPLICATE r.off,
    judge (i.graph r.graph).isSome DANGLING r.off]

/-- A core source of the table under R580. -/
def coreSource (v : Nat) : Bool :=
  (decide (1 ≤ v) && decide (v ≤ 0x15)) || (decide (0x8000 ≤ v) && decide (v ≤ 0x8023))
    || (decide (0x8100 ≤ v) && decide (v ≤ 0x810F)) || (decide (0x8200 ≤ v) && decide (v ≤ 0x8300))

/-- A selection that R578 accepts. -/
def selectionOk (w : W32) : Bool :=
  let v := w.toNat
  decide (bits v 30 19 = 0) && (!bit v 31 || coreSource (bits v 15 0))

def checkCounters (i : PartImage) (r : CountersRec) : Option Refused :=
  firstOf [
    judge (coreField r.core && decide (r.sels.length ≤ 8) && r.sels.all selectionOk) BAD_VALUE r.off,
    judge (i.counters.all (fun q => !(decide (q.off < r.off) && decide (q.core = r.core)))) DUPLICATE r.off]

/-- R142, R143, R488; `ids` are the SPAN_IDs of other partition images committed on the device. -/
def checkSpan (i : PartImage) (ids : List Nat) (r : SpanRec) : Option Refused :=
  firstOf [
    judge (decide (r.members.length ≠ 0)) ZERO_FIELD r.off,
    judge (decide (r.members.length ≤ 256) && decide (r.self < r.members.length) && decide (r.spanId ≠ 0)
      && decide r.members.Nodup && !r.members.contains 0 && !r.members.contains 0xFFFF && !ids.contains r.spanId)
      BAD_VALUE r.off,
    judge (i.spans.all (fun q => decide (r.off ≤ q.off))) DUPLICATE r.off]

/-- The checks of one record of a partition image. -/
def checkPartitionRec (i : PartImage) (n : Nat) (ids : List Nat) (r : Rec) : Option Refused :=
  orElse (judge r.clear BAD_VALUE r.off)
    (match r.type with
     | 0x200 => checkInfo i n r
     | 0x210 => checkChan i r.toChan
     | 0x220 => checkStream i r.toStream
     | 0x230 => checkTable i r.toTable
     | 0x240 => checkGraph i r.toGraph
     | 0x241 => checkProg i r.toProg
     | 0x242 => checkBind i r.toBind
     | 0x250 => checkDead i r.toDead
     | 0x251 => checkCost i r.toCost
     | 0x260 => checkCounters i r.toCounters
     | 0x270 => checkSpan i ids r.toSpan
     | _ => none)

/-- The pre-emption level of a graph (R257): 0 without a deadline, PRIO + 1 with one. -/
def PartImage.level (i : PartImage) (g : Nat) : Nat :=
  if (i.dead g).isSome then ((i.graph g).map GraphRec.prio).getD 0 + 1 else 0

/-- A core of the PROGRAM record has at most three levels, with the records up to it (R257). -/
def checkLevels (i : PartImage) (r : ProgRec) : Option Refused :=
  let upTo := i.progs.filter (fun q => decide (q.off ≤ r.off) && decide (q.core = r.core))
  judge (decide ((upTo.map (fun q => i.level q.graph)).dedup.length ≤ 3)) BAD_VALUE r.off

/-- Two graphs share a core. -/
def PartImage.shareCore (i : PartImage) (g h : Nat) : Bool := (i.graphCores g).any (fun c => (i.graphCores h).contains c)

/-- No earlier BINDING of another level on a shared core binds a channel of this one (R264). -/
def checkLevelBind (i : PartImage) (r : BindRec) : Option Refused :=
  judge (i.binds.all (fun q =>
    !(decide (q.off < r.off) && r.chans.any (fun c => q.chans.contains c) && decide (i.level q.graph ≠ i.level r.graph)
      && i.shareCore q.graph r.graph))) BAD_VALUE r.off

/-- A GRAPH has as many PROGRAM records as CORES (R143). -/
def checkCores (i : PartImage) (r : GraphRec) : Option Refused :=
  firstOf [
    judge (decide (r.cores ≤ (i.graphCores r.graph).length)) MISSING r.off,
    judge (decide ((i.graphCores r.graph).length ≤ r.cores)) BAD_VALUE r.off]

/-- Stage 3 of a partition image of Pn. -/
def stage3Part (n : Nat) (ids : List Nat) (img : Bytes) (rs : List Rec) : Option Refused :=
  let i := toPartImage img rs
  firstOf [
    headerCheck img,
    firstRefused (checkPartitionRec i n ids) (known rs),
    judge (!i.info.isEmpty) MISSING 0,
    judge (!i.spanned || !i.spans.isEmpty) MISSING ((i.info.head?.map Prod.fst).getD 0),
    judge (i.spanned || i.spans.isEmpty) MISSING ((i.span?.map SpanRec.off).getD 0),
    firstRefused (checkCores i) i.graphs,
    firstRefused (fun d : DeadRec => judge (i.costs.any (fun c => decide (c.graph = d.graph))) MISSING d.off) i.deads,
    firstRefused (checkLevels i) i.progs,
    firstRefused (checkLevelBind i) i.binds]

/-! ## Stage 4: state (R155, R163) -/

/-- The share of Pn in each port, in port order. -/
def Frame.shares (f : Frame) (n : Nat) : List Nat :=
  (List.range 18).map (fun p =>
    ((f.ports.filter (fun r => decide (r.port = p) && decide (r.part = n))).map PortRec.share).sum)

/-- What a frame gives Pn, without the records' offsets, in order of index. -/
def Frame.gives (f : Frame) (n : Nat) : List PartRec × List RegionRec × List PoolRec :=
  ((f.parts.filter (fun p => decide (p.part = n))).map (fun p => { p with off := 0 }),
   (List.range 64).flatMap (fun i =>
     (f.regions.filter (fun r => decide (r.part = n) && decide (r.index = i))).map (fun r => { r with off := 0 })),
   (List.range 1024).flatMap (fun i =>
     (f.pools.filter (fun r => decide (r.part = n) && decide (r.pool = i))).map (fun r => { r with off := 0 })))

/-- A frame's FABRIC record, without its offset. -/
def Frame.policy (f : Frame) : Option (Nat × Nat) := f.fabric.head?.map (fun r => (r.policy, r.address))

/-- A change of frame affects Pn (R163). -/
def affected (old new : Frame) (n : Nat) : Bool :=
  decide (old.gives n ≠ new.gives n) || decide (old.shares n ≠ new.shares n)
    || (decide (old.policy ≠ new.policy) && ((old.shares n).any (fun x => decide (x ≠ 0))
        || (new.shares n).any (fun x => decide (x ≠ 0))))

/-- NOT_EMPTY: the lowest affected partition that holds an image (R163, R620). -/
def notEmpty (s : State) (new : Frame) : Option Refused :=
  match (List.range 32).find? (fun n => (s.image n).isSome && affected (s.frame.getD {}) new n) with
  | none => none
  | some n =>
    some { reason := 0x22, off := ((new.parts.find? (fun p => decide (p.part = n))).map PartRec.off).getD 0xFFFFFFFF }

/-! ## Stage 4: capability (R110, R111, R144) -/

/-- BDP_VER and the feature bits of a capability word (ch. 04, Registers). -/
def capVersion (c : W64) : Nat := bits c.toNat 7 0
def capFeatures (c : W64) : Nat := bits c.toNat 38 32

/-- Towers in service: some group of theirs is. -/
def State.towersUp (s : State) : List Nat := (List.range 4).filter (fun n => !s.bup.towersOff.contains n)

/-- The common set of R110: the lowest version and the AND of the features, the B1 hub's among them. -/
def State.commonSet (s : State) : Nat × Nat :=
  (s.towersUp.foldl (fun v n => min v (capVersion (s.cap n))) 2,
   s.towersUp.foldl (fun v n => v &&& capFeatures (s.cap n)) 0x7F)

/-- Every tower of a list that is in service has version `v` and features `f`. -/
def State.towersHave (s : State) (l : List Nat) (v f : Nat) : Bool :=
  l.all (fun n => s.bup.towersOff.contains n
    || (decide (v ≤ capVersion (s.cap n)) && decide (f &&& capFeatures (s.cap n) = f)))

/-- The towers that hold a group of these. -/
def groupsTowers (g : W64) : List Nat := (List.range 4).filter (fun n => decide (bits g.toNat (16 * n + 15) (16 * n) ≠ 0))

/-- Feature bits by their names in the capability word (BUP_CAP, R126). -/
def featPin : Nat := 2 ^ 2
def featFar : Nat := 2 ^ 3
def featSpan : Nat := 2 ^ 6

/-- CAPABILITY of a frame image. -/
def capFrame (s : State) (f : Frame) : Option Refused :=
  let towers := fun n : Nat => groupsTowers (((f.parts.find? (fun p => decide (p.part = n))).map PartRec.groups).getD 0)
  orElse
    (firstRefused (fun r : RegionRec =>
      judge ((decide (r.mode ≠ 3) || s.towersHave [r.target.toNat % 8 / 2] 0 featPin)
        && (!r.farCached || s.towersHave (towers r.part) 0 featFar)) 0x23 r.off) f.regions)
    (judge (decide (bits f.capVer 7 0 ≤ s.commonSet.1) && decide (bits f.capFeat 6 0 &&& s.commonSet.2 = bits f.capFeat 6 0))
      0x23 0)

/-- CAPABILITY of a partition image. -/
def capPart (s : State) (n : Nat) (i : PartImage) : Option Refused :=
  let towers := groupsTowers (((s.partRec n).map PartRec.groups).getD 0)
  let infos := i.info.map (fun x => (x.1, if x.2.2.getLsbD 0 then featPin else 0))
  let needs := infos ++ i.spans.map (fun r => (r.off, featSpan))
  let refused := needs.filter (fun x => !s.towersHave towers 0 x.2)
  match refused with
  | x :: l => some { reason := 0x23, off := l.foldl (fun o y => min o y.1) x.1 }
  | [] => judge (s.towersHave towers (bits i.capVer 7 0) (bits i.capFeat 6 0)) 0x23 0

/-- Stage 4 of a frame image. -/
def stage4Frame (s : State) (f : Frame) : Option Refused := orElse (notEmpty s f) (capFrame s f)

/-- Stage 4 of a partition image (R155). -/
def stage4Part (s : State) (n : Nat) (i : PartImage) : Option Refused :=
  firstOf [
    judge s.frame.isSome 0x20 0xFFFFFFFF,
    judge (s.partRec n).isSome 0x21 0xFFFFFFFF,
    capPart s n i]

end Sys2Proof.Machine
end

