-- ==== Sys2Proof/Machine/Admission.lean ====
section
/-!
DEFINITION. The admission unit, stage 5 of a commit (ch. 06): fit (R168, R170, R202, R268), bandwidth (R174, R185), the span
checks (R187, R188, R488) and deadlines (R176-R186). All arithmetic is in naturals and every division rounds up (R179).
-/
namespace Sys2Proof.Machine

/-- A quotient rounded up (R179). -/
def ceilDiv (a b : Nat) : Nat := (a + b - 1) / b

def FIT_ABSENT : Nat := 0x30
def FIT_OUTSIDE : Nat := 0x31
def BAD_COST : Nat := 0x39

/-! ## Resources (R116, R171, R621) -/

/-- Modules that remain on the link of bridge direction b: four of a hub link, two of a ring link at most. -/
def State.bridgeModules (s : State) (b : Nat) : Nat :=
  if b < 8 then 4 - AMap.get 0 s.bup.hubLost (b / 2) else 2 - AMap.get 0 s.bup.ringLost ((b - 8) / 2)

/-- A bridge direction is absent: no module remains, or a tower at its end is out of service (R116). -/
def State.bridgeOff (s : State) (b : Nat) : Bool :=
  decide (s.bridgeModules b = 0) || s.bup.towersOff.contains (if b < 8 then b / 2 else (b - 8) / 2)
    || (decide (8 ≤ b) && s.bup.towersOff.contains (((b - 8) / 2 + 1) % 4))

/-- The effective rate of a bridge direction in MB/s (R171). -/
def State.bridgeRate (s : State) (b : Nat) : Nat :=
  if s.bridgeOff b then 0 else if b < 8 then 247500 * s.bridgeModules b else 253440 * s.bridgeModules b

/-- SHARE of Pn in a port, in 64ths. -/
def State.share (s : State) (n p : Nat) : Nat :=
  match s.frame with
  | some f => ((f.ports.filter (fun r => decide (r.port = p) && decide (r.part = n))).map PortRec.share).sum
  | none => 0

/-- Some stack that the region covers is out of service. -/
def RegionRec.lost (s : State) (r : RegionRec) : Bool :=
  (List.range 8).any (fun k => !s.stackUp k && (List.range 64).any (fun p => r.covers k p))

/-! ## Fit (R170) -/

/-- A refusal by the fit check. -/
def unfit (reason off rkind res graph : Nat) : Option Refused :=
  some { reason := reason, off := off, check := 1, rkind := rkind, res := res, graph := graph }

/-- Fit of a frame image, in record order. -/
def fitFrame (s : State) (rs : List Rec) : Option Refused :=
  firstRefused (fun r : Rec =>
    match r.type with
    | 0x110 =>
      match (List.range 64).find? (fun i => bit r.toPart.groups.toNat i && !s.groupUp (i / 16) (i % 16)) with
      | some i => unfit FIT_ABSENT r.off 1 (coreNum (i / 16) (4 * (i % 16 / 4)) (4 * (i % 4))) 0
      | none => none
    | 0x112 =>
      if r.toRegion.lost s ∨ s.stackRows < r.toRegion.baseRow + r.toRegion.rows then
        unfit FIT_ABSENT r.off 4 r.toRegion.index 0
      else none
    | 0x113 => if s.portCount ≤ r.toPort.port then unfit FIT_ABSENT r.off 5 r.toPort.port 0 else none
    | _ => none) rs

/-- Core c belongs to Pn and is there. -/
def fitCore (s : State) (n off graph c : Nat) : Option Refused :=
  if 1024 ≤ c then unfit FIT_OUTSIDE off 1 c graph
  else if !s.coreUp c then unfit FIT_ABSENT off 1 c graph
  else if s.coreOwner c ≠ some n then unfit FIT_OUTSIDE off 1 c graph
  else none

/-- Region i belongs to Pn and is there. -/
def fitRegion (s : State) (n off graph i : Nat) : Option Refused :=
  match s.regionRec i with
  | some r =>
    if r.part ≠ n then unfit FIT_OUTSIDE off 4 i graph
    else if r.lost s then unfit FIT_ABSENT off 4 i graph
    else none
  | none => unfit FIT_OUTSIDE off 4 i graph

/-- Pn holds a share of port p, which is there. -/
def fitPort (s : State) (n off graph p : Nat) : Option Refused :=
  if s.portCount ≤ p then unfit FIT_ABSENT off 5 p graph
  else if s.share n p = 0 then unfit FIT_OUTSIDE off 5 p graph
  else none

/-- A step of the route of channel `r` (R202, R268, R269): a boundary is severed unless the group beyond it is there and is
Pn's, since the route stands in a group of Pn (R200). -/
def fitLeg (s : State) (n : Nat) (r : ChanRec) : Leg → Option Refused
  | .group t g =>
    if !s.groupUp t g then unfit FIT_ABSENT r.off 3 r.chan 0
    else if s.groupOwner t g ≠ some n then unfit FIT_OUTSIDE r.off 3 r.chan 0
    else none
  | .enter t g => if s.groupUp t g ∧ s.groupOwner t g = some n then none else unfit FIT_OUTSIDE r.off 3 r.chan 0
  | .link .. => none
  | .bridge b => if s.bridgeOff b then unfit FIT_ABSENT r.off 3 r.chan 0 else none
  | .port _ p =>
    if p = 31 then none
    else if s.portCount ≤ p then unfit FIT_ABSENT r.off 3 r.chan 0
    else if s.share n p = 0 then unfit FIT_OUTSIDE r.off 3 r.chan 0
    else none

/-- The regions that a stream descriptor's words name: source and destination in the spaces REGION and NBU (R374). -/
def descRegions (ws : List W64) : List Nat :=
  (ws.take 2).flatMap (fun w =>
    if bits w.toNat 63 60 = 2 ∨ bits w.toNat 63 60 = 5 then [bits w.toNat 59 54] else [])

def badCost (off graph : Nat) : Option Refused := some { reason := BAD_COST, off := off, check := 3, graph := graph }

/-- A term of a cost vector (R170, R177, R178). -/
def fitTerm (s : State) (n : Nat) (i : PartImage) (r : CostRec) (x : Term) : Option Refused :=
  match x.kind with
  | 1 | 2 =>
    orElse (fitCore s n r.off r.graph x.id)
      (if (i.graphCores r.graph).contains x.id then none else badCost r.off r.graph)
  | 3 =>
    match i.channel x.id with
    | none => unfit FIT_OUTSIDE r.off 3 x.id r.graph
    | some c => if c.kind = 0 then none else badCost r.off r.graph
  | 4 => fitRegion s n r.off r.graph x.id
  | 5 => fitPort s n r.off r.graph x.id
  | 6 => if x.id = 0 then none else badCost r.off r.graph
  | _ => badCost r.off r.graph

/-- A COST record (R178). -/
def fitCost (s : State) (n : Nat) (i : PartImage) (r : CostRec) : Option Refused :=
  if !r.ok ∨ r.phases = [] ∨ r.phases.any List.isEmpty ∨ (i.dead r.graph).isNone then badCost r.off r.graph
  else firstRefused (fitTerm s n i r) r.phases.flatten

/-- The refusal at the lowest offset. -/
def leastOff (l : List Refused) : Option Refused :=
  match l with
  | [] => none
  | x :: l => some (l.foldl (fun a b => if b.off < a.off then b else a) x)

/-- Fit of a partition image of Pn, in record order. -/
def fitPart (s : State) (n : Nat) (i : PartImage) : Option Refused :=
  leastOff (
    i.chans.filterMap (fun r => firstRefused (fitLeg s n r) (r.route.getD []))
    ++ i.streams.filterMap (fun r =>
      orElse (fitCore s n r.off 0 r.core) (firstRefused (fitRegion s n r.off 0) (r.descs.flatMap descRegions)))
    ++ i.tables.filterMap (fun r => if r.core = 0xFFFF then none else fitCore s n r.off 0 r.core)
    ++ i.progs.filterMap (fun r => fitCore s n r.off 0 r.core)
    ++ i.counters.filterMap (fun r => fitCore s n r.off 0 r.core)
    ++ i.costs.filterMap (fitCost s n i))

/-! ## Bandwidth (R174, R185) -/

/-- What a reservation charges: a mesh link direction (4 × core + 2 × axis + direction), a bridge direction, or a port
direction (2 × port, + 1 inward). -/
inductive Meter where
  | link (i : Nat)
  | bridge (b : Nat)
  | port (i : Nat)
deriving DecidableEq, Repr

/-- A charge in MB/s with the record it comes from. -/
structure Charge where
  on : Meter
  mbs : Nat
  off : Nat
  graph : Nat := 0
deriving DecidableEq, Repr

/-- The circuits of an image by ascending CHAN, its costs and deadlines by ascending graph. -/
def PartImage.circuits (i : PartImage) : List ChanRec :=
  ((List.range 4096).filterMap i.channel).filter (fun r => decide (r.kind = 0))
def PartImage.costOf (i : PartImage) (g : Nat) : Option CostRec := i.costs.find? (fun r => decide (r.graph = g))
def PartImage.deadlines (i : PartImage) : List DeadRec := (List.range 4096).filterMap i.dead

/-- What a circuit's route charges. -/
def legCharge (r : ChanRec) : Leg → List Charge
  | .group .. | .enter .. => []
  | .link c axis up => [{ on := .link (4 * c + 2 * axis + nat (!up)), mbs := r.bw, off := r.off }]
  | .bridge b => [{ on := .bridge b, mbs := r.bw, off := r.off }]
  | .port out p => if p = 31 then [] else [{ on := .port (2 * p + nat (!out)), mbs := r.bw, off := r.off }]

/-- Quarters of a region's bytes that lie in tower m (R174). -/
def RegionRec.quarters (r : RegionRec) (m : Nat) : Nat :=
  if r.mode = 0 then 1
  else if r.mode = 1 then (if r.target.toNat % 4 = m then 4 else 0)
  else if r.target.toNat % 8 / 2 = m then 4 else 0

/-- What a term charges each period of `period` ns: a REGION term, both directions of every hub link its bytes cross, with
the cores of its graph taken to share them evenly; a FABRIC term, both directions of the port (DEDUCED, notes/assumptions/29.md).
Each term's MB/s are rounded up by themselves, not once over their sum (R185 does not say: DESIGN CHOICE,
notes/assumptions/29.md). -/
def termCharges (s : State) (i : PartImage) (r : CostRec) (period : Nat) (x : Term) : List Charge :=
  if x.amount = 0 then []
  else if x.kind = 4 then
    match s.regionRec x.id with
    | none => []
    | some q =>
      let cores := i.graphCores r.graph
      (List.range 4).flatMap (fun m =>
        let k := cores.countP (fun c => decide (coreTower c = m))
        let crossing := k * (4 - q.quarters m) + q.quarters m * (cores.length - k)
        if crossing = 0 then []
        else
          let mbs := ceilDiv (x.amount * crossing * 1000) (4 * cores.length * period)
          [{ on := .bridge (2 * m), mbs := mbs, off := r.off, graph := r.graph },
           { on := .bridge (2 * m + 1), mbs := mbs, off := r.off, graph := r.graph }])
  else if x.kind = 5 then
    let mbs := ceilDiv (x.amount * 1000) period
    [{ on := .port (2 * x.id), mbs := mbs, off := r.off, graph := r.graph },
     { on := .port (2 * x.id + 1), mbs := mbs, off := r.off, graph := r.graph }]
  else []

/-- The charges of an image in order: circuits by ascending CHAN, then cost vectors by ascending graph. -/
def charges (s : State) (i : PartImage) : List Charge :=
  i.circuits.flatMap (fun r => (r.route.getD []).flatMap (legCharge r))
    ++ i.deadlines.flatMap (fun d =>
      match i.costOf d.graph with
      | some c => c.phases.flatten.flatMap (termCharges s i c d.period)
      | none => [])

/-- What other partitions have reserved on bridge direction b (R169, R175). -/
def State.reserved (s : State) (n b : Nat) : Nat :=
  (((List.range 32).filter (fun m => decide (m ≠ n))).map (fun m => AMap.get 0 (s.part m).ledger b)).sum

/-- What the image reserves on a meter. -/
def Charge.total (l : List Charge) (m : Meter) : Nat := ((l.filter (fun c => decide (c.on = m))).map Charge.mbs).sum

def overCharge (reason rkind res value limit : Nat) (c : Charge) : Option Refused :=
  some { reason := reason, off := c.off, check := 2, rkind := rkind, res := res, graph := c.graph, value := value,
         limit := limit }

/-- A charge after those before it keeps its meter within 0.95 of its rate (R185). -/
def chargeFits (s : State) (n : Nat) (before : List Charge) (c : Charge) : Option Refused :=
  let v := Charge.total (c :: before) c.on
  match c.on with
  | .link i => if 42560 < v then overCharge 0x32 7 (1024 * (i / 2 % 2) + i / 4) v 42560 c else none
  | .bridge b =>
    let v := v + s.reserved n b
    if 95 * s.bridgeRate b < 100 * v then overCharge 0x33 6 b v (ceilDiv (95 * s.bridgeRate b) 100) c else none
  | .port i =>
    if 95 * 99000 * s.share n (i / 2) < 6400 * v then
      overCharge 0x34 5 (i / 2) v (ceilDiv (95 * 99000 * s.share n (i / 2)) 6400) c
    else none

/-- The bandwidth check over charges in order. -/
def bandwidth (s : State) (n : Nat) : List Charge → List Charge → Option Refused
  | _, [] => none
  | before, c :: l => orElse (chargeFits s n before c) (bandwidth s n (c :: before) l)

/-- The image's ledger by bridge direction (R175, R621). -/
def ledgerOf (l : List Charge) : AMap Nat :=
  (List.range 16).foldl (fun m b => AMap.put 0 m b (Charge.total l (.bridge b))) []

/-! ## Deadlines (R179-R186) -/

/-- The time of a term in ps (R173, R177, R180). -/
def termTime (s : State) (n : Nat) (i : PartImage) (x : Term) : Nat :=
  let a := x.amount * 1000000000000
  match x.kind with
  | 1 => ceilDiv a 1050000000
  | 2 => ceilDiv a 168448000000
  | 3 => ceilDiv a (((i.channel x.id).map ChanRec.bw).getD 1 * 1000000)
  | 4 =>
    match s.regionRec x.id with
    | some r => ceilDiv (a * s.stackRows) (r.chans * r.rows * 29081250000)
    | none => 0
  | 5 => ceilDiv (a * 64) (99000000000 * s.share n x.id)
  | _ => x.amount * 1000

/-- The isolated latency L of a cost vector in ps (R180, R181). -/
def isolated (s : State) (n : Nat) (i : PartImage) (c : CostRec) : Nat :=
  let phase := fun p : List Term =>
    (p.map (termTime s n i)).foldl max 0 + (if i.pinned then ceilDiv 128000000000000 1050000000 else 0)
  1500000 + (c.phases.map phase).sum + 500000

/-- B of R182: 1,024 beats at guard, in ps. -/
def blocking : Nat := ceilDiv 1024000000000000 1050000000

/-- A deadline graph as the latency check sees it: its records and L. -/
structure Timed where
  dead : DeadRec
  cost : CostRec
  prio : Nat
  lat : Nat
deriving DecidableEq, Repr

/-- The image's deadline graphs by ascending graph. -/
def timed (s : State) (n : Nat) (i : PartImage) : List Timed :=
  i.deadlines.filterMap (fun d =>
    (i.costOf d.graph).map (fun c =>
      { dead := d, cost := c, prio := ((i.graph d.graph).map GraphRec.prio).getD 0, lat := isolated s n i c }))

/-- H of R182 for graph g. -/
def rivals (i : PartImage) (l : List Timed) (g : Timed) : List Timed :=
  l.filter (fun j => decide (j.dead.graph ≠ g.dead.graph) && decide (g.prio ≤ j.prio)
    && i.shareCore j.dead.graph g.dead.graph)

/-- The iteration of R182 from R: its fixed point, or the first R above the deadline. R rises by at least 1 ps a round. -/
def settle (h : List Timed) (base limit : Nat) : Nat → Nat → Nat
  | 0, r => r
  | fuel + 1, r =>
    if limit < r then r
    else
      let r' := base + (h.map (fun j => ceilDiv r (j.dead.period * 1000) * j.lat)).sum
      if r' = r then r else settle h base limit fuel r'

/-- The worst-case latency R of graph g against `limit` ps (R182). -/
def worstCase (i : PartImage) (l : List Timed) (limit : Nat) (g : Timed) : Nat :=
  settle (rivals i l g) (blocking + g.lat) limit (limit + 2) (blocking + g.lat)

/-- A part of a utilisation: the COST record it comes from and its units of 2^-16. -/
structure Part16 where
  off : Nat
  graph : Nat
  units : Nat
deriving DecidableEq, Repr

/-- The record at which a sum passes 62,259 units (R184). -/
def crossing : Nat → List Part16 → Option Part16
  | _, [] => none
  | acc, x :: l => if 62259 < acc + x.units then some x else crossing (acc + x.units) l

/-- A resource's utilisation stays within 62,259 units; `base` units come from no cost record of this image. -/
def utilise (rkind res base : Nat) (l : List Part16) : Option Refused :=
  (crossing base l).map (fun x =>
    { reason := 0x35, off := x.off, check := 3, rkind := rkind, res := res, graph := x.graph,
      value := base + (l.map Part16.units).sum, limit := 62259 })

/-- The graphs' utilisations of a resource named by term KIND and ID. -/
def termUse (s : State) (n : Nat) (i : PartImage) (l : List Timed) (kind id : Nat) : List Part16 :=
  l.filterMap (fun g =>
    let ts := g.cost.phases.flatten.filter (fun x => decide (x.kind = kind) && decide (x.id = id))
    let ps := (ts.map (termTime s n i)).sum
    if ps = 0 then none
    else some { off := g.cost.off, graph := g.dead.graph, units := ceilDiv (65536 * ps) (1000 * g.dead.period) })

/-- The utilisation of the cores (R184): Σ R / P. -/
def coreUse (i : PartImage) (rs : List (Timed × Nat)) (c : Nat) : List Part16 :=
  (rs.filter (fun x => (i.graphCores x.1.dead.graph).contains c)).map (fun x =>
    { off := x.1.cost.off, graph := x.1.dead.graph, units := ceilDiv (65536 * x.2) (1000 * x.1.dead.period) })

/-- The utilisation of a bridge direction (R184): the ledger rate over the effective rate, one quotient. `v` is the ledger so
far; the record refused is the one whose charge first takes the quotient above 62,259 units. -/
def bridgeOver (rate : Nat) : Nat → List Charge → Option Charge
  | _, [] => none
  | v, c :: l => if 62259 < ceilDiv (65536 * (v + c.mbs)) rate then some c else bridgeOver rate (v + c.mbs) l

/-- The utilisation of bridge direction b, by the charges on it and what other partitions have reserved. -/
def bridgeUse (s : State) (n : Nat) (l : List Charge) (b : Nat) : Option Refused :=
  let mine := l.filter (fun c => decide (c.on = .bridge b))
  (bridgeOver (s.bridgeRate b) (s.reserved n b) mine).map (fun c =>
    { reason := 0x35, off := c.off, check := 3, rkind := 6, res := b, graph := c.graph,
      value := ceilDiv (65536 * (s.reserved n b + (mine.map Charge.mbs).sum)) (s.bridgeRate b), limit := 62259 })

/-- The power check (R186) in units of 2^-16 of the floor: 95 % of it at most. -/
def powerUse (floor cores : Nat) (l : List Timed) : Option Refused :=
  utilise 8 0 (ceilDiv (65536 * 12 * cores) (100 * floor))
    (l.map (fun g =>
      { off := g.cost.off, graph := g.dead.graph, units := ceilDiv (65536 * 1000 * g.cost.energy) (g.dead.period * floor) }))

/-- Cores in a set of groups: sixteen each. -/
def coresIn (g : W64) : Nat := 16 * (List.range 64).countP (fun k => bit g.toNat k)

/-- The deadline checks of Pn's image; `slack` ns are taken off every deadline (R187). A NO_FLOOR refusal shows the resource
POWER (R186 names it for UTILISATION only: DESIGN CHOICE, notes/assumptions/29.md). -/
def deadlineCheck (s : State) (n slack : Nat) (i : PartImage) (l : List Charge) : Option Refused :=
  let floor := ((s.partRec n).map PartRec.floor).getD 0
  let groups := ((s.partRec n).map PartRec.groups).getD 0
  let gs := timed s n i
  let lim := fun g : Timed => (g.dead.deadline - slack) * 1000
  let rs := gs.map (fun g => (g, worstCase i gs (lim g) g))
  let byId := fun (rkind kind count : Nat) =>
    firstRefused (fun id => utilise rkind id 0 (termUse s n i gs kind id)) (List.range count)
  firstOf [
    (if floor = 0 then (leastOff (i.deads.map (fun d =>
        { reason := 0x37, off := d.off, check := 3, rkind := 8, graph := d.graph }))) else none),
    firstRefused (fun x : Timed × Nat =>
      if lim x.1 < x.2 then
        some { reason := 0x36, off := x.1.cost.off, check := 3, rkind := 9, graph := x.1.dead.graph, value := x.2,
               limit := lim x.1 }
      else none) rs,
    firstRefused (fun c => utilise 1 c 0 (coreUse i rs c)) (List.range 1024),
    byId 2 2 1024, byId 4 4 64, byId 3 3 4096, byId 5 5 18,
    firstRefused (bridgeUse s n l) (List.range 16),
    (if gs.isEmpty then none else powerUse floor (coresIn groups) gs)]

/-! ## Spans (R187, R188, R488) -/

def noPath (off member : Nat) : Option Refused := some { reason := 0x38, off := off, check := 4, rkind := 10, res := member }

/-- The unit's address is settled (R480). -/
def State.ownsAddress (s : State) (a : Nat) : Bool :=
  decide (s.fab.address = a) && (decide (s.fab.addrState = .claimed) || decide (s.fab.addrState = .assigned))

/-- The span's checks on this device: member SELF is its address; a worker has a route to the manager; the manager has a
route to every member, and its FABRIC terms fit its port shares. -/
def spanCheck (s : State) (n : Nat) (i : PartImage) : Option Refused :=
  match i.span? with
  | none => none
  | some r =>
    if !s.ownsAddress (r.members.getD r.self 0) then noPath r.off r.self
    else if r.self ≠ 0 then
      (if (s.route (r.members.getD 0 0)).valid then none else noPath r.off 0)
    else
      match (List.range r.members.length).find? (fun m => decide (m ≠ r.self) && !(s.route (r.members.getD m 0)).valid) with
      | some m => noPath r.off m
      | none =>
        let gs := timed s n i
        if (List.range 18).any (fun p => (crossing 0 (termUse s n i gs 5 p)).isSome) then noPath r.off 0 else none

/-- Hops of the current route of a worker to its manager; 0 for a manager and outside spans. -/
def spanHops (s : State) (i : PartImage) : Nat :=
  match i.span? with
  | some r => if r.self = 0 then 0 else (s.route (r.members.getD 0 0)).hops
  | none => 0

/-- What R187 takes off a worker's deadlines, in ns. -/
def spanSlack (s : State) (i : PartImage) : Nat :=
  match i.span? with
  | some r => if r.self = 0 then 0 else r.margin + 2000 * spanHops s i
  | none => 0

/-- Stage 5 of a partition image of Pn: a refusal, or the ledger it will hold. -/
def admission (s : State) (n : Nat) (i : PartImage) : AMap Nat ⊕ Refused :=
  let l := charges s i
  match firstOf [fitPart s n i, bandwidth s n [] l, spanCheck s n i, deadlineCheck s n (spanSlack s i) i l] with
  | some e => .inr e
  | none => .inl (ledgerOf l)

end Sys2Proof.Machine
end

