-- ==== Sys2Proof/Machine/Commit.lean ====
section
/-!
DEFINITION. The Molt (R157-R162) and the loading of images, stage 6 of a commit (R154, R156, R163, R164, R197, R200, R402,
R413, R475, R491, R598, R623).
-/
namespace Sys2Proof.Machine

/-! ## The Molt (R157) -/

/-- Step 3 for one launch: aborted where it runs, it completes with MOLT (LAST of its cores reads MOLT). -/
def State.moltLaunch (s : State) (n : Nat) (l : Launch) : State :=
  let s := s.abortLaunch n l.id 4
  match s.launch n l.id with
  | some l => s.endLaunch n l 2 0
  | none => s

/-- A member's Molt: LEAVE to every other member (R161, R497). -/
def State.sendLeave (s : State) (n : Nat) : State :=
  match s.spanRec n with
  | some r =>
    s.each (List.range r.members.length) (fun s m =>
      if m = r.self then s else s.sendSpan n (r.members.getD m 0) (.leave 3))
  | none => s

/-- A core's stores overwritten with zeros, its tables not loaded, its counters cleared (step 5, R340, R577); with KEEP the
slice stays. -/
def Core.molted (k : Core) (keep : Bool) : Core :=
  { k with mode := .off, run := { graph := k.run.graph, serial := k.run.serial }, code := [], near := [], slot0 := none, slot1 := none, tables := [],
           eps := [], evc := [], slice := if keep then k.slice else [], marks := if keep then k.marks else [] }

/-- NBUs that Pn owns discard their queues and are cleared (R413, R418). -/
def Nbu.cleared (u : Nbu) : Nbu := { u with x := [], a := [], queue := [], fifo := [], run := none }

/-- The pseudo-channels of every stack, as (stack, channel). -/
def allChans : List (Nat × Nat) := (List.range 512).map (fun i => (i / 64, i % 64))

def State.clearNbus (s : State) (n : Nat) : State :=
  s.each allChans (fun s x => if s.nbuOwner x.1 x.2 = some n then s.modNbu (64 * x.1 + x.2) Nbu.cleared else s)

/-- The regions of Pn. -/
def State.partRegions (s : State) (n : Nat) : List RegionRec :=
  ((s.frame.map Frame.regions).getD []).filter (fun r => decide (r.part = n))

/-- Records of Pn leave its view (R594). -/
def FltRec.unclaimed (n : Nat) (r : FltRec) : FltRec := if r.valid ∧ r.part = n then { r with valid := false } else r

def State.unclaim (s : State) (n : Nat) : State :=
  { s with flt := { s.flt with slots := s.flt.slots.map (fun (x : Nat × FltRec) => (x.1, x.2.unclaimed n)),
                               waiting := s.flt.waiting.map (FltRec.unclaimed n) } }

/-- Step 6: far-cache lines dropped, keys discarded, contents unreadable, the overwrite begun (R158, R159, R211,
R213); the slots read DISCARDING until the command ends. -/
def State.discardKeys (s : State) (n : Nat) : State :=
  let s := s.each (s.partRegions n) (fun s r =>
    let k := s.key r.index
    ((s.farDropRegion r.index).setRegion r.index {}).setKey r.index { k with st := .discarding })
  s.modPart n (fun p => { p with ovw := p.ovw ++ s.partRegions n })

/-- The Molt of Pn: steps 1 to 6, and without KEEP all of what the image held; the partition stands without an image. It shows
MOLTING until the command ends (R197). -/
def State.molt (s : State) (n : Nat) (keep : Bool) : State :=
  let s := s.modPart n (fun p => { p with molting := true, barred := true })
  let s := s.each (s.part n).launches (fun s l => s.moltLaunch n l)
  let s := s.sendLeave n
  let s := s.freePools n true
  let s := s.closeAll n true
  let s := s.each (s.partCores n) (fun s c => s.modCore c (fun k => k.molted keep))
  let s := (s.clearNbus n).unclaim n
  let s := if keep then s else s.discardKeys n
  s.modPart n (fun p =>
    { p with st := .empty, image := none, ledger := [], flights := [], epochs := [], prevStart := [],
             span := { gen := p.span.gen, losses := p.span.losses } })

/-- Lamps back at their reset values (R598). -/
def State.releaseLamps (s : State) (l : List Nat) : State := s.each l (fun s i => s.setLamp i {})

/-- The lamps of a partition. -/
def State.partLamps (s : State) (n : Nat) : List Nat := (List.range 12).filter (fun i => decide (s.lampOwner i = some n))

/-! ## Loading a partition image (R154, R156, R229, R283, R340, R372, R577) -/

/-- The code store of core c (R229): PROGRAM records by ascending graph number, from word 0. -/
def PartImage.codeOf (i : PartImage) (c : Nat) : AMap W64 :=
  let words := (List.range 4096).flatMap (fun g =>
    ((i.progs.find? (fun r => decide (r.graph = g) && decide (r.core = c))).map ProgRec.words).getD [])
  (words.zipIdx.map (fun x => (x.2, x.1))).filter (fun x => decide (x.2 ≠ 0))

/-- The function tables of core c. -/
def PartImage.tablesOf (i : PartImage) (c : Nat) : AMap SfuTab :=
  (List.range 4).foldl (fun m t =>
    match i.tables.find? (fun r => decide (r.table = t) && (decide (r.core = c) || decide (r.core = 0xFFFF))) with
    | some r => AMap.put {} m t { loaded := true, body := r.body }
    | none => m) []

/-- The endpoints that CHANNEL records name on core c (R262, R283). -/
def PartImage.epsOf (i : PartImage) (c : Nat) : AMap Ep :=
  i.chans.foldl (fun m r =>
    let e : Ep := { valid := true, packet := decide (r.kind = 1), chan := r.chan, credits := r.credits }
    let m := if !r.inbound && decide (endCore r.src = c) then AMap.put {} m (endEp r.src) e else m
    if !r.outbound && decide (endCore r.dst = c) then AMap.put {} m (endEp r.dst) { e with recv := true } else m) []

/-- The selections of core c's counters (R577). -/
def PartImage.countersOf (i : PartImage) (c : Nat) : AMap Counter :=
  match i.counters.find? (fun r => decide (r.core = c)) with
  | some r => (r.sels.zipIdx).foldl (fun m x => AMap.put {} m x.2 { sel := x.1 }) []
  | none => []

/-- A core of the partition loaded: IDLE, its stores and tables as the image sets them. -/
def PartImage.loadCore (i : PartImage) (s : State) (c : Nat) : State :=
  s.modCore c (fun k => { k with mode := .idle, code := i.codeOf c, tables := i.tablesOf c, eps := i.epsOf c,
                                 evc := i.countersOf c })

/-- The key store's DRBG is reseeded at a commit (R207). -/
def State.reseed (s : State) : State := { s with drbg := s.drbg.reseed (Config.entropy s.free), free := s.free + 1 }

/-- Fresh keys for the regions of Pn, which read as zeros (R156, R160, R207, R211). -/
def State.makeKeys (s : State) (n : Nat) : State :=
  s.each (s.partRegions n) (fun s r =>
    let k := s.key r.index
    let (key, d) := s.drbg.generate
    { (s.setRegion r.index {}).setKey r.index { st := .live, gen := k.gen + 1, part := n, key := key } with drbg := d })

/-- The command ends (R197, R211, R217): no Molt shows any more, discarded slots are overwritten, and a partition that is ACTIVE
serves its aperture again. -/
def State.endMolts (s : State) : State :=
  { s with parts := s.parts.map (fun (x : Nat × Part) =>
             (x.1, { x.2 with molting := false, barred := x.2.barred && decide (x.2.st ≠ .active) })),
           keys := s.keys.map (fun (x : Nat × KeySlot) =>
             (x.1, if x.2.st = .discarding then { x.2 with st := .empty, key := 0 } else x.2)) }

/-- Some partition is HELD (R92). -/
def State.someHeld (s : State) : Bool := (List.range 32).any (fun n => decide ((s.part n).st = .held))

/-- Pn entered HELD: the Operator's vector 6 and its Tenant's vector 0 (R72). -/
def State.tellHeld (s : State) (n : Nat) : State := (s.signal 0 6).signal (n + 1) 0

/-- The span of a new image (R491, R492): a worker joins its manager, a manager of one member is READY. -/
def State.startSpan (s : State) (n : Nat) (i : PartImage) : State :=
  match i.span? with
  | none => s
  | some r =>
    let s := s.modSpan n (fun x => { x with st := .joining, joined := [], lostValid := false, reason := 0, lost := 0,
                                            hops := spanHops s i })
    if r.self = 0 then s.readyIfJoined n r else s.sendJoin n

/-- Stage 6 went well: the image stands (R154, R175, R197). -/
def State.installPart (s : State) (n : Nat) (keep held : Bool) (i : PartImage) (ledger : AMap Nat) (ack : List TowerId) : State :=
  let s := { s.reseed with drbgOk := true }
  let s := if keep then s else s.makeKeys n
  let s := s.each (s.partCores n) i.loadCore
  let s := s.modPart n (fun p => { p with st := if held then .held else .active, image := some i, ledger := ledger })
  let s := if held then s.tellHeld n else s
  ((s.startSpan n i).raiseFloors ack).flush n

/-- A hardware fault, or the DRBG's, in stage 6 (R154): the partition is left without an image, its keys go. After a replacing
commit with KEEP the slices still hold the old bytes, and a later commit on the empty partition does not zero them (R154 and
R157 do not say: DESIGN CHOICE, notes/assumptions/24.md). -/
def State.loadFault (s : State) (n : Nat) (keep drbg : Bool) (i : PartImage) : State :=
  let s := if keep then s.discardKeys n else s
  let s := if drbg then { s with drbgOk := false } else s
  s.report { kind := 0x0A, sev := 2, valid := true, part := n, code := 0x50, loc := BitVec.ofNat 32 n,
             detail := BitVec.ofNat 32 i.id }

/-- Stage 6 of a PART_COMMIT: whether it loaded. -/
def State.loadPart (s : State) (n : Nat) (keep : Bool) (i : PartImage) (load : LoadOutcome) (ack : List TowerId) : Bool × State :=
  let replaces := (s.image n).isSome
  let keep := keep && replaces
  let held := s.someHeld
  let ledger := ledgerOf (charges s i)
  let s := if replaces then s.molt n keep else s
  match load with
  | .fault => (false, s.loadFault n keep false i)
  | .drbg => if keep then (true, s.installPart n keep held i ledger ack) else (false, s.loadFault n keep true i)
  | .ok => (true, s.installPart n keep held i ledger ack)

/-- A region of Pn still being overwritten (R160). -/
def State.overwriting (s : State) (n : Nat) : Bool :=
  (s.partRegions n).any (fun r => (List.range 32).any (fun m => (s.part m).ovw.any (fun q => q.meets r)))

/-! ## Loading a frame image (R163, R164) -/

/-- What a frame gives to a partition decides its state (R197); a removed partition keeps only its overwrite. -/
def Frame.stateOf (f : Frame) (n : Nat) (p : Part) : Part :=
  if f.parts.any (fun q => decide (q.part = n)) then { p with st := if p.st = .absent then .empty else p.st }
  else { ovw := p.ovw }

/-- A region's record without its offset. -/
def Frame.regionAt (f : Frame) (i : Nat) : Option RegionRec :=
  (f.regions.find? (fun r => decide (r.index = i))).map (fun r => { r with off := 0 })
def Frame.poolAt (f : Frame) (i : Nat) : Option PoolRec :=
  (f.pools.find? (fun r => decide (r.pool = i))).map (fun r => { r with off := 0 })

/-- The rings that change owner return to their reset values. -/
def State.moveRings (s : State) (old : State) : State :=
  { s with rings := s.rings.filter (fun x => decide (s.ringOwner x.1 = old.ringOwner x.1)) }

/-- The new address policy (R475, R479, R481): an assigned address at once; back at self-claim, a claim where an adjacency is up. -/
def State.applyPolicy (s : State) (old new : Frame) : State :=
  if old.policy = new.policy then s
  else
    s.readdress (fun s =>
      match new.policy with
      | some (1, a) =>
        (({ s with fab := { s.fab with addrState := .assigned, address := a, attempt := 0, since := s.clock } }).sendLsr).settle
      | _ =>
        if old.policy.any (fun x => decide (x.1 = 1)) then
          let s := { s with fab := { s.fab with addrState := .none, address := 0, attempt := 0, db := AMap.put none s.fab.db s.unitId.toNat none } }
          if s.adjacencies = [] then s else s.claimOnAdjacency.sendLsr
        else s)

/-- Stage 6 of a FRAME_COMMIT. -/
def State.loadFrame (s : State) (f : Frame) (ack : List TowerId) : State :=
  let old := s.frame.getD {}
  let changedRegions := (List.range 64).filter (fun i => decide (old.regionAt i ≠ f.regionAt i))
  let s0 := s.each changedRegions (fun s i => (s.farDropRegion i).setRegion i {})
  let lamps := (List.range 12).filter (fun i => (s.lampOwner i).isSome)
  let s1 := { s0 with frame := some f }
  let s1 := s1.releaseLamps (lamps.filter (fun i => decide (s1.lampOwner i ≠ s.lampOwner i)))
  let s1 := s1.each allChans (fun t x =>
    if t.nbuOwner x.1 x.2 = s.nbuOwner x.1 x.2 then t else t.modNbu (64 * x.1 + x.2) Nbu.cleared)
  let s1 := s1.each ((List.range 1024).filter (fun i => decide (old.poolAt i ≠ f.poolAt i))) (fun s i => s.setPool i {})
  let s1 := s1.moveRings s
  let s1 := s1.each (List.range 32) (fun s n => s.modPart n (f.stateOf n))
  (s1.reseed.applyPolicy old f).raiseFloors ack

end Sys2Proof.Machine
end

