-- ==== Sys2Proof/Machine/Mailbox.lean ====
section
/-!
DEFINITION. The staging window (R146-R148), the Operator's mailbox (R75-R81, R96, R97) and its commands (R150-R162, R165-R168,
R458, R556, R606, R607, R620). A command has its effect when it is accepted; MBX_COMMAND_END publishes its outcome.
-/
namespace Sys2Proof

/-- An argument of a mailbox command. -/
def MbxCmd.arg (m : MbxCmd) (i : Nat) : Nat := (m.args.getD i 0).toNat

end Sys2Proof

namespace Sys2Proof.Machine

/-! ## The staging window -/

/-- A commit is BUSY (R147, R148). -/
def State.committing (s : State) : Bool := s.mbx.run.any (fun r => decide (r.opcode = 0x10) || decide (r.opcode = 0x11))

/-- The window cleared (R147). -/
def State.clearStage (s : State) : State := { s with stage := { s.stage with bytes := [], chunks := [], drop := false } }

/-- STAGING_WRITE (R146, R148): what lies beyond 256 MiB is no part of the window. -/
def execStagingWrite (t : Instant) (offset : Nat) (data : Bytes) (s : State) : Result :=
  let s := s.at t
  let data := data.take (0x10000000 - offset)
  if data = [] then .next s
  else if s.committing then .next { s with stage := { s.stage with late := true } }
  else
    let cs := (List.range ((offset + data.length - 1) / 65536 + 1)).filter (fun c => decide (offset / 65536 ≤ c))
    .next { s with stage := { s.stage with bytes := Memory.writeN s.stage.bytes offset data,
                                           chunks := cs.foldl (fun l c => insertNat c l) s.stage.chunks } }

/-! ## Giving a command (R75-R80) -/

/-- CODE of MBX_STATUS (R97). -/
def MBX_BAD_TAG : Nat := 2
def MBX_BAD_ARG : Nat := 3
def MBX_BAD_LENGTH : Nat := 4
def MBX_STATE : Nat := 5
def MBX_REFUSED : Nat := 6

/-- What a command leaves: CODE and RESULT0 to RESULT3, and the state. -/
abbrev Done := Nat × List W32 × State

/-- The command's registers as software composed them (R96). -/
def State.compose (s : State) (opcode : Nat) (m : MbxCmd) : State :=
  { s with mbx := { s.mbx with tag := m.tag, opcode := BitVec.ofNat 32 opcode,
                               args := (List.range 8).foldl (fun a i => AMap.put 0 a i (m.args.getD i 0)) [] } }

/-- An outcome shown at once, with vector 0 (R79). -/
def State.showDone (s : State) (code : Nat) (repeated : Bool) : State :=
  ({ s with mbx := { s.mbx with done := true, code := code, repeated := repeated } }).signal 0 0

/-- MBX_COMMIT written with `v` (R75-R78): refused, ignored, repeated, or accepted: then `body` has its effect and the command
runs until MBX_COMMAND_END. -/
def State.commitWrite (s : State) (v : W32) (body : State → Done) : State :=
  if s.mbx.run.isSome then { s with mbx := { s.mbx with overrun := true } }
  else if v ≠ s.mbx.tag ∨ v = 0 then s.showDone MBX_BAD_TAG false
  else
    match s.mbx.record.find? (fun r => decide (r.1 = v)) with
    | some (_, code, results) =>
      ({ s with mbx := { s.mbx with doneTag := v, results := results } }).showDone code true
    | none =>
      let op := bits s.mbx.opcode.toNat 7 0
      let (code, results, s) := body { s with mbx := { s.mbx with done := false, repeated := false } }
      let run := s.mbx.run.getD {}
      { s with mbx := { s.mbx with run := some { run with tag := v, opcode := op, code := code, results := results } } }

/-- A command's body in Tadpole, where only NOP runs (R80, R101). -/
def operational (body : State → Done) (s : State) : Done := if s.tadpole then (MBX_STATE, [], s) else body s

/-- A mailbox row: the composed registers, then MBX_COMMIT. -/
def State.mailbox (s : State) (opcode : Nat) (m : MbxCmd) (body : State → Done) : State :=
  (s.compose opcode m).commitWrite m.commit body

/-- MBX_COMMAND_END (R78, R79, R90, R147): the window is cleared when a commit that was judged ends, and when a commit ends that
a hot reset or a PF FLR has met; a Molt of the command ends with it (R197). A commit that waits under R160
has not ended. -/
def execMbxCommandEnd (t : Instant) (s : State) : Result :=
  let s := s.at t
  match s.mbx.run with
  | none => .next s
  | some r =>
    if r.parked.isSome then .next s
    else
      let judged := s.stage.drop || (s.committing && (decide (r.code = 0) || decide (r.code = MBX_REFUSED)))
      let s := (if judged then s.clearStage else s).endMolts
      let results := (r.results ++ [0, 0, 0, 0]).take 4
      let s := { s with mbx := { s.mbx with run := none, done := true, code := r.code, doneTag := r.tag, results := results,
                                            record := ((r.tag, r.code, results) :: s.mbx.record).take 64 } }
      .next ((s.countHub 0x31 1 none).signal 0 0)

/-! ## Commits (R151-R168) -/

/-- IMG_STATUS and IMG_OFFSET (R166, R167): RESULT 1 ACCEPTED, 2 REFUSED, 3 LOAD_FAULT. -/
def State.imgStatus (s : State) (opcode part result stage reason off : Nat) : State :=
  { s with img := { s.img with
      status := BitVec.ofNat 32 (2 ^ 24 * opcode + 2 ^ 16 * part + 4096 * result + 256 * stage + reason),
      offset := BitVec.ofNat 32 off } }

/-- ADM_STATUS, ADM_RES, ADM_VALUE, ADM_LIMIT after stage 5 (R168, R194); its duration is a free value. -/
def State.admStatus (s : State) (part : Nat) (r : Option Refused) : State :=
  let e := r.getD { reason := 0, off := 0 }
  { s with
    free := s.free + 1
    img := { s.img with
      admStatus := if r.isSome then BitVec.ofNat 32 (2 ^ 28 * e.check + 2 ^ 24 * e.rkind + 2 ^ 16 * part + e.graph % 4096) else 0,
      admRes := BitVec.ofNat 32 (e.res % 65536), admValue := BitVec.ofNat 64 e.value, admLimit := BitVec.ofNat 64 e.limit,
      admTime := Config.duration s.free } }

/-- IMAGE_ID of the staged image, which RESULT2 returns: the staged bytes 0x10 to 0x13, also of a commit refused before its
header is read, such as TOO_LARGE or INCOMPLETE (R150 does not say what RESULT2 holds then: DESIGN CHOICE,
notes/assumptions/82.md). -/
def State.stagedId (s : State) : W32 := BitVec.ofNat 32 (leNat (Memory.readN s.stage.bytes 0x10 4))

/-- How a commit ends: its code and results (R150, R151, R620). -/
def State.ended (s : State) (opcode part result stage reason off : Nat) : Done :=
  let id := s.stagedId
  (if result = 1 then 0 else MBX_REFUSED,
   [BitVec.ofNat 32 reason, BitVec.ofNat 32 off, id, Config.duration s.free],
   (s.imgStatus opcode part result stage reason off).drawn)

/-- A commit refused at a stage (R151, R152). -/
def State.refusedAt (s : State) (opcode part stage : Nat) (r : Refused) : Done :=
  s.ended opcode part 2 stage r.reason r.off

/-- A commit accepted. -/
def State.accepted (s : State) (opcode part : Nat) : Done := s.ended opcode part 1 7 0 0xFFFFFFFF

/-- A length of 0 or above 256 MiB (R81, R150). -/
def badLength (n : Nat) : Bool := decide (n = 0) || decide (0x10000000 < n)

/-- FRAME_COMMIT's stages (R152). -/
def State.frameStages (s : State) (len : Nat) (ack : List TowerId) : Done :=
  match stage1 s.stage true 0 len with
  | .inr e => s.refusedAt 0x10 0 1 e
  | .inl (img, rs) =>
    match stage2 s.digest img rs with
    | some e => s.refusedAt 0x10 0 2 e
    | none =>
      match stage3Frame s.dk36 img rs with
      | some e => s.refusedAt 0x10 0 3 e
      | none =>
        let f := toFrame img rs
        match stage4Frame s f with
        | some e => s.refusedAt 0x10 0 4 e
        | none =>
          match fitFrame s rs with
          | some e => (s.admStatus 0 (some e)).refusedAt 0x10 0 5 e
          | none => ((s.admStatus 0 none).loadFrame f ack).accepted 0x10 0

/-- FRAME_COMMIT's arguments checked (R150). -/
def State.frameBody (m : MbxCmd) (ack : List TowerId) (s : State) : Done :=
  if badLength (m.arg 1) then (MBX_BAD_LENGTH, [], s) else s.frameStages (m.arg 1) ack

/-- FRAME_COMMIT (R152). -/
def execFrameCommit (t : Instant) (m : MbxCmd) (_load : LoadOutcome) (vrAck : List TowerId) (s : State) : Result :=
  .next ((s.at t).mailbox 0x10 m (operational (State.frameBody m vrAck)))

/-- Stage 6 of a partition commit, and its end. -/
def State.loadStage (s : State) (n : Nat) (keep : Bool) (i : PartImage) (load : LoadOutcome) (ack : List TowerId) : Done :=
  match s.loadPart n keep i load ack with
  | (true, s) => s.accepted 0x11 n
  | (false, s) => s.ended 0x11 n 3 6 0x50 0xFFFFFFFF

/-- SPAN_IDs of the other partition images on the device (R488). -/
def State.spanIds (s : State) (n : Nat) : List Nat :=
  (List.range 32).filterMap (fun m => if m = n then none else (s.spanRec m).map SpanRec.spanId)

/-- PART_COMMIT's stages (R152); a region still being overwritten parks it at the end of stage 5 (R160). -/
def State.partStages (s : State) (n len : Nat) (keep : Bool) (load : LoadOutcome) (ack : List TowerId) : Done :=
  match stage1 s.stage false n len with
  | .inr e => s.refusedAt 0x11 n 1 e
  | .inl (img, rs) =>
    match stage2 s.digest img rs with
    | some e => s.refusedAt 0x11 n 2 e
    | none =>
      match stage3Part n (s.spanIds n) img rs with
      | some e => s.refusedAt 0x11 n 3 e
      | none =>
        let i := toPartImage img rs
        match stage4Part s n i with
        | some e => s.refusedAt 0x11 n 4 e
        | none =>
          match admission s n i with
          | .inr e => (s.admStatus n (some e)).refusedAt 0x11 n 5 e
          | .inl _ =>
            let s := s.admStatus n none
            if s.overwriting n then
              let s := s.imgStatus 0x11 n 0 5 0 0xFFFFFFFF
              (0, [], { s with mbx := { s.mbx with run := some { parked := some { part := n, keep := keep, image := i } } } })
            else s.loadStage n keep i load ack

/-- PART_COMMIT's arguments checked (R150); none while test access is unlocked (R607). A command that ends with BAD_ARG,
BAD_LENGTH or STATE leaves IMG_STATUS and IMG_OFFSET as they are (R167 does not say: DESIGN CHOICE,
notes/assumptions/83.md). -/
def State.partBody (m : MbxCmd) (load : LoadOutcome) (ack : List TowerId) (s : State) : Done :=
  if 31 < m.arg 0 ∨ 1 < m.arg 2 then (MBX_BAD_ARG, [], s)
  else if badLength (m.arg 1) then (MBX_BAD_LENGTH, [], s)
  else if s.test.unlocked then (MBX_STATE, [], s)
  else s.partStages (m.arg 0) (m.arg 1) (bit (m.arg 2) 0) load ack

/-- PART_COMMIT (R152). -/
def execPartCommit (t : Instant) (m : MbxCmd) (load : LoadOutcome) (vrAck : List TowerId) (s : State) : Result :=
  .next ((s.at t).mailbox 0x11 m (operational (State.partBody m load vrAck)))

/-- COMMIT_RESUME (R160): the overwrite has ended, and stage 6 follows. -/
def execCommitResume (t : Instant) (load : LoadOutcome) (vrAck : List TowerId) (s : State) : Result :=
  let s := s.at t
  match s.mbx.run with
  | none => .next s
  | some r =>
    match r.parked with
    | none => .next s
    | some p =>
      if s.overwriting p.part then .next s
      else
        let (code, results, s) := s.loadStage p.part p.keep p.image load vrAck
        .next { s with mbx := { s.mbx with run := some { r with parked := none, code := code, results := results } } }

/-- REGION_OVERWRITE_END (R159): every region that Pn released is overwritten. -/
def execRegionOverwriteEnd (t : Instant) (n : PartId) (s : State) : Result :=
  .next ((s.at t).modPart n.val (fun p => { p with ovw := [] }))

/-! ## The other commands -/

/-- NOP (R80). -/
def execMbxNop (t : Instant) (m : MbxCmd) (s : State) : Result := .next ((s.at t).mailbox 0 m (fun s => (0, [], s)))

/-- MOLT_RELEASE (R150, R157, R161). -/
def State.moltRelease (s : State) (n : Nat) : Done :=
  if 31 < n then (MBX_BAD_ARG, [], s)
  else
    let s := if (s.image n).isSome then ((s.molt n false).releaseLamps (s.partLamps n)).flush n else s
    let s := s.imgStatus 0x12 n 1 7 0 0xFFFFFFFF
    (0, [0, 0, 0, Config.duration s.free], s.drawn)

/-- MOLT_RELEASE (R150, R157). -/
def execMoltRelease (t : Instant) (m : MbxCmd) (s : State) : Result :=
  .next ((s.at t).mailbox 0x12 m (operational (fun s => s.moltRelease (m.arg 0))))

/-- The staging window discarded (R147). -/
def State.discardStage (s : State) : Done := (0, [], s.clearStage.imgStatus 0x13 0 1 7 0 0xFFFFFFFF)

/-- STAGE_DISCARD (R147, R150). -/
def execStageDiscard (t : Instant) (m : MbxCmd) (s : State) : Result :=
  .next ((s.at t).mailbox 0x13 m (operational State.discardStage))

/-- Pn's rings restart and it is ACTIVE again (R458). -/
def State.partRearm (s : State) (n : Nat) : Done :=
  if 31 < n then (MBX_BAD_ARG, [], s)
  else if (s.part n).st ≠ .held then (MBX_STATE, [], s)
  else
    let (s, refused) := s.restartRings n
    let s := (s.flush n).modPart n (fun p => { p with st := .active, barred := false })
    (0, [BitVec.ofNat 32 refused], s.rearmCredits n)

/-- PART_REARM (R458). -/
def execPartRearm (t : Instant) (m : MbxCmd) (s : State) : Result :=
  .next ((s.at t).mailbox 0x20 m (operational (fun s => s.partRearm (m.arg 0))))

/-- The Operator's limit (R556): the results report the limits whatever the code. -/
def State.operatorLimit (s : State) (v : Nat) : Done :=
  let w := v / 25 * 25
  let ok := decide (v < 65536) && s.limitFits w
  let s := if ok then { s with pwr := { s.pwr with opLimit := w } } else s
  (if ok then 0 else MBX_BAD_ARG, [BitVec.ofNat 32 s.limit, BitVec.ofNat 32 s.pwr.opLimit], s)

/-- SET_POWER_LIMIT (R556). -/
def execSetPowerLimit (t : Instant) (m : MbxCmd) (s : State) : Result :=
  .next ((s.at t).mailbox 0x30 m (operational (fun s => s.operatorLimit (m.arg 0))))

/-- IMG_OCCUPIED and IMG_ZEROIZING (R166). -/
def State.occupied (s : State) : Nat := (List.range 32).foldl (fun x n => x + (if (s.image n).isSome then 2 ^ n else 0)) 0
def State.zeroizing (s : State) : Nat := (List.range 32).foldl (fun x n => x + (if (s.part n).ovw = [] then 0 else 2 ^ n)) 0

/-- Test access locked or unlocked (R606, R607). -/
def State.tmxUnlock (s : State) (m : MbxCmd) : Done :=
  if 1 < m.arg 0 ∨ (List.range 7).any (fun i => decide (m.arg (i + 1) ≠ 0)) then (MBX_BAD_ARG, [], s)
  else if m.arg 0 = 0 then (0, [], s.tmxLock)
  else if (s.fuse.map (fun f => f.tmxLevel.toNat)).getD 0 = 1 ∧ s.occupied = 0 ∧ s.zeroizing = 0 then
    (0, [], { s with test := { s.test with unlocked := true } })
  else (MBX_STATE, [], s)

/-- TMX_UNLOCK (R606). -/
def execTmxUnlock (t : Instant) (m : MbxCmd) (s : State) : Result :=
  .next ((s.at t).mailbox 0x40 m (operational (fun s => s.tmxUnlock m)))

end Sys2Proof.Machine
end

