-- ==== Sys2Proof/Machine/BringUp.lean ====
section
/-!
DEFINITION. Bring-up (ch. 04): the always-on steps S0 and S1 (R28, R99, R104), the steps S2 to S9 with their commands (R100-R103,
R114-R116, R122, R123), repair and degradation (R105-R107, R112, R113), soft repairs (R117-R119), the key store (R120, R121).
-/
namespace Sys2Proof.Machine

/-! ## S0 and S1 -/

/-- VAON_WAKE (R99): S0 begins; HUB_RAIL_STAT reads its reset value (R40). -/
def execVaonWake (t : Instant) (s : State) : Result :=
  let s := s.at t
  .next (if s.rails.vaon then s
    else { s with rails := { s.rails with vaon := true, lost := 0 }, bup := { st := .running } })

/-- VAON_LOST (R28): nothing is kept but the levels of input pins. -/
def execVaonLost (t : Instant) (s : State) : Result :=
  let s := s.at t
  .next { State.reset with clock := s.clock, free := s.free, pending := s.pending, out := { s.out with pba := [] },
                           rails := { perstN := s.rails.perstN, refclk := s.rails.refclk } }

/-- Every switched rail is good. -/
def State.allGood (s : State) : Bool := decide (s.rails.good = 0xFF)

/-- S0_COMPLETE (R99): every switched rail is good and REFCLK is stable; S0 ends with vector 1 (R102) and S1 follows by
itself. -/
def execS0Complete (t : Instant) (refclk : Bool) (s : State) : Result :=
  let s := s.at t
  let s := { s with rails := { s.rails with refclk := refclk } }
  .next (if s.rails.vaon ∧ s.allGood ∧ refclk ∧ !s.killed ∧ s.bup.st = .running ∧ s.bup.step = 0 then
    { s with bup := { s.bup with st := .running, step := 1, nxt := 1 } }.signal 0 1 else s)

/-- The mask of the faulty columns of physical row r of tower w. -/
def State.badCols (s : State) (w r : Nat) : BitVec 17 := AMap.get 0 s.bup.bad (16 * w + r)

/-- A site found faulty. -/
def State.markSite (s : State) (w r c : Nat) : State :=
  { s with bup := { s.bup with bad := AMap.put 0 s.bup.bad (16 * w + r) (s.badCols w r ||| BitVec.ofNat 17 (2 ^ c)) } }

def State.markSites (s : State) (l : List Site) : State := s.each l (fun s x => s.markSite x.tower.val x.row.val x.col.val)

/-- Temperatures begin: the dies whose sensors are all mapped count at their maximum (R565, R622). -/
def State.startDies (s : State) : State := s.each (List.range 29) (fun s d => s.dieChanged d false)

/-- S1_FUSE_READ (R102, R104): the first good copy counts, and link training that a PERST_N edge asked for begins (R38);
BUP_STAT reads its reset value 0x0000_A120 (R125), the Operator limit its value at S1 (R556). -/
def execS1FuseRead (t : Instant) (first second : Option FuseMap) (s : State) : Result :=
  let s := s.at t
  if s.bup.st ≠ .running ∨ s.bup.step ≠ 1 then .next s
  else
    match first.orElse (fun _ => second) with
    | none => .next (({ s with bup := { s.bup with st := .failed, code := 0x20, detail := [] } }).signal 0 1)
    | some f =>
      let s := { s with fuse := some f, digest := f.keyDigest.orElse (fun _ => s.digest),
                        bup := { s.bup with st := .done, step := 1, nxt := 2 },
                        link := { s.link with training := s.link.training || s.link.owed, owed := false } }
      let s := (s.signal 0 1).markSites f.faulty
      .next ({ s with pwr := { s.pwr with opLimit := s.defaultPower } }).startDies

/-! ## Soft repairs (R117-R119) -/

/-- An entry of the soft-repair table (R127). -/
def State.srepEntry (s : State) (i : Nat) : W64 := AMap.get 0 s.srep i
def srepKind (e : W64) : Nat := bits e.toNat 63 60
def srepUnit (e : W64) : Nat := bits e.toNat 58 56
def srepRow (e : W64) : Nat := bits e.toNat 55 52
def srepCol (e : W64) : Nat := bits e.toNat 51 47

/-- Rows of a tower in use on the variant (R105). -/
def State.rowsInUse (s : State) : Nat := if s.dk36 then 12 else 16

/-- The entry names something the device has. Every bank and row of a stack that the entry's fields can name counts as present:
the spec gives a stack's rows by cell only (DESIGN CHOICE, notes/assumptions/84.md). -/
def State.srepFits (s : State) (e : W64) : Bool :=
  if srepKind e = 3 then s.stackUp (srepUnit e)
  else decide (srepUnit e % 4 < 4) && !s.bup.towersOff.contains (srepUnit e % 4) && decide (srepRow e < s.rowsInUse)
    && decide (srepCol e ≤ 16)

/-- The entries of a kind, in order. -/
def State.srepOf (s : State) (kind : Nat) : List W64 :=
  ((List.range 64).map s.srepEntry).filter (fun e => decide (srepKind e = kind))

/-- The step that applies `kind` has run to DONE: its entries are counted (R119, R125). -/
def State.countRepairs (s : State) (kind : Nat) : State :=
  let l := s.srepOf kind
  { s with bup := { s.bup with srepUsed := s.bup.srepUsed + (l.filter s.srepFits).length,
                               srepBad := s.bup.srepBad + (l.filter (fun e => !s.srepFits e)).length } }

/-- The core sites that soft repairs name (KIND 1). -/
def State.softSites (s : State) : State :=
  s.each ((s.srepOf 1).filter s.srepFits) (fun s e => s.markSite (srepUnit e % 4) (srepRow e) (srepCol e))

/-- The repairs of a kind in force at its step: the fused ones, then the soft ones that name something present (R113, R119). -/
def State.repairsOf (s : State) (kind : Nat) : List W64 :=
  (((s.fuse.map FuseMap.repairs).getD []).filter (fun e => decide (srepKind e = kind)) ++ s.srepOf kind).filter s.srepFits

/-- A write to BUP_SREP_LO or _HI (R118): only in Tadpole. The entry changes when _HI is written, with the _LO half written
last (R8); reserved bits of _HI stay 0. -/
def State.writeSrep (s : State) (hi : Bool) (v : W32) : State :=
  if !s.tadpole then s
  else if hi then
    let e : W64 := (v &&& 0xF7FF8000) ++ s.loOf pairSrep
    { s with srep := AMap.put 0 s.srep (bits s.bup.srepIdx.toNat 5 0) e }
  else s.keepLo pairSrep v

/-- SOFT_REPAIR_WRITE (R118). -/
def execSoftRepairWrite (t : Instant) (hi : Bool) (v : W32) (s : State) : Result := .next ((s.at t).writeSrep hi v)

/-! ## Sites and groups (R105-R107, R112) -/

/-- Good sites of a physical row. -/
def State.goodSites (s : State) (w r : Nat) : Nat :=
  (List.range 17).countP (fun c => !(s.badCols w r).getLsbD c)

/-- A row in use that cannot seat sixteen columns. -/
def State.shortRow (s : State) (w r : Nat) : Bool :=
  !s.bup.towersOff.contains w && decide (r < s.rowsInUse) && decide (s.goodSites w r < 16)

/-- The rows short of sites, as 16 × tower + row. -/
def State.shortRows (s : State) : List Nat := (List.range 64).filter (fun i => s.shortRow (i / 16) (i % 16))

/-- Core groups that hold a logical position without a site (R107), by bit of GROUPS. -/
def State.lostGroups (s : State) : W64 :=
  s.shortRows.foldl (fun g i =>
    let good := s.goodSites (i / 16) (i % 16)
    ((List.range 16).filter (fun c => decide (good ≤ c))).foldl
      (fun g c => g ||| BitVec.ofNat 64 (2 ^ (16 * (i / 16) + groupAt (i % 16) c))) g) 0

/-- Every unplaced column lies in a group already out of service. -/
def State.groupsCovered (s : State) : Bool := decide (s.lostGroups &&& ~~~s.bup.groupsOff = 0)

/-! ## The end of a step (R101, R102) -/

/-- A step ends: DONE with code 0, FAILED with another; details and PF0 vector 1. -/
def State.endStep (s : State) (code : Nat) (detail : List Nat) : State :=
  let d : AMap W32 := (detail.zipIdx).foldl (fun m x => AMap.put 0 m x.2 (BitVec.ofNat 32 x.1)) []
  ({ s with bup := { s.bup with st := if code = 0 then .done else .failed, code := code, detail := d,
                                nxt := if code = 0 then s.bup.step + 1 else s.bup.nxt } }).signal 0 1

/-- The capability word that a tower sent. -/
def capOf (l : List W64) (n : Nat) : W64 := l.getD n 0

/-- A tower that R109 refuses: its class, or its version. -/
def badClass (c : W64) : Bool := decide (bits c.toNat 15 8 ≠ 1)
def badVersion (c : W64) : Bool := decide (bits c.toNat 7 0 < 1)

/-- Modules of a link lost: hub link n has modules 4n to 4n + 3, ring link n modules 2n and 2n + 1. -/
def lostOn (per : Nat) (l : List Nat) : AMap Nat :=
  (List.range 4).foldl (fun m n => AMap.put 0 m n (l.dedup.countP (fun i => decide (i / per = n)))) []

/-- S2: links and capabilities. -/
def State.endS2 (s : State) (r : StepReport) : State :=
  let caps : AMap W64 := (List.range 4).foldl (fun m n => AMap.put 0 m n (capOf r.caps n)) []
  let s := { s with bup := { s.bup with report := r, caps := caps } }
  let refused := (List.range 4).filter (fun n => badClass (capOf r.caps n) || badVersion (capOf r.caps n))
  let failed := !r.hubModulesFailed.isEmpty || !r.ringModulesFailed.isEmpty
  let code :=
    if failed then 0x30
    else if (List.range 4).any (fun n => badVersion (capOf r.caps n)) then 0x31
    else if !refused.isEmpty then 0x32 else 0
  let first := if r.hubModulesFailed.isEmpty then refused.headD 0 else r.hubModulesFailed.headD 0 / 4
  s.endStep code (if code = 0 then [] else
    [256 * first, maskOf r.hubModulesFailed, maskOf r.ringModulesFailed, maskOf refused])

/-- The details of a step that failed for want of sites: tower and physical row, the mask of its faulty columns. -/
def State.rowDetail (s : State) : List Nat :=
  let i := (s.shortRows.find? (fun i => decide
    (((List.range 16).filter (fun c => decide (s.goodSites (i / 16) (i % 16) ≤ c))).any (fun c =>
      !s.bup.groupsOff.getLsbD (16 * (i / 16) + groupAt (i % 16) c))))).getD 0
  [256 * (i / 16) + i % 16, (s.badCols (i / 16) (i % 16)).toNat]

/-- S3: core sites. Entries are taken as they stand when the step ends, one written while it runs among them (R118 speaks only
of one written after the step has run: DESIGN CHOICE, notes/assumptions/36.md); S4 and S5 do the same. -/
def State.endS3 (s : State) (r : StepReport) : State :=
  let s := s.softSites.markSites r.badSites
  if s.groupsCovered then (s.countRepairs 1).endStep 0 [] else s.endStep 0x40 s.rowDetail

/-- A physical core site as one number. -/
def siteNum (w row col : Nat) : Nat := 272 * w + 17 * row + col

/-- Spare rows and spare columns of a slice bank (R113). -/
def spareRows : Nat := 16
def spareCols : Nat := 2

/-- A spare of the bank taken for a row or a column, while one is left (R113); none otherwise. -/
def takeSpare (l : List SliceRepair) (r : SliceRepair) : Option (List SliceRepair) :=
  let used := l.countP (fun x => decide (x.site = r.site) && decide (x.layer = r.layer) && decide (x.bank = r.bank)
    && decide (x.column = r.column))
  if l.contains r then some l
  else if used < (if r.column then spareCols else spareRows) then some (l ++ [r])
  else none

/-- The slice row that a repair entry of KIND 2 names (R127). -/
def sliceRowOf (e : W64) : SliceRepair :=
  { site := siteNum (srepUnit e % 4) (srepRow e) (srepCol e), layer := bits e.toNat 31 30, bank := bits e.toNat 29 26,
    index := bits e.toNat 10 0 }

/-- What a fault of the test asks to replace; none where rows and columns cannot. -/
def sliceAsks (f : SliceFault) : Option SliceRepair :=
  let r : SliceRepair := { site := siteNum f.site.tower.val f.site.row.val f.site.col.val, layer := f.layer.val, bank := f.bank.val }
  match f.flaw with
  | .row i => some { r with index := i.val }
  | .column i => some { r with column := true, index := i }
  | .whole => none

/-- The faults of the test taken up by spares in turn: the repairs, and the sites whose slice cannot be repaired. -/
def repairSlices : List SliceRepair → List SliceFault → List SliceRepair × List Site
  | l, [] => (l, [])
  | l, f :: fs =>
    match (sliceAsks f).bind (takeSpare l) with
    | some l => repairSlices l fs
    | none =>
      let (l, bad) := repairSlices l fs
      (l, f.site :: bad)

/-- S4 (R112, R113): the fused and soft repairs of KIND 2 are applied while spares are left, then those for the faults the test
finds. A slice that cannot be repaired makes its core faulty; its row shifts onto a spare site, and where the row has none
left the step fails. Every slice is written to zero. -/
def State.endS4 (s : State) (r : StepReport) : State :=
  let given := (s.repairsOf 2).foldl (fun l e => (takeSpare l (sliceRowOf e)).getD l) s.bup.sliceReps
  let (reps, bad) := repairSlices given r.sliceFaults
  let s := ({ s with bup := { s.bup with sliceReps := reps } }).markSites bad
  let s := { s with cores := s.cores.map (fun (x : Nat × Core) => (x.1, { x.2 with slice := [], marks := [] })) }
  let hit := bad.find? (fun x => s.shortRow x.tower.val x.row.val)
  match hit with
  | some x => s.endStep 0x50 [256 * x.tower.val + x.row.val, (s.badCols x.tower.val x.row.val).toNat]
  | none => if s.groupsCovered then (s.countRepairs 2).endStep 0 [] else s.endStep 0x50 s.rowDetail

/-- The stack row that a repair entry of KIND 3 names (R127). -/
def stackRowOf (e : W64) : StackRow :=
  { stack := Fin.ofNat 8 (srepUnit e), pc := Fin.ofNat 64 (bits e.toNat 55 50), bank := Fin.ofNat 32 (bits e.toNat 31 27),
    row := Fin.ofNat 262144 (bits e.toNat 17 0) }

/-- S5: stacks. The fused and soft repairs of KIND 3 replace their rows (R119); a row that the self-test still finds faulty
fails its stack. -/
def State.endS5 (s : State) (r : StepReport) : State :=
  let reps := (s.repairsOf 3).map stackRowOf
  let left := r.badRows.filter (fun x => !reps.contains x)
  let r : StepReport := { r with badStacks := r.badStacks ++ left.map (fun x => (x.stack, StackFail.test)) }
  let s := { s with bup := { s.bup with report := r, stackReps := reps } }
  let has : StackFail → Bool := fun f => r.badStacks.any (fun x => decide (x.2 = f))
  let code : Nat := if has .train then 0x60 else if has .test then 0x61 else if has .capacity then 0x62 else 0
  if code = 0 then (s.countRepairs 3).endStep 0 []
  else s.endStep code [256 * ((r.badStacks.head?.map (fun x => x.1.val)).getD 0), maskOf (r.badStacks.map (fun x => x.1.val))]

/-- S6: regulators, sensors; the power manager armed with the limit of R556. -/
def State.endS6 (s : State) (r : StepReport) : State :=
  match r.silentRegulators with
  | n :: l => s.endStep 0x70 [256 * n.val, maskOf ((n :: l).map Fin.val)]
  | [] =>
    let bad := r.badSensors.filter (fun x => !s.sensorMapped x.1 && decide (x.2 ≠ .none) && decide (x.1 < 560))
    let s := { s with pwr := { s.pwr with armed := true, opLimit := s.pwr.sbLimit.getD s.pwr.opLimit, sbLimit := none } }
    let hot := s.anyBand 3
    let s := s.each bad (fun s x => s.breakSensor x.1 x.2)
    let s := s.each (List.range 29) (fun s d => s.dieChanged d hot)
    s.endStep 0 [0, bad.length]

/-- S7: the ports that trained carry packets; Croaks start. -/
def State.endS7 (s : State) (r : StepReport) : State :=
  let s := s.each (r.portsUp.filter (fun p => s.hasPort p.val)) (fun s p =>
    (s.modPort p.val (fun q => { q with enable := true, link := .up })).fabEvent 0)
  s.endStep 0 []

/-- S8: the time unit on the local oscillator: TIM_NOW and TIM_MONO start at 0 (R535). -/
def State.endS8 (s : State) (r : StepReport) : State :=
  if !r.oscillatorOk then s.endStep 0x90 []
  else
    ({ s with tim := { s.tim with st := .free, s8At := s.clock, at0 := s.clock, base := 0 } }).refreshUnc.endStep 0 []

/-- The digest that BUP_KEYDIG0 to BUP_KEYDIG11 hold (R125). -/
def State.writtenDigest (s : State) : Bytes := (List.range 12).flatMap (fun i => leBytes 4 (AMap.get 0 s.bup.keydig i).toNat)

/-- S9: the entropy source, the key store, the Operator key digest (R120, R121, R207). -/
def State.endS9 (s : State) (r : StepReport) : State :=
  let d := s.writtenDigest
  if !r.entropyOk then s.endStep 0xA2 []
  else if s.digest.isNone ∧ d.all (fun b => decide (b = 0)) then s.endStep 0xA0 []
  else
    let kept := s.digest.getD d
    ({ s with digest := some kept, drbgOk := true,
              bup := { s.bup with keyPresent := true, keyMatch := decide (d = kept) } }).endStep 0 []

/-- BUP_STEP_END (R102, R103): the step that runs ends. -/
def execBupStepEnd (t : Instant) (r : StepReport) (s : State) : Result :=
  let s := s.at t
  if s.bup.st ≠ .running then .next s
  else
    .next (match s.bup.step with
      | 2 => s.endS2 r
      | 3 => s.endS3 r
      | 4 => s.endS4 r
      | 5 => s.endS5 r
      | 6 => s.endS6 r
      | 7 => s.endS7 r
      | 8 => s.endS8 r
      | 9 => s.endS9 r
      | _ => s)

/-! ## Step commands (R100, R114, R115, R122, R123) -/

/-- The first case of R123 that holds for ACTION (0 RUN, 1 RETRY, 2 DEGRADE, 3 SKIP), as CMD_ERR codes it; 0 if none. -/
def State.bupRefusal (s : State) (action step : Nat) : Nat :=
  let failed := decide (s.bup.st = .failed) && decide (s.bup.step = step)
  if 9 < step ∨ step < 2 then 2
  else if s.bup.st = .running then 3
  else if action = 0 ∧ step < s.bup.nxt then 4
  else if step ≠ s.bup.nxt then 1
  else if (action = 2 ∧ !(([2, 3, 4, 5] : List Nat).contains step)) ∨ (action = 3 ∧ step ≠ 7) then 7
  else if (action = 1 ∨ action = 2) ∧ !failed then 8
  else 0

/-- A command accepted: its SEQ stands, CMD_ERR clears (R122, R126). -/
def State.bupAccept (s : State) (seq : Byte) (step : Nat) : State :=
  { s with bup := { s.bup with seq := seq.toNat, cmdErr := 0, step := step } }

/-- A write of BUP_CMD (R122, R123): ignored, refused, or `body`. -/
def State.bupCmd (s : State) (seq : Byte) (action step : Nat) (body : State → State) : State :=
  if seq = 0 then { s with bup := { s.bup with cmdErr := 6 } }
  else if seq.toNat = s.bup.seq then s
  else
    match s.bupRefusal action step with
    | 0 => body s
    | e => { s with bup := { s.bup with cmdErr := e } }

/-- A step begins. -/
def State.bupStart (s : State) (seq : Byte) (step : Nat) : State :=
  let s := s.bupAccept seq step
  { s with bup := { s.bup with st := .running, code := 0 } }

/-- BUP_RUN (R100). -/
def execBupRun (t : Instant) (seq : Byte) (step : BitVec 4) (s : State) : Result :=
  .next ((s.at t).bupCmd seq 0 step.toNat (fun s => s.bupStart seq step.toNat))

/-- BUP_RETRY (R114): the repairs already found are kept. -/
def execBupRetry (t : Instant) (seq : Byte) (step : BitVec 4) (s : State) : Result :=
  .next ((s.at t).bupCmd seq 1 step.toNat (fun s => s.bupStart seq step.toNat))

/-- BUP_SKIP (R100): S7 is DONE at once. -/
def execBupSkip (t : Instant) (seq : Byte) (step : BitVec 4) (s : State) : Result :=
  .next ((s.at t).bupCmd seq 3 step.toNat (fun s => (s.bupAccept seq step.toNat).endStep 0 []))

/-- What DEGRADE would remove from the groups of a tower. -/
def groupsOf (g : W64) (n : Nat) : Nat := (List.range 16).countP (fun i => g.getLsbD (16 * n + i))

/-- DEGRADE of a FAILED step: what it removes, within BUP_FUSE_POLICY (R114, R127); none where it would pass a limit. -/
def State.degraded (s : State) (step : Nat) : Option State :=
  let pol := ((s.fuse.map FuseMap.policy).getD 0).toNat
  let r := s.bup.report
  if step = 2 then
    let hub := lostOn 4 r.hubModulesFailed
    let ring := lostOn 2 r.ringModulesFailed
    let off := (List.range 4).filter (fun n =>
      badClass (s.cap n) || badVersion (s.cap n) || decide (AMap.get 0 hub n = 4))
    let modules := r.hubModulesFailed.dedup.length + r.ringModulesFailed.dedup.length
    if bits pol 13 11 < modules ∨ (off ≠ [] ∧ !bit pol 14) then none
    else some { s with bup := { s.bup with hubLost := hub, ringLost := ring, towersOff := off } }
  else if step = 5 then
    let off := (r.badStacks.map (fun x => x.1.val)).dedup
    if bits pol 10 8 < off.length then none
    else some ({ s with bup := { s.bup with stacksOff := off } }.countRepairs 3)
  else
    let g := s.bup.groupsOff ||| s.lostGroups
    let per := (List.range 4).map (groupsOf g)
    if per.any (fun k => decide (bits pol 3 0 < k)) ∨ bits pol 7 4 < per.sum then none
    else some ({ s with bup := { s.bup with groupsOff := g } }.countRepairs (step - 2))

/-- BUP_DEGRADE (R114, R115). -/
def execBupDegrade (t : Instant) (seq : Byte) (step : BitVec 4) (s : State) : Result :=
  .next ((s.at t).bupCmd seq 2 step.toNat (fun s =>
    match s.degraded step.toNat with
    | none => { s with bup := { s.bup with cmdErr := 5 } }
    | some s =>
      let s := s.bupAccept seq step.toNat
      ({ s with bup := { s.bup with degraded := true } }).endStep 0 []))

end Sys2Proof.Machine
end

