-- ==== Sys2Proof/Machine/HostLink.lean ====
section
/-!
DEFINITION. Rails and resets (R26, R27, R38, R90-R95, R124, R457, R459) and the PCI Express link with its functions and their
configuration space (R67-R71, R74).
-/
namespace Sys2Proof.Machine

/-! ## Rails -/

/-- A rail's bit in `Rails.good` and `Rails.lost` (R40). -/
def Rail.bit (r : Rail) : Nat :=
  match r with
  | .vcore n => n.val
  | .vslice => 4
  | .vnb => 5
  | .vddqNb => 6
  | .vio => 7

/-- RAIL_GOOD (R26). -/
def execRailGood (t : Instant) (r : Rail) (s : State) : Result :=
  let s := s.at t
  if !s.rails.vaon then .next s
  else
    let good := s.rails.good ||| BitVec.ofNat 8 (2 ^ Rail.bit r)
    .next { s with rails := { s.rails with good := good, allGoodAt := if s.rails.good ≠ 0xFF ∧ good = 0xFF then s.clock
                                                                      else s.rails.allGoodAt } }

/-- RAIL_LOSS (R26, R27): a rail that was good; the fall of the rails that follows PWR_KILL_N is no loss (R33). -/
def execRailLoss (t : Instant) (r : Rail) (s : State) : Result :=
  let s := s.at t
  let b := BitVec.ofNat 8 (2 ^ Rail.bit r)
  if !s.rails.vaon ∨ s.rails.good &&& b = 0 then .next s
  else
    let s := { s with rails := { s.rails with good := s.rails.good &&& ~~~b } }
    if s.killed then .next s
    else
      let lost : Rails := { s.rails with lost := s.rails.lost ||| b }
      let s := ({ s with rails := lost }).restart (decide (r ≠ Rail.vio))
      .next (s.alert .rail)

/-! ## PERST_N and link training -/

/-- S1 has read a good fuse map. -/
def State.fused (s : State) : Bool := decide (2 ≤ s.bup.nxt)

/-- S1 failed, which only a power cycle retries (R104). -/
def State.dead (s : State) : Bool := decide (s.bup.st = .failed) && decide (s.bup.step = 1)

/-- PERST_N_ASSERT (R90, R124): bring-up starts again at S0. -/
def execPerstNAssert (t : Instant) (s : State) : Result :=
  let s := s.at t
  let s := { s with rails := { s.rails with perstN := false } }
  .next (if !s.rails.vaon ∨ s.dead then s else s.restart (s.rails.good.getLsbD 7))

/-- PERST_N_DEASSERT (R38): link training begins, or is owed until S1 is DONE. -/
def execPerstNDeassert (t : Instant) (s : State) : Result :=
  let s := s.at t
  let s := { s with rails := { s.rails with perstN := true } }
  .next (if s.powered ∧ s.fused then { s with link := { s.link with training := true } }
    else if s.rails.vaon then { s with link := { s.link with owed := true } } else s)

/-- LINK_TRAIN_TIMEOUT (R38): 100 ms after the last rail is good, where PERST_N stayed high. -/
def execLinkTrainTimeout (t : Instant) (s : State) : Result :=
  let s := s.at t
  .next (if s.powered ∧ s.fused ∧ s.rails.perstN ∧ !s.link.up ∧ s.rails.allGoodAt + 100000000 ≤ s.clock then
    { s with link := { s.link with training := true } } else s)

/-- Held records and events of every partition, where DMA has become possible (R74). -/
def State.flushAll (s : State) : State := s.each (List.range 32) State.flush

/-- PCIE_LINK_UP (R67). -/
def execPcieLinkUp (t : Instant) (speed : BitVec 4) (width : BitVec 6) (s : State) : Result :=
  let s := s.at t
  .next (if s.link.training then
    ({ s with link := { s.link with up := true, training := false, speed := speed, width := width } }).flushAll else s)

/-! ## Resets over the link (R90) -/

/-- A partition stops at a hot reset or a PF FLR: its rings stop, ACTIVE becomes HELD (R197, R457). -/
def State.holdPart (s : State) (n : Nat) : State :=
  let s := s.stopRings n
  if (s.part n).st = .active then (s.modPart n (fun p => { p with st := .held })).tellHeld n else s

/-- A hot reset (1) or a PF FLR (2): configuration space, MSI-X and IDE keys at reset, partitions HELD, the staged image and the
command being composed discarded, the image of a commit that is BUSY when that commit ends (R90, R147). -/
def State.hostReset (s : State) (code : Nat) : State :=
  let s := { s with link := { up := s.link.up, training := s.link.training, owed := s.link.owed, speed := s.link.speed,
                              width := s.link.width, lastReset := code, los := s.link.los },
                    out := { s.out with pba := [] },
                    flt := { s.flt with captures := [] } }
  let s := if s.committing then { s with stage := { s.stage with drop := true } } else s.clearStage
  let s := { s with mbx := { s.mbx with tag := 0, opcode := 0, args := [] } }
  let s := s.each (List.range 32) State.abortSources
  s.each (List.range 32) State.holdPart

/-- HOT_RESET (R90): also a link-down that the host did not request; the link trains again. -/
def execHotReset (t : Instant) (s : State) : Result :=
  let s := s.at t
  if !s.powered ∨ !s.fused then .next s
  else
    let s := s.hostReset 1
    .next { s with link := { s.link with up := false, training := true } }

/-- PF_FLR (R90). -/
def execPfFlr (t : Instant) (s : State) : Result :=
  let s := s.at t
  if !s.powered ∨ !s.fused then .next s else .next (s.hostReset 2)

/-- What a VF FLR ends of one launch: it is aborted and leaves no record; a worker's share reports DONE ABORTED, a manager's
sends ABORT to the members that run it (R93, R497). -/
def State.flrLaunch (s : State) (n : Nat) (l : Launch) : State :=
  let s := s.abortLaunch n l.id 3
  if l.remote then
    match s.launch n l.id with
    | some l => s.endLaunch n l 0x80 0
    | none => s
  else
    let s := if l.owing = [] then s else s.abortMembers n l
    s.modPart n (fun p => { p with launches := p.launches.filter (fun x => decide (x.id ≠ l.id)) })

/-- VF_FLR (R90, R93, R456, R459, R530). -/
def execVfFlr (t : Instant) (n : PartId) (s : State) : Result :=
  let s := s.at t
  if !s.powered ∨ !s.fused then .next s
  else
    let m := n.val
    let s := s.each (s.part m).launches (fun s l => s.flrLaunch m l)
    let s := ((s.freePools m false).closeAll m false).resetRings m
    let s := s.modPart m (fun p => { p with comps := [], rma := { p.rma with events := [] } })
    let mine := fun (k : Nat) => decide (k / 2 ^ 28 = m + 1)
    let link := { s.link with bme := s.link.bme &&& ~~~(BitVec.ofNat 32 (2 ^ m)),
                              captures := s.link.captures.filter (fun x => !mine x.1),
                              msix := s.link.msix.filter (fun x => decide (x.1 / 1024 ≠ m + 1)) }
    .next { s with link := link, out := { s.out with pba := s.out.pba.filter (fun x => decide (x.1 ≠ m + 1)) },
                   flt := { s.flt with captures := s.flt.captures.filter (fun x => decide (x.1 / 256 ≠ m + 1)) } }

/-- VF_ENABLE_CHANGE (R70, R74): what becomes possible is done at once. -/
def execVfEnableChange (t : Instant) (numVfs : Fin 33) (vfEnable : Bool) (bme : W32) (s : State) : Result :=
  let s := s.at t
  .next ({ s with link := { s.link with numVfs := numVfs.val, vfEnable := vfEnable, bme := bme } }).flushAll

/-- What an IDE_KM message does (R69; PRESUMED of PCI Express Base 6.0, notes/assumptions/77.md): a key is programmed, a stream
whose key stands becomes Secure, or a stream stops and its key goes. -/
def Link.idekm (l : Link) : SpdmMsg → Link
  | .keyProg n key => { l with ideKeys := AMap.put [] l.ideKeys n.val key }
  | .keySetGo n => if AMap.get [] l.ideKeys n.val = [] then l else { l with ide := l.ide ||| BitVec.ofNat 5 (2 ^ n.val) }
  | .keySetStop n =>
    { l with ideKeys := AMap.put [] l.ideKeys n.val [], ide := l.ide &&& ~~~(BitVec.ofNat 5 (2 ^ n.val)) }
  | .other => l

/-- DOE_SPDM_MESSAGE (R69), through the DOE mailbox of PF0: streams that met an integrity failure have left Secure, then the
message is handled. -/
def execDoeSpdmMessage (t : Instant) (x : SpdmEvent) (s : State) : Result :=
  let s := s.at t
  .next { s with link := ({ s.link with ide := s.link.ide &&& ~~~x.failed }).idekm x.msg }

/-! ## Configuration space (R68-R71) -/

/-- Vectors of a function (R72). -/
def fnVectors : Fn → Nat
  | .pf => 256
  | .vf _ => 64

/-- A BAR as configuration space declares it (R71). -/
structure BarDecl where
  index : Nat
  size : Nat
  bits64 : Bool := true
  prefetchable : Bool := false
deriving DecidableEq, Repr

/-- What a function's configuration space declares (R68-R72): identity, limits, the capabilities present, BARs, and for PF0 the
SR-IOV and DOE capabilities. -/
structure ConfigSpace where
  vendor : BitVec 16
  device : BitVec 16
  classCode : Nat := 0x120000
  maxPayload : Nat := 512
  maxReadRequest : Nat := 4096
  tagBits : Nat := 14
  aer : Bool := true
  ats : Bool := false
  pri : Bool := false
  pasid : Bool := false
  tdisp : Bool := false
  bars : List BarDecl
  msixVectors : Nat
  doe : Bool := false
  sriov : Bool := false
  totalVfs : Nat := 0
  firstVfOffset : Nat := 0
  vfStride : Nat := 0
  numVfs : Nat := 0
  vfEnable : Bool := false
  busMaster : Bool := false
deriving DecidableEq, Repr

/-- The configuration space of a function. VFs show the Device ID of PF0 (DEDUCED: R68 names the PF's only,
notes/assumptions/33.md). -/
def State.config (s : State) : Fn → ConfigSpace
  | .pf =>
    { vendor := Config.vendorId, device := s.hubId.setWidth 16,
      bars := [{ index := 0, size := 2 ^ 28 }, { index := 2, size := 2 ^ 28, prefetchable := true }, { index := 4, size := 2 ^ 19 }],
      msixVectors := fnVectors .pf, doe := true, sriov := true, totalVfs := 32, firstVfOffset := 1, vfStride := 1,
      numVfs := s.link.numVfs, vfEnable := s.link.vfEnable, busMaster := true }
  | .vf n =>
    { vendor := Config.vendorId, device := s.hubId.setWidth 16,
      bars := [{ index := 0, size := 2 ^ 25 }, { index := 2, size := 2 ^ 32, prefetchable := true }, { index := 4, size := 2 ^ 19 }],
      msixVectors := fnVectors (.vf n), busMaster := s.link.bme.getLsbD n.val }

end Sys2Proof.Machine
end

