-- ==== Sys2Proof/Machine/HubReads.lean ====
section
/-!
DEFINITION. What the registers of the hub blocks read (ch. 21, R614, R616, with the layouts of R39, R40, R96-R98, R125-R127,
R166, R167, R193, R194, R223-R225, R460, R461, R501-R503, R534, R552, R553, R573, R574, R609-R613).
-/
namespace Sys2Proof.Machine

/-- What a register shows to a function: a word; a half of a 64-bit pair (R9); or a count that the read clears, with the
state after (RC, R7, R216). -/
inductive Shown where
  | word (v : Nat)
  | half (hi : Bool) (v : W64)
  | count (v : Nat) (after : State)
deriving DecidableEq, Repr

/-- An offset that no block defines reads 0 (R614). -/
def Shown.none : Shown := .word 0

/-- The two halves of a pair at `lo` and `lo` + 4. -/
def pairAt (lo : Nat) (v : W64) (o : Nat) : Shown := .half (decide (o ≠ lo)) v

/-- A number with fields, each given as value and lowest bit. -/
def fields (l : List (Nat × Nat)) : Nat := l.foldl (fun n x => n + x.1 * 2 ^ x.2) 0

/-- A function's own count (R216). -/
def Dual.of (d : Dual) : Fn → Nat
  | .pf => d.pf
  | .vf _ => d.vf

/-- A read through a function clears its own count only (R216). -/
def Dual.cleared (d : Dual) : Fn → Dual
  | .pf => { d with pf := 0 }
  | .vf _ => { d with vf := 0 }

/-- A table index: `o` lies on entry i of stride `step` from `base`, of `n` entries, at offset `at0` in the entry. -/
def entry (o base step n at0 : Nat) : Option Nat :=
  if base ≤ o ∧ (o - base) % step = at0 ∧ (o - base) / step < n then some ((o - base) / step) else none

/-! ## HUB_, BUP_, MBX_, IMG_, ADM_ -/

/-- SLOW of HUB_LINK (R68, R98). -/
def State.slow (s : State) : Bool := s.link.up && (decide (s.link.speed.toNat < 4) || decide (s.link.width.toNat < 4))

/-- The HUB_ block (R39, R40, R98). -/
def State.hubRead (s : State) (o : Nat) : Shown :=
  match o with
  | 0x000 => .word s.hubId.toNat
  | 0x004 => .word 0x4201
  | 0x010 => .word (fields [(s.rails.good.toNat, 0), (nat s.rails.vaon, 8), (s.rails.lost.toNat, 16)])
  | 0x020 => .word (fields [(s.link.speed.toNat, 0), (s.link.width.toNat, 4), (nat s.slow, 10), (s.link.ide.toNat, 11),
      (s.link.lastReset, 16)])
  | _ => .none

def StepState.num : StepState → Nat
  | .idle => 0
  | .running => 1
  | .done => 2
  | .failed => 3

/-- BUP_STAT (R126). -/
def State.bupStat (s : State) : Nat :=
  fields [(s.bup.cmdErr, 0), (s.bup.nxt, 4), (s.bup.step, 8), (StepState.num s.bup.st, 12), (nat s.bup.degraded, 14),
    (nat s.tadpole, 15), (s.bup.code, 16), (s.bup.seq, 24)]

/-- The groups of Tn in service (R125, R617). -/
def State.groupMask (s : State) (n : Nat) : Nat :=
  (List.range 16).foldl (fun x g => x + (if s.groupUp n g then 2 ^ g else 0)) 0

/-- BUP_MAP_DATA (R105, R125): the row selected, and its good sites. -/
def State.mapData (s : State) : Nat :=
  let w := bits s.bup.mapSel.toNat 9 8
  let r := bits s.bup.mapSel.toNat 3 0
  let used := decide (r < s.rowsInUse)
  fields [((~~~(s.badCols w r)).toNat, 0), (if used then r else 0, 24), (nat used, 31)]

/-- The common set as BUP_CAP_COMMON shows it (R125, R127). -/
def State.commonWord (s : State) : W64 :=
  if s.bup.nxt < 3 then 0 else BitVec.ofNat 64 (s.commonSet.1 + s.commonSet.2 * 2 ^ 32)

/-- The BUP_ block (R125). The groups and stacks in service show from S5 DONE. -/
def State.bupRead (s : State) (o : Nat) : Shown :=
  let shown := decide (6 ≤ s.bup.nxt)
  match o with
  | 0x004 => .word s.bupStat
  | 0x020 => .word (if s.fuse.isSome then (if s.dk36 then 0x36 else 0x48) else 0)
  | 0x024 | 0x028 => pairAt 0x024 s.unitId o
  | 0x02C => .word (((s.fuse.map FuseMap.policy).getD 0).toNat % 2 ^ 15)
  | 0x030 => .word s.bup.mapSel.toNat
  | 0x034 => .word s.mapData
  | 0x040 => .word (if shown then s.groupMask 0 + 2 ^ 16 * s.groupMask 1 else 0)
  | 0x044 => .word (if shown then s.groupMask 2 + 2 ^ 16 * s.groupMask 3 else 0)
  | 0x048 => .word (if shown then (List.range 8).foldl (fun x k => x + (if s.stackUp k then 2 ^ k else 0)) 0 else 0)
  | 0x070 | 0x074 => pairAt 0x070 s.commonWord o
  | 0x080 => .word s.bup.srepIdx.toNat
  | 0x084 | 0x088 => pairAt 0x084 (s.srepEntry (bits s.bup.srepIdx.toNat 5 0)) o
  | 0x08C => .word (fields [(s.bup.srepUsed, 0), (s.bup.srepBad, 16)])
  | 0x0D0 => .word (fields [(nat s.bup.keyPresent, 0), (nat s.bup.keyMatch, 1)])
  | _ =>
    if 0x010 ≤ o ∧ o < 0x020 then .word (AMap.get 0 s.bup.detail ((o - 0x010) / 4)).toNat
    else if 0x050 ≤ o ∧ o < 0x070 then
      let n := (o - 0x050) / 8
      pairAt (0x050 + 8 * n) (s.cap n) o
    else .none

/-- The MBX_ block (R96, R97). -/
def State.mbxRead (s : State) (o : Nat) : Shown :=
  match o with
  | 0x000 => .word s.mbx.tag.toNat
  | 0x004 => .word s.mbx.opcode.toNat
  | 0x044 => .word (fields [(if s.mbx.run.isSome then 1 else if s.mbx.done then 2 else 0, 0), (nat s.mbx.repeated, 2),
      (nat s.mbx.overrun, 4), (s.mbx.code, 8)])
  | 0x048 => .word s.mbx.doneTag.toNat
  | _ =>
    if 0x008 ≤ o ∧ o < 0x028 then .word (AMap.get 0 s.mbx.args ((o - 0x008) / 4)).toNat
    else if 0x050 ≤ o ∧ o < 0x060 then .word (s.mbx.results.getD ((o - 0x050) / 4) 0).toNat
    else .none

/-- MiB of region overwrite remaining (R159, R166): a granule is 256 MiB. -/
def State.ovwMib (s : State) : Nat := 256 * ((List.range 32).map (fun n => ((s.part n).ovw.map RegionRec.size).sum)).sum

/-- The IMG_ block (R166, R167). -/
def State.imgRead (s : State) (o : Nat) : Shown :=
  match o with
  | 0x000 => .word s.img.status.toNat
  | 0x004 => .word s.img.offset.toNat
  | 0x008 => .word (fields [(s.stage.chunks.length, 0), (nat s.stage.late, 16)])
  | 0x00C => .word s.occupied
  | 0x010 => .word s.zeroizing
  | 0x014 => .word ((s.frame.map Frame.id).getD 0)
  | 0x018 => .word s.ovwMib
  | _ => if 0x100 ≤ o ∧ o < 0x180 then .word (((s.image ((o - 0x100) / 4)).map PartImage.id).getD 0) else .none

/-- Pn's late and early counts (R193), at 4-byte steps. -/
def State.lateRead (s : State) (f : Fn) (n i : Nat) : Shown :=
  let p := s.part n
  match i with
  | 0 => .count (p.lateCnt.of f) (s.setPart n { p with lateCnt := p.lateCnt.cleared f })
  | 1 => .count (p.lateWorst.of f) (s.setPart n { p with lateWorst := p.lateWorst.cleared f })
  | 2 => .word p.lateLast.toNat
  | 3 => .count (p.early.of f) (s.setPart n { p with early := p.early.cleared f })
  | _ => .none

/-- The ADM_ block (R193, R194). -/
def State.admRead (s : State) (o : Nat) : Shown :=
  match o with
  | 0x000 => .word s.img.admStatus.toNat
  | 0x004 => .word s.img.admRes.toNat
  | 0x008 | 0x00C => pairAt 0x008 s.img.admValue o
  | 0x010 | 0x014 => pairAt 0x010 s.img.admLimit o
  | 0x018 => .word s.img.admTime.toNat
  | _ =>
    if 0x040 ≤ o ∧ o < 0x080 then .word (((List.range 32).map (fun n => AMap.get 0 (s.part n).ledger ((o - 0x040) / 4))).sum)
    else if 0x100 ≤ o ∧ o < 0x300 then s.lateRead .pf ((o - 0x100) / 16) ((o - 0x100) / 4 % 4)
    else .none

/-! ## PRT_, KEY_ -/

def PState.num : PState → Nat
  | .absent => 0
  | .empty => 1
  | .active => 2
  | .held => 3
  | .molting => 4

/-- The state that PRT_STATEn shows (R197). -/
def Part.state (p : Part) : PState := if p.molting then .molting else p.st

/-- PRT_STATEn (R224). -/
def State.prtState (s : State) (n : Nat) : Nat :=
  let regions := (((s.frame.map Frame.regions).getD []).filter (fun r => decide (r.part = n))).length
  let groups := ((s.partRec n).map PartRec.groups).getD 0
  fields [(PState.num (s.part n).state, 0), (nat (s.partPinned n), 4), (nat ((s.image n).any (fun i => i.span?.isSome)), 5),
    (nat (decide ((s.part n).ovw ≠ [])), 6), ((List.range 64).countP (fun i => groups.getLsbD i), 8), (regions, 16)]

/-- The groups beside boundary i (R199). -/
def boundary (i : Nat) : Nat × Nat := if i < 12 then (4 * (i / 3) + i % 3, 4 * (i / 3) + i % 3 + 1) else (i - 12, i - 8)

/-- Boundary i of Tm is severed (R200). -/
def State.severed (s : State) (m i : Nat) : Bool :=
  let (a, b) := boundary i
  !(s.groupUp m a && s.groupUp m b && (s.groupOwner m a).isSome && decide (s.groupOwner m a = s.groupOwner m b))

/-- VALID and the partition, in a byte (PRT_GOWN, NBS_OWN, R223, R426). -/
def ownerByte : Option Nat → Nat
  | some n => 0x80 + n
  | none => 0

def SlotState.num : SlotState → Nat
  | .empty => 0
  | .live => 1
  | .discarding => 2

/-- The PRT_ and KEY_ blocks (R223). -/
def State.prtRead (s : State) (o : Nat) : Shown :=
  if o < 0x080 then .word (s.prtState (o / 4))
  else if 0x100 ≤ o ∧ o < 0x200 then
    let n := (o - 0x100) / 8
    pairAt (0x100 + 8 * n) (((s.partRec n).map PartRec.groups).getD 0) o
  else if 0x200 ≤ o ∧ o < 0x210 then
    .word ((List.range 24).foldl (fun x i => x + (if s.severed ((o - 0x200) / 4) i then 2 ^ i else 0)) 0)
  else if 0x240 ≤ o ∧ o < 0x280 then
    let m := (o - 0x240) / 16
    let r := (o - 0x240) / 4 % 4
    .word (fields ((List.range 4).map (fun j => (ownerByte (s.groupOwner m (4 * r + j)), 8 * j))))
  else if o = 0x300 then .count s.tagErr { s with tagErr := 0 }
  else if o = 0x304 then .word s.tagErrLast.toNat
  else if o = 0x8000 then
    .word (fields [(nat s.drbgOk, 0), ((List.range 64).countP (fun k => decide ((s.key k).st = .live)), 8)])
  else if 0x8100 ≤ o ∧ o < 0x8200 then
    let k := s.key ((o - 0x8100) / 4)
    .word (fields [(SlotState.num k.st, 0), (if k.st = .empty then 0 else k.part, 8), (k.gen.toNat, 16)])
  else .none

/-- The VF-only registers (R225): PRT_SELF, PRT_APER, PRT_APER_ERR, Pn's late counts (R214) and the readings of R220. -/
def State.selfRead (s : State) (n o : Nat) : Shown :=
  let p := s.part n
  let q := fun src => s.quantised s.window n src
  if o = 0x000 then .word (fields [(s.prtState n % 256, 0), (n, 16)])
  else if o = 0x010 then .word p.aper.toNat
  else if o = 0x014 then .count p.aperErr (s.setPart n { p with aperErr := 0 })
  else if 0x100 ≤ o ∧ o < 0x110 then s.lateRead (.vf (Fin.ofNat 32 n)) n ((o - 0x100) / 4)
  else if 0x200 ≤ o ∧ o < 0x248 then
    let port := (o - 0x200) / 4
    .word (q (0x8000 + 2 * port) + 256 * q (0x8001 + 2 * port))
  else if 0x260 ≤ o ∧ o < 0x2A0 then .word (q (0x8100 + (o - 0x260) / 4))
  else if 0x300 ≤ o ∧ o < 0x700 then .word (q (0x8200 + (o - 0x300) / 4))
  else if o = 0x700 then .word (q 0x8300)
  else if o = 0x704 then .word (s.windows % 2 ^ 32)
  else .none

/-! ## QUE_, FE_, POOL_ -/

/-- QUE_CFG as a function reads it: a VF reads PFVEC as 0 (R73). -/
def Ring.cfgFor (q : Ring) (f : Fn) : Nat :=
  let v := (q.cfg.toNat % 2 ^ 31) + 2 ^ 31 * nat q.enabled
  match f with
  | .pf => v
  | .vf _ => if bit v 26 then v - 2 ^ 26 else v

/-- The QUE_ registers (R460). -/
def State.queRead (s : State) (f : Fn) (o : Nat) : Shown :=
  let sel := match f with
    | .pf => s.pfQueSel
    | .vf n => (s.part n.val).queSel
  if o = 0x000 then .word sel.toNat
  else
    match s.selectedRing f with
    | none => .none
    | some r =>
      let q := s.ring r
      match o with
      | 0x004 => .word (q.cfgFor f)
      | 0x008 => .word q.size.toNat
      | 0x00C => .word q.defc.toNat
      | 0x010 | 0x014 => pairAt 0x010 q.base o
      | 0x018 => .word q.prod
      | 0x01C => .word q.cons
      | 0x020 => .word q.lserial.toNat
      | 0x024 => .word (fields [(nat q.cfull, 0), (nat q.phase, 1), (q.err, 24),
          (if q.stopped then 2 else nat q.enabled, 28)])
      | 0x028 => .word (match f with | .pf => ownerByte (s.ringOwner r) | .vf _ => 0)
      | _ => .none

/-- One of Pn's FE_ registers (R461). -/
def State.fePart (s : State) (f : Fn) (n bank : Nat) : Shown :=
  let p := s.part n
  match bank with
  | 0 => .count (p.dup.of f) (s.setPart n { p with dup := p.dup.cleared f })
  | 1 => .count (p.rej.of f) (s.setPart n { p with rej := p.rej.cleared f })
  | 2 => .word (fields [(p.slots, 0), (p.comps.length, 16)])
  | _ => .none

/-- The FE_ block (R461); in a VF the registers of other partitions read 0 (R460, "Pn's FE_ registers"). -/
def State.feRead (s : State) (f : Fn) (o : Nat) : Shown :=
  if o < 0x180 then
    let n := o / 4 % 32
    match f with
    | .pf => s.fePart f n (o / 0x80)
    | .vf m => if n = m.val then s.fePart f n (o / 0x80) else .none
  else if o = 0x180 then
    match f with
    | .pf => .count s.pfBadDb { s with pfBadDb := 0 }
    | .vf m => .count (s.part m.val).badDb (s.modPart m.val (fun p => { p with badDb := 0 }))
  else .none

/-- A function may reach pool p: PF0 every pool, a VF its partition's (R460). -/
def State.poolSeen (s : State) (f : Fn) (p : Nat) : Bool :=
  match f with
  | .pf => true
  | .vf n => (s.poolRec p).any (fun r => decide (r.part = n.val))

/-- The POOL_ block but POOL_TAKEp (R461). -/
def State.poolRead (s : State) (f : Fn) (o : Nat) : Shown :=
  if o = 0x4000 then
    match f with
    | .pf => .count s.poolErr { s with poolErr := 0 }
    | .vf n => .count (s.part n.val).poolErr (s.modPart n.val (fun p => { p with poolErr := 0 }))
  else if 0x4000 < o ∨ !s.poolSeen f (o / 16) then .none
  else
    let p := o / 16
    match o % 16 with
    | 8 => .word (s.pool p).cfg.toNat
    | 12 => .word (fields [((s.poolFree p).length, 0), ((s.pool p).waiters.length, 24)])
    | _ => .none

/-! ## FAB_, RMA_ -/

def LinkState.num : LinkState → Nat
  | .down => 0
  | .training => 1
  | .up => 2

/-- FAB_PORTp_STAT (R502). -/
def Port.stat (q : Port) : Nat :=
  let seen := q.adjs.any (fun a => !a.mismatch)
  fields [(if q.mode then 0 else ((q.adjs.head?.map Adj.address).getD 0), 0), (q.adjs.length, 16),
    (if seen then 1 else if q.adjs = [] then 0 else 2, 24), (LinkState.num q.link, 29)]

/-- A port group (R502). -/
def State.portRead (s : State) (p o : Nat) : Shown :=
  let q := s.port p
  if !s.hasPort p then .word (if o = 4 then 3 * 2 ^ 29 else 0)
  else
    match o with
    | 0x00 => .word (fields [(q.cost, 0), (nat q.mode, 28), (nat q.enable, 31)])
    | 0x04 => .word q.stat
    | 0x08 | 0x0C => pairAt 0x08 ((q.adjs.head?.map Adj.unit).getD 0) o
    | 0x10 | 0x14 => pairAt 0x10 ((q.adjs.head?.map Adj.cap).getD 0) o
    | 0x28 | 0x2C => pairAt 0x28 (BitVec.ofNat 64 q.tx) o
    | 0x30 | 0x34 => pairAt 0x30 (BitVec.ofNat 64 q.rx) o
    | 0x38 => .count q.missed (s.setPort p { q with missed := 0 })
    | 0x3C => .count q.drop (s.setPort p { q with drop := 0 })
    | _ => if 0x18 ≤ o ∧ o < 0x28 then .word (AMap.get 0 q.ip ((o - 0x18) / 4)).toNat else .none

/-- FAB_RT_DATA (R482, R501): the ports in order from the highest field. -/
def Route.word (r : Route) : Nat :=
  fields ([(r.hops, 20), (r.ports.length, 28), (nat r.valid, 31)]
    ++ (List.range 4).map (fun i => (r.ports.getD i 0, 15 - 5 * i)))

def SpanState.num : SpanState → Nat
  | .none => 0
  | .joining => 1
  | .ready => 2
  | .broken => 3

/-- FAB_SPANn_STAT (R503). -/
def State.spanStat (s : State) (n : Nat) : Nat :=
  let x := (s.part n).span
  let manager := (s.spanRec n).any (fun r => decide (r.self = 0))
  fields [(x.lost, 0), (x.reason, 8), (nat x.lostValid, 15), (if manager then x.joined.length + 1 else 0, 16),
    (nat manager, 28), (SpanState.num x.st, 29)]

/-- A span group (R501). -/
def State.spanRead (s : State) (n i : Nat) : Shown :=
  match i with
  | 0 => .word (s.spanStat n)
  | 1 => .word (((s.spanRec n).map SpanRec.spanId).getD 0)
  | 2 => .count (s.part n).span.losses (s.modSpan n (fun x => { x with losses := 0 }))
  | _ => .word (s.part n).span.gen.toNat

/-- The FAB_ block (R501). -/
def State.fabRead (s : State) (o : Nat) : Shown :=
  let b := s.fab
  match o with
  | 0x000 => .word (fields [(b.address, 0), (b.attempt, 16), (AddrState.code b.addrState, 29)])
  | 0x004 | 0x008 => pairAt 0x004 ownCap o
  | 0x00C => .word b.flowlet.toNat
  | 0x010 => .word b.udp.toNat
  | 0x014 => .word b.rto.toNat
  | 0x020 => .word b.mcast0.toNat
  | 0x024 => .word b.mcast1.toNat
  | 0x028 => .word b.mcast2.toNat
  | 0x02C => .word b.mcast3.toNat
  | 0x030 => .word b.event.toNat
  | 0x034 => .word b.lsrSeq.toNat
  | 0x040 => .word b.rtSel.toNat
  | 0x044 => .word (s.route b.rtSel.toNat).word
  | 0x050 => .count b.retx { s with fab := { b with retx := 0 } }
  | 0x054 => .count b.seqErr { s with fab := { b with seqErr := 0 } }
  | 0x058 => .count b.hopExp { s with fab := { b with hopExp := 0 } }
  | 0x05C => .count b.noRoute { s with fab := { b with noRoute := 0 } }
  | 0x060 => .count b.memberErr { s with fab := { b with memberErr := 0 } }
  | 0x064 => .word s.lsrs.length
  | _ =>
    if 0x100 ≤ o ∧ o < 0x580 then s.portRead ((o - 0x100) / 64) ((o - 0x100) % 64)
    else if 0x800 ≤ o ∧ o < 0xA00 then s.spanRead ((o - 0x800) / 16) (o / 4 % 4)
    else .none

def ConnState.num : ConnState → Nat
  | .closed => 0
  | .connecting => 1
  | .opened => 2
  | .closing => 3

/-- RMA_QROLE (R534): bit r is the ROLE of partition ring r. -/
def State.qrole (s : State) (n : Nat) : W64 :=
  BitVec.ofNat 64 ((List.range 64).foldl (fun x r =>
    x + (match s.absRing n r with | some a => if (s.ring a).cfg.getLsbD 27 then 2 ^ r else 0 | none => 0)) 0)

/-- Pn's RMA_ block (R534). -/
def State.rmaRead (s : State) (f : Fn) (n o : Nat) : Shown :=
  let r := (s.part n).rma
  let c := r.conn r.connSel.toNat
  match o with
  | 0x000 => .word r.connSel.toNat
  | 0x004 => .word (fields [(c.peerAddr, 0), (c.peerPart, 24), (ConnState.num c.st, 29)])
  | 0x008 => .word (fields [(c.eventq, 0), (c.peerConn, 16)])
  | 0x00C => .word (c.granted % 2 ^ 32)
  | 0x010 => .word (c.used % 2 ^ 32)
  | 0x014 => .word (fields [(c.bufUsed % 2 ^ 16, 0), (c.bufGranted % 2 ^ 16, 16)])
  | 0x018 => .word c.atomics
  | 0x020 | 0x024 => pairAt 0x020 (s.qrole n) o
  | 0x600 => .count (r.dup.of f) (s.modRma n (fun r => { r with dup := r.dup.cleared f }))
  | 0x604 => .count (r.access.of f) (s.modRma n (fun r => { r with access := r.access.cleared f }))
  | 0x608 => .count (r.badpeer.of f) (s.modRma n (fun r => { r with badpeer := r.badpeer.cleared f }))
  | 0x60C => .count (r.lost.of f) (s.modRma n (fun r => { r with lost := r.lost.cleared f }))
  | 0x610 => .word (fields [(r.opened.length, 0), (r.reserved, 16)])
  | _ =>
    if 0x100 ≤ o ∧ o < 0x200 then
      let l : Listener := AMap.get {} r.listeners ((o - 0x100) / 16)
      match o % 16 with
      | 0 => .word (fields [(l.port, 0), (nat l.enable, 31)])
      | 4 => .word l.q.toNat
      | 8 => .word (fields [(l.bufs, 0), (l.units, 16)])
      | _ => .none
    else if 0x200 ≤ o ∧ o < 0x600 then
      let w : Window := AMap.get {} r.windows ((o - 0x200) / 16)
      match o % 16 with
      | 0 => .word (fields [(w.region, 0), (w.rights.toNat, 28), (nat w.enable, 31)])
      | 8 => .word w.base
      | 12 => .word w.len
      | _ => .none
    else .none

/-! ## TIM_, THM_, PWR_ -/

def TimState.num : TimState → Nat
  | .off => 0
  | .free => 1
  | .locked => 2
  | .brumation => 3

/-- TIM_STATE (R552). -/
def State.timState (s : State) : Nat :=
  let holding := s.tim.hold.any (fun h => decide (s.corrected < (h : Int)))
  let slewing := decide (slewDone s.tim.slew (s.clock - s.tim.at0) ≠ s.tim.slew)
  fields [(TimState.num s.tim.st, 0), (s.tim.source, 4), (nat s.tim.valid, 8), (nat slewing, 9), (nat holding, 10),
    (s.tim.qualPps, 16), (s.tim.qualPtp, 20)]

/-- What both PF0 and the VFs read of the TIM_ block (R553). -/
def State.timShared (s : State) (o : Nat) : Shown :=
  match o with
  | 0x000 | 0x004 => pairAt 0x000 (if s.tim.st = .off then 0 else s.stamp) o
  | 0x010 => .word s.tim.unc.toNat
  | 0x014 => .word s.timState
  | _ => .none

/-- The TIM_ block (R552). -/
def State.timRead (s : State) (o : Nat) : Shown :=
  let m := s.tim
  match o with
  | 0x008 | 0x00C => pairAt 0x008 (BitVec.ofNat 64 s.mono) o
  | 0x018 => .word m.cfg.toNat
  | 0x01C => .word m.ptpCfg.toNat
  | 0x020 => .word m.uncLimit.toNat
  | 0x024 => .word m.stepLimit.toNat
  | 0x028 => .word m.holdRate.toNat
  | 0x02C => .word m.holdEntry.toNat
  | 0x030 => .word m.srcUnc.toNat
  | 0x034 => .word m.ppsWidth.toNat
  | 0x038 => .word m.event.toNat
  | 0x03C => .word (satNs m.offset).toNat
  | 0x048 => .count m.steps { s with tim := { m with steps := 0 } }
  | 0x04C | 0x050 => pairAt 0x04C (BitVec.ofInt 64 m.lastStep) o
  | 0x054 => .word m.risk.toNat
  | 0x058 => .word (match m.master with
      | some g => fields [(g.stepsRemoved % 256, 0), (g.slavePort % 32, 24), (nat g.valid, 31)]
      | none => 0)
  | 0x05C | 0x060 => pairAt 0x05C ((m.master.map PtpMaster.identity).getD 0) o
  | _ => s.timShared o

/-- A reading in 0.125 °C as 16 bits. -/
def reading16 (r : Int) : Nat := (BitVec.ofInt 16 r).toNat

/-- The sensors found broken (R563). -/
def State.brokenSensors (s : State) : List Nat := (List.range 560).filter s.sensorBroken

/-- The hottest die, the lowest-numbered of those that tie (R573). -/
def State.hottestDie (s : State) : Nat :=
  (List.range 29).foldl (fun b d => if s.dieReading b < s.dieReading d then d else b) 0

/-- The THM_ block (R573). -/
def State.thmRead (s : State) (o : Nat) : Shown :=
  match o with
  | 0x000 => .word (fields [(reading16 (s.dieReading s.hottestDie), 0), (s.hottestDie, 16), (nat (decide (s.brokenSensors ≠ [])), 30),
      (nat (s.anyBand 3), 31)])
  | 0x004 => .word s.pwr.event.toNat
  | 0x008 => .word s.brokenSensors.length
  | 0x010 => .word s.pwr.sensSel.toNat
  | 0x014 =>
    let x := s.pwr.sensSel.toNat
    if 560 ≤ x then .none
    else .word (fields [(reading16 (s.sensor x).reading, 0), (SensorFault.code (s.sensor x).fault, 24),
      (nat (s.sensorMapped x), 30), (nat (s.sensorBroken x), 31)])
  | 0x040 => .word s.trip.cause.toNat
  | 0x044 => .word s.trip.count
  | 0x048 | 0x04C => pairAt 0x048 (BitVec.ofNat 64 ((List.range 58).foldl (fun x i =>
      x + (if s.tripMapped i then 2 ^ i else 0)) 0)) o
  | _ =>
    match entry o 0x100 4 29 0 with
    | some d => .word (fields [(reading16 (s.dieReading d), 0), (s.dieBand d, 28), (nat (s.dieBroken d), 31)])
    | none => .none

/-- The PWR_ block (R574). -/
def State.pwrRead (s : State) (o : Nat) : Shown :=
  match o with
  | 0x000 => .word (fields [(s.pwr.opLimit, 0), (s.limit, 16)])
  | 0x004 => .word s.floorSum
  | 0x008 => .word s.pwr.steps
  | 0x00C => .word (fields [(s.pwr.now, 0),
      ((s.pwr.windows.filter (fun w => decide (s.clock < w.1 + 1000000000))).foldl (fun m w => max m w.2) 0, 16)])
  | 0x010 | 0x014 => pairAt 0x010 (BitVec.ofNat 64 s.pwr.energy) o
  | 0x030 => .count s.pwr.throttles { s with pwr := { s.pwr with throttles := 0 } }
  | _ =>
    match entry o 0x020 4 4 0 with
    | some n => .word (fields [(s.vcore n, 0), (nat (s.pwr.vrFault.getLsbD n), 30), (nat (s.floored n), 31)])
    | none => .none

/-! ## LMP_, EVC_, TMX_, FLT_ -/

/-- The LMP_ block (R598, R612): PF0 reads every lamp, a VF its partition's. -/
def State.lmpRead (s : State) (f : Fn) (o : Nat) : Shown :=
  let i := o / 16
  let l := s.lamp i
  let seen := match f with
    | .pf => decide (i < 12)
    | .vf n => decide (i < 12) && decide (s.lampOwner i = some n.val)
  if !seen then .none
  else
    match o % 16 with
    | 0 => .word (lampWord i (l.pending.getD l.cfg)).toNat
    | 4 => .word (fields [(l.status, 0), ((s.lampOwner i).getD 0, 8), (nat (s.lampOwner i).isSome, 15)])
    | 8 => .count (l.opens.of f) (s.setLamp i { l with opens := l.opens.cleared f })
    | _ => .none

/-- VAL and OVF of a counter as 64 bits (R609). -/
def evcWord (v : Nat) (ovf : Bool) : W64 := BitVec.ofNat 64 (v % 2 ^ 48 + 2 ^ 63 * nat ovf)

/-- A counter group (R609). A VF reads the coarse accumulation of a shared source (R583). -/
def Counter.shown (k : Counter) (f : Fn) (o : Nat) : Shown :=
  let q := match f with
    | .pf => false
    | .vf _ => k.sel.getLsbD 15
  match o with
  | 0x00 => .word k.sel.toNat
  | 0x04 | 0x08 => pairAt 0x04 (if q then evcWord k.qval k.qovf else evcWord k.val k.ovf) o
  | 0x0C | 0x10 => pairAt 0x0C (if q then evcWord k.qsnap k.qsnapOvf else evcWord k.snap k.snapOvf) o
  | _ => .none

/-- A block of `n` counters (R575, R609). -/
def evcRead (m : AMap Counter) (n : Nat) (f : Fn) (o : Nat) : Shown :=
  if o / 32 < n then (AMap.get {} m (o / 32)).shown f (o % 32) else .none

/-- The hub's EVC_ block (R609, R610). -/
def State.hubEvcRead (s : State) (o : Nat) : Shown :=
  match o with
  | 0x800 | 0x804 => pairAt 0x800 s.snap.time o
  | 0x808 => .word s.snap.mask.toNat
  | 0x80C => .word (fields [(s.snap.seq.toNat, 0), (if s.snap.armed then 1 else if s.snap.done then 2 else 0, 30)])
  | 0x810 | 0x814 => pairAt 0x810 s.snap.stamp o
  | _ => evcRead s.evc 64 .pf o

/-- The TMX_ block (R613). -/
def State.tmxRead (s : State) (o : Nat) : Shown :=
  match o with
  | 0x000 => .word (fields [(((s.fuse.map FuseMap.tmxLevel).getD 0).toNat, 0), (nat s.test.unlocked, 31)])
  | 0x010 | 0x014 | 0x018 | 0x01C => .word (AMap.get 0 s.test.outs ((o - 0x010) / 4)).toNat
  | 0x020 => .word s.test.an.toNat
  | 0x030 | 0x034 => .word (AMap.get 0 s.test.ins ((o - 0x030) / 4)).toNat
  | 0x040 => .count s.test.err { s with test := { s.test with err := 0 } }
  | _ => .none

/-- The records a function sees in the log (R592, R593). -/
def State.fltSeen (s : State) (f : Fn) : List FltRec :=
  (s.flt.slots.map (fun (p : Nat × FltRec) => s.viewed f p.2)).filter (fun r => decide (r.kind ≠ 0))

/-- FLT_NEXT (R611): in a view, one more than the SEQ of its newest record. -/
def State.fltNext (s : State) (f : Fn) : Nat :=
  match f with
  | .pf => s.flt.next.toNat
  | .vf _ =>
    let newest := (s.fltSeen f).foldl (fun (b : Option FltRec) r =>
      match b with
      | some x => if (s.flt.next - r.seq).toNat < (s.flt.next - x.seq).toNat then some r else some x
      | none => some r) none
    match newest with
    | some r => (r.seq + 1).toNat
    | none => 0

/-- Words 1 to 7 of a slot (R592): of the record captured; live where this function has captured none. -/
def State.fltWord (s : State) (f : Fn) (i w : Nat) : Nat :=
  let r := (AMap.get none s.flt.captures (256 * fnNum f + i)).getD (s.slotFor f i)
  (r.words.getD w 0).toNat

/-- The FLT_ block and Pn's view (R611); a read of word 0 of a slot is FAULT_RECORD_CAPTURE. -/
def State.fltRead (s : State) (f : Fn) (o : Nat) : Shown :=
  if o = 0x000 then .word (s.fltNext f)
  else if o = 0x004 then .word (s.fltSeen f).length
  else if o = 0x008 then
    match f with
    | .pf => .count s.flt.evicted { s with flt := { s.flt with evicted := 0 } }
    | .vf _ => .none
  else if 0x1000 ≤ o ∧ o < 0x3000 then .word (s.fltWord f ((o - 0x1000) / 32) (o / 4 % 8))
  else .none

end Sys2Proof.Machine
end

