-- ==== Sys2Proof/Machine/CoreReads.lean ====
section
/-!
DEFINITION. What the registers of the towers and the cores read (R63-R66, R259-R261, R283, R314, R315, R350, R369, R396, R426,
R427, R609, R617), where each block lies (R214, R614, R615), and the read of a register (R7, R9, R216).
-/
namespace Sys2Proof.Machine

/-! ## Tower blocks -/

/-- TWR_INFO (R617), once S2 has found the towers. -/
def State.twrInfo (s : State) (n : Nat) : Nat :=
  if s.bup.nxt < 3 then 0 else fields [(s.groupMask n, 0), (nat (!s.bup.towersOff.contains n), 31)]

/-- The cores of Tn in service. -/
def State.towerCores (s : State) (n : Nat) : List Nat := ((List.range 256).map (fun i => 256 * n + i)).filter s.coreUp

/-- SLC_LAYERj (R369): the die beneath layer 0 is the logic die. -/
def State.layerWord (s : State) (n j : Nat) : Nat :=
  let d := 4 + 4 * n + j
  let below := if j = 0 then n else d - 1
  fields [(reading16 (s.dieReading d), 0), (nat (s.dieBroken d), 16), (nat (s.dieBroken below), 17),
    (AMap.get 0 (s.tower n).ceils j, 24), (AMap.get 0 (s.tower n).bands j, 26)]

/-- The SLC_ block of Tn (R369). -/
def State.slcRead (s : State) (n o : Nat) : Shown :=
  let t := s.tower n
  match o with
  | 0x000 => .word t.slcCfg.toNat
  | 0x010 | 0x014 | 0x018 | 0x01C => .word (s.layerWord n ((o - 0x010) / 4))
  | 0x020 => .count t.forced (s.setTower n { t with forced := 0 })
  | 0x030 => .count t.ceCnt (s.setTower n { t with ceCnt := 0 })
  | 0x034 => .word t.ceLast.toNat
  | 0x038 => .count t.ueCnt (s.setTower n { t with ueCnt := 0 })
  | 0x03C => .word t.ueLast.toNat
  | 0x040 =>
    .word (match (s.towerCores n).map (fun c => (s.core c).sweeps) with
      | [] => 0
      | x :: l => l.foldl min x % 2 ^ 32)
  | 0x044 => .word ((s.towerCores n).countP (fun c => (s.core c).lagging))
  | _ => .none

/-- Partitions that own pseudo-channels of a stack (R416). -/
def State.stackOwners (s : State) (k : Nat) : Nat := ((List.range 64).filterMap (fun p => s.nbuOwner k p)).dedup.length

/-- The NBS_ registers of a stack, at `o` in its 0x100 bytes (R426). -/
def State.stackRead (s : State) (k o : Nat) : Shown :=
  let x := s.stack k
  match o with
  | 0x00 => .word (fields [(reading16 (s.dieReading (20 + k)), 0), (nat (s.dieBroken (20 + k)), 16), (x.band, 26),
      (nat (s.stackUp k && decide (6 ≤ s.bup.nxt)), 31)])
  | 0x04 => .word x.cfg.toNat
  | 0x08 => .count x.ceCnt (s.setStack k { x with ceCnt := 0 })
  | 0x0C => .count x.ueCnt (s.setStack k { x with ueCnt := 0 })
  | 0x10 => .word x.ueLast.toNat
  | 0x14 => .count x.forced (s.setStack k { x with forced := 0 })
  | 0x18 => .word (s.stackOwners k * 256)
  | _ =>
    if 0x40 ≤ o ∧ o < 0x80 then
      .word (fields ((List.range 4).map (fun i => (ownerByte (s.nbuOwner k (4 * ((o - 0x40) / 4) + i)), 8 * i))))
    else .none

/-- The NBU that NBS_NBU_SEL of Tn selects. -/
def State.nbuSelected (s : State) (n : Nat) : Nbu :=
  let v := (s.tower n).nbuSel.toNat
  s.nbu (nbuIndex (2 * n + bits v 6 6) (bits v 5 0))

/-- The NBS_ block of Tn (R426). -/
def State.nbsRead (s : State) (n o : Nat) : Shown :=
  if o < 0x200 then s.stackRead (2 * n + o / 0x100) (o % 0x100)
  else
    let u := s.nbuSelected n
    match o with
    | 0x200 => .word (s.tower n).nbuSel.toNat
    | 0x204 => .word (fields [(u.fifo.length, 0), (u.queue.length, 16), (nat (decide (u.queue ≠ [])), 31)])
    | 0x208 => .word (fields [(u.errStatus.toNat, 0), (u.errOp.toNat, 8)])
    | _ => .none

/-- The RGN_ block of Tn (R427). -/
def State.rgnRead (s : State) (n o : Nat) : Shown :=
  let t := s.tower n
  match o with
  | 0x400 => .word (nat t.farEnable)
  | 0x404 => .count t.farHits (s.setTower n { t with farHits := 0 })
  | 0x408 => .count t.farMisses (s.setTower n { t with farMisses := 0 })
  | 0x40C => .count t.farInval (s.setTower n { t with farInval := 0 })
  | _ =>
    if o < 0x400 then
      match s.regionRec (o / 16) with
      | none => .none
      | some r =>
        match o % 16 with
        | 0 => .word (fields [(nat r.farCached, 8), (r.mode, 16), (r.part, 24), (1, 31)])
        | 4 => .word (fields [(r.target.toNat, 0), (r.baseRow, 16)])
        | 8 => .word r.size
        | _ => .none
    else .none

/-! ## Core windows -/

def CoreMode.num : CoreMode → Nat
  | .off => 0
  | .idle => 1
  | .running => 2
  | .waiting => 3
  | .saving => 4
  | .resuming => 5
  | .faulted => 6

/-- CORE_SAVE (R259). -/
def Core.saveWord (k : Core) : Nat :=
  let g (x : Option Ctx) : Nat := (x.map (fun c => c.run.graph)).getD 0
  fields [(nat k.slot0.isSome + nat k.slot1.isSome, 0), (g k.slot0, 2), (g k.slot1, 16)]

/-- A tempo as a function reads it: a VF reads 1,050 of a pinned core (R57). -/
def State.tempoFor (s : State) (f : Fn) (c v : Nat) : Nat :=
  match f with
  | .pf => v
  | .vf _ => if s.pinned c then 1050 else v

/-- A saved context is being restored on core c (R261, R315). -/
def State.restores (s : State) (c : Nat) : Bool := (s.coreOwner c).any (fun n => (s.restoring n c).isSome)

/-- CORE_STATE.STATE (R261). -/
def State.coreState (s : State) (c : Nat) : Nat := CoreMode.num (if s.restores c then .resuming else (s.core c).mode)

/-- The CORE_ registers (R63-R66, R259, R261). -/
def State.coreRegs (s : State) (f : Fn) (c o : Nat) : Shown :=
  let k := s.core c
  match o with
  | 0x0000 => .word (fields [(c, 0), (s.physCol (coreTower c) (coreRow c) (coreCol c), 16), (coreRow c, 24)])
  | 0x0004 => .word (fields [(s.coreState c, 0), (k.last, 4), (k.run.graph, 20)])
  | 0x0008 => .word k.shownPc
  | 0x000C => .word k.run.serial.toNat
  | 0x0010 => .word (fields [(k.fltCause, 0), (k.fltDetail, 8), (nat k.fltPrecise, 16), (nat k.fltValid, 31)])
  | 0x0014 => .word k.fltPc
  | 0x0018 | 0x001C => pairAt 0x0018 k.fltAddr o
  | 0x0020 => .word k.run.vflags.toNat
  | 0x0024 => .word k.saveWord
  | 0x0080 => .word k.tmonCfg.toNat
  | 0x0084 => .word (fields [(s.tempoFor f c k.tempo.toNat, 0), (nat k.tmonValid, 16), (k.tmonCount, 24)])
  | 0x0088 => .word (fields [(s.tempoFor f c k.tmonMin.toNat, 0), (nat k.tmonLow, 16)])
  | 0x008C => .count (fields [(nat (s.pinned c), 0), (k.slips.of f, 16)]) (s.setCore c { k with slips := k.slips.cleared f })
  | 0x00C0 => .word k.csPage.toNat
  | 0x00C4 => .word k.nsPage.toNat
  | _ => .none

/-- ARR_STATE.STATE (R308, R315): while a pre-emption saves the core, the array first drains the strips granted. -/
def State.arrState (s : State) (c : Nat) : Nat :=
  let k := s.core c
  let a := k.run.arr
  if k.mode = .saving then (if k.drained then 3 else 2)
  else if s.restores c then 4
  else if a.stopped then 6
  else if a.pass then 1
  else if a.out.isSome then 5
  else 0

/-- The ARR_ registers (R314, R315). -/
def State.arrRead (s : State) (c o : Nat) : Shown :=
  let a := (s.core c).run.arr
  match o with
  | 0x0400 => .word (match a.cfg with
      | some g => fields [(nat g.mx, 0), (nat g.blk16, 1), (nat g.mixed, 2), (g.wfmt.toNat, 8), (g.nfmt.toNat, 12), (g.strips, 16)]
      | none => 0)
  | 0x0404 => .word (fields [(s.arrState c, 0), (nat a.tile, 4), (a.queue.length, 8)])
  | 0x0408 => .word (fields [(a.strips, 0), (a.real, 16), (nat a.short, 29), (nat a.lost, 30), (nat a.poison, 31)])
  | 0x040C => .word (a.passes % 2 ^ 32)
  | 0x0410 | 0x0414 => pairAt 0x0410 (BitVec.ofNat 64 a.beats) o
  | 0x0418 | 0x041C => pairAt 0x0418 (BitVec.ofNat 64 a.gated) o
  | _ => .none

/-- The SFU_ registers (R350). -/
def Core.sfuRead (k : Core) (o : Nat) : Shown :=
  let u := k.run.sfu
  match o with
  | 0x0600 =>
    let st := match u.queue with
      | [] => 0
      | x :: _ => if x.load then 2 else 1
    .word (fields ([(st, 0), (u.queue.length, 8)] ++ (List.range 4).map (fun t => (nat (k.table t).loaded, 4 + t))))
  | 0x0604 => .word (fields [(u.reason, 0), (u.unit, 8), (nat u.valid, 31)])
  | 0x0608 => .word (match u.rstat with
      | some r => fields [(r.addr, 0), (r.table, 24), (nat r.emit, 29), (nat r.moments, 30), (1, 31)]
      | none => 0)
  | 0x060C => .word (match u.rstat with | some r => r.sigma.toNat | none => 0)
  | 0x0610 => .word (sat32 u.rows)
  | _ =>
    if 0x0620 ≤ o ∧ o < 0x0660 then
      let t := k.table ((o - 0x0620) / 16)
      match o % 16 with
      | 0 => .word (field t.body 0 4)
      | 4 => .word (field t.body 4 4)
      | 8 => .word (fields [(min 0xFFFF t.loads, 0), (nat t.runtime, 30), (nat t.loaded, 31)])
      | _ => .none
    else .none

/-- STR_WIN and STR_NIN (R396). -/
def InletSt.word (x : InletSt) (runs : Bool) : Nat :=
  fields [(x.base.getD 0, 0), (if runs then x.ahead - 1 else min 2 x.ahead, 24), (nat (decide (x.ends ≠ [])), 30), (nat x.poison, 31)]

/-- The STR_ registers (R396). -/
def State.strRead (s : State) (f : Fn) (c o : Nat) : Shown :=
  let k := s.core c
  let r := k.run.str
  match o with
  | 0x0800 => .word (fields [(r.running, 12), (r.queue.length, 16)])
  | 0x0804 => .word (fields [(r.reason, 0), (r.pos, 8), (nat r.leftover, 30), (nat r.valid, 31)])
  | 0x0808 => .word (r.done % 2 ^ 32)
  | 0x080C => .word (r.west.word k.stripRuns)
  | 0x0810 => .word (r.north.word k.stripRuns)
  | 0x0814 => .word (fields [(r.west.tail - r.west.head, 0), (r.north.tail - r.north.head, 16)])
  | 0x0818 => .word k.stallLimit.toNat
  | 0x081C => .count (k.stalls.of f) (s.setCore c { k with stalls := k.stalls.cleared f })
  | 0x0820 | 0x0824 => pairAt 0x0820 (BitVec.ofNat 64 r.bytes) o
  | _ => .none

/-- The CHN_ registers (R283). -/
def State.chnRead (s : State) (f : Fn) (c o : Nat) : Shown :=
  let k := s.core c
  if o = 0x1400 then .count (k.linkErr.of f) (s.setCore c { k with linkErr := k.linkErr.cleared f })
  else if 0x1000 ≤ o ∧ o < 0x1400 then
    let e := k.ep ((o - 0x1000) / 16)
    match o % 16 with
    | 0 => .word (fields [(e.credits, 0), (e.chan, 16), (nat e.packet, 29), (nat e.recv, 30), (nat e.valid, 31)])
    | 4 => .word (fields [(if e.arrivals.length < 256 then e.arrivals.length else (Config.readyByte e.arrivals.length).toNat, 8), (if e.recv then e.posts.length else e.level, 16), (e.st, 24)])
    | 8 => .word (e.count % 2 ^ 32)
    | _ => .word e.epoch.toNat
  else .none

/-- A core window below the page windows. A core out of service reads 0 (R615; DEDUCED, notes/assumptions/17.md). -/
def State.coreRead (s : State) (f : Fn) (c o : Nat) : Shown :=
  if !s.coreUp c then .none
  else if o < 0x0400 then s.coreRegs f c o
  else if o < 0x0600 then s.arrRead c o
  else if o < 0x0800 then (s.core c).sfuRead o
  else if o < 0x1000 then s.strRead f c o
  else if o < 0x2000 then s.chnRead f c o
  else evcRead (s.core c).evc 8 f (o - 0x2000)

/-- The page windows through PF0 (R260). -/
def State.pageShown (s : State) (c o : Nat) : Shown :=
  if s.coreUp c ∧ (s.core c).mode = .off then .word ((s.core c).pageRead o).toNat else .none

/-! ## MSI-X tables (R71) -/

/-- The reset value of a word of an MSI-X table: Vector Control holds Mask 1 (PCI Express; PRESUMED, notes/assumptions/18.md). -/
def msixReset (i : Nat) : W32 := if i % 4 = 3 then 1 else 0

/-- The MSI-X table of a function, at `o` from its base, each entry of four words; 0x1000 behind it the PBA, a bit for each
vector. -/
def State.msixRead (s : State) (f : Fn) (o : Nat) : Shown :=
  let i := o / 4
  if i < 4 * fnVectors f then .word (AMap.get 0 s.link.msix (1024 * fnNum f + i) ^^^ msixReset i).toNat
  else if 0x1000 ≤ o ∧ o < 0x1000 + fnVectors f / 8 then
    .word (maskOf (((s.out.pba.filter (fun x => decide (x.1 = fnNum f) && decide (x.2 / 32 = (o - 0x1000) / 4))).map
      (fun x => x.2 % 32))))
  else .none

/-! ## Where the blocks lie (R214, R614, R615) -/

/-- A register by its place: what a function's BAR0 offset names. -/
inductive Place where
  | hub (block : Nat) (o : Nat)
  | self (o : Nat)
  | tower (n : Nat) (block : Nat) (o : Nat)
  | core (c : Nat) (o : Nat)
  | msix (o : Nat)
  | nothing
deriving DecidableEq, Repr

/-- PF BAR0 (R614, R615). -/
def pfPlace (a : Nat) : Place :=
  if a < 0x100000 then .hub (a / 0x10000) (a % 0x10000)
  else if a < 0x01000000 then .nothing
  else if a < 0x05000000 then
    let n := a / 0x01000000 - 1
    let o := a % 0x01000000
    if 0x400000 ≤ o then .core (256 * n + (o - 0x400000) / 0x10000) (o % 0x10000)
    else if o < 0x50000 then .tower n (o / 0x10000) (o % 0x10000)
    else .nothing
  else if a < 0x06000000 then
    let o := a - 0x05000000
    .core (256 * (o / 0x400000) + 0xC0 + o % 0x400000 / 0x10000) (o % 0x10000)
  else if 0x0F000000 ≤ a ∧ a < 0x10000000 then .msix (a - 0x0F000000)
  else .nothing

/-- VF BAR0 (R214): its blocks as those of PF0, by the base PF0 gives them. -/
def vfPlace (a : Nat) : Place :=
  if a < 0x1000 then .self a
  else if a < 0x10000 then .nothing
  else if a < 0x20000 then .hub 0xF (a - 0x10000)
  else if a < 0x30000 then .hub 6 (a - 0x20000)
  else if a < 0x40000 then .hub 7 (a - 0x30000)
  else if a < 0x50000 then .hub 9 (a - 0x40000)
  else if a < 0x60000 then .hub 0xA (a - 0x50000)
  else if a < 0x70000 then .hub 0xC (a - 0x60000)
  else if 0x80000 ≤ a ∧ a < 0x90000 then .msix (a - 0x80000)
  else if 0x01000000 ≤ a ∧ a < 0x02000000 then .core ((a - 0x01000000) / 0x4000) (a % 0x4000)
  else .nothing

/-- The place of an offset; only whole registers have one. -/
def placeOf (f : Fn) (a : Nat) : Place :=
  if a % 4 ≠ 0 then .nothing
  else
    match f with
    | .pf => pfPlace a
    | .vf _ => vfPlace a

/-- Pn's RMA_ block lies at 0x9_0000 + 0x1000 × n (R534, R614). From P16 on that falls in the TIM_ block's 64 KiB, where the
TIM_ registers, below 0x64, come first (DESIGN CHOICE, notes/assumptions/16.md). -/
def rmaPlace (block o : Nat) : Option (Nat × Nat) :=
  if block = 0x9 then some (o / 0x1000, o % 0x1000)
  else if block = 0xA ∧ 0x64 ≤ o then some (16 + o / 0x1000, o % 0x1000)
  else none

/-- A hub block read through PF0 (R614). -/
def State.pfHubRead (s : State) (block o : Nat) : Shown :=
  match block with
  | 0x0 => s.hubRead o
  | 0x1 => s.bupRead o
  | 0x2 => s.mbxRead o
  | 0x3 => s.imgRead o
  | 0x4 => s.admRead o
  | 0x5 => s.prtRead o
  | 0x6 => if o < 0x8000 then s.queRead .pf o else s.feRead .pf (o - 0x8000)
  | 0x7 => s.poolRead .pf o
  | 0x8 => s.fabRead o
  | 0xA => s.timRead o
  | 0xB => if o < 0x8000 then s.thmRead o else s.pwrRead (o - 0x8000)
  | 0xC => s.lmpRead .pf o
  | 0xD => s.hubEvcRead o
  | 0xE => s.tmxRead o
  | 0xF => s.fltRead .pf o
  | _ => .none

/-- A block read through VF(n+1) (R214, R553). -/
def State.vfHubRead (s : State) (n : PartId) (block o : Nat) : Shown :=
  match block with
  | 0x6 => if o < 0x8000 then s.queRead (.vf n) o else s.feRead (.vf n) (o - 0x8000)
  | 0x7 => s.poolRead (.vf n) o
  | 0x9 => s.rmaRead (.vf n) n.val o
  | 0xA => s.timShared o
  | 0xC => s.lmpRead (.vf n) o
  | 0xF => s.fltRead (.vf n) o
  | _ => .none

/-- A tower block (R614). -/
def State.towerRead (s : State) (n block o : Nat) : Shown :=
  match block with
  | 0 => if o = 0 then .word (s.twrInfo n) else .none
  | 1 => evcRead (s.tower n).evc 16 .pf o
  | 2 => s.slcRead n o
  | 3 => s.nbsRead n o
  | _ => s.rgnRead n o

/-- What a function's BAR0 shows at an offset. -/
def State.shown (s : State) (f : Fn) (a : Nat) : Shown :=
  match placeOf f a, f with
  | .hub b o, .vf n => s.vfHubRead n b o
  | .self o, .vf n => s.selfRead n.val o
  | .core c o, .vf n => if s.coreOwner c = some n.val then s.coreRead f c o else .none
  | .hub b o, .pf =>
    match rmaPlace b o with
    | some (n, o) => s.rmaRead .pf n o
    | none => s.pfHubRead b o
  | .core c o, .pf => if o < 0x4000 then s.coreRead .pf c o else s.pageShown c o
  | .tower n b o, .pf => s.towerRead n b o
  | .msix o, _ => s.msixRead f o
  | _, _ => .none

/-- A read of a register (R7, R9, R216): a read of _LO captures the pair for this function; _HI shows the captured upper
half, or the live one where nothing is captured; a count clears. -/
def State.readReg (s : State) (f : Fn) (a : Nat) : State :=
  match s.shown f a with
  | .word v => s.readsWord (BitVec.ofNat 32 v)
  | .half false v =>
    ({ s with link := { s.link with captures := AMap.put none s.link.captures (regKey f a) (some v) } }).readsWord (v.setWidth 32)
  | .half true v =>
    s.readsWord ((((AMap.get none s.link.captures (regKey f (a - 4))).getD v) >>> 32).setWidth 32)
  | .count v s => s.readsWord (BitVec.ofNat 32 v)

end Sys2Proof.Machine
end

