-- ==== Sys2Proof/Machine/RegisterMap.lean ====
section
/-!
DEFINITION. Writes of registers by their access type (R7, R8, R10, R214, R215, R614), the register rows of the table, and link
recalibration (R12). A write that has a row of its own is that row's command.
-/
namespace Sys2Proof.Machine

/-! ## Blocks of the hub -/

/-- BUP_CMD (R122, R126). -/
def State.bupCommand (s : State) (t : Instant) (v : W32) : Result :=
  let seq := v.extractLsb' 24 8
  let step := v.extractLsb' 0 4
  match bits v.toNat 5 4 with
  | 0 => execBupRun t seq step s
  | 1 => execBupRetry t seq step s
  | 2 => execBupDegrade t seq step s
  | _ => execBupSkip t seq step s

/-- The BUP_ block. -/
def State.bupWrite (s : State) (t : Instant) (o : Nat) (v : W32) : Result :=
  if o = 0x000 then s.bupCommand t v
  else if o = 0x030 then .next { s with bup := { s.bup with mapSel := v &&& 0x30F } }
  else if o = 0x080 then .next { s with bup := { s.bup with srepIdx := v &&& 0x3F } }
  else if o = 0x084 ∨ o = 0x088 then .next (s.writeSrep (decide (o = 0x088)) v)
  else if 0x0A0 ≤ o ∧ o < 0x0D0 then
    .next { s with bup := { s.bup with keydig := AMap.put 0 s.bup.keydig ((o - 0x0A0) / 4) v } }
  else .next s

/-- The command that MBX_OPCODE names, with the arguments composed (R80); an opcode outside the list is BAD_OPCODE. The load of
a partition image meets no fault here and every regulator acknowledges. -/
def State.mbxBody (s : State) : State → Done :=
  let m : MbxCmd := { tag := s.mbx.tag, args := (List.range 8).map (fun i => AMap.get 0 s.mbx.args i), commit := s.mbx.tag }
  let ack := List.finRange 4
  match bits s.mbx.opcode.toNat 7 0 with
  | 0x00 => fun s => (0, [], s)
  | 0x10 => operational (State.frameBody m ack)
  | 0x11 => operational (State.partBody m .ok ack)
  | 0x12 => operational (fun s => s.moltRelease (m.arg 0))
  | 0x13 => operational State.discardStage
  | 0x20 => operational (fun s => s.partRearm (m.arg 0))
  | 0x30 => operational (fun s => s.operatorLimit (m.arg 0))
  | 0x40 => operational (fun s => s.tmxUnlock m)
  | _ => fun s => (1, [], s)

/-- The MBX_ block (R75, R96, R97). -/
def State.mbxWrite (s : State) (o : Nat) (v : W32) : State :=
  if o = 0x000 then { s with mbx := { s.mbx with tag := v } }
  else if o = 0x004 then { s with mbx := { s.mbx with opcode := v &&& 0xFF } }
  else if 0x008 ≤ o ∧ o < 0x028 then { s with mbx := { s.mbx with args := AMap.put 0 s.mbx.args ((o - 0x008) / 4) v } }
  else if o = 0x040 then s.commitWrite v s.mbxBody
  else if o = 0x044 then { s with mbx := { s.mbx with overrun := s.mbx.overrun && !v.getLsbD 4 } }
  else s

/-- The FAB_ block (R501, R502): a write of 0 to FAB_RTO is ignored. -/
def State.fabWrite (s : State) (t : Instant) (o : Nat) (v : W32) : Result :=
  let b := s.fab
  let low := v &&& 0xFFFF
  match o with
  | 0x00C => .next { s with fab := { b with flowlet := low } }
  | 0x010 => .next { s with fab := { b with udp := low } }
  | 0x014 => .next (if low = 0 then s else { s with fab := { b with rto := low } })
  | 0x020 => .next { s with fab := { b with mcast0 := v } }
  | 0x024 => .next { s with fab := { b with mcast1 := v } }
  | 0x028 => .next { s with fab := { b with mcast2 := v } }
  | 0x02C => .next { s with fab := { b with mcast3 := v } }
  | 0x030 => .next { s with fab := { b with event := b.event &&& ~~~v } }
  | 0x040 => .next { s with fab := { b with rtSel := low } }
  | _ =>
    if 0x100 ≤ o ∧ o < 0x580 then
      let p := (o - 0x100) / 64
      let o := (o - 0x100) % 64
      if o = 0 then execPortEnable t (Fin.ofNat 18 p) v s
      else if 0x18 ≤ o ∧ o < 0x28 ∧ s.hasPort p then .next (s.modPort p (fun q => { q with ip := AMap.put 0 q.ip ((o - 0x18) / 4) v }))
      else .next s
    else .next s

/-- The TIM_ block (R551, R552): a write outside a register's range, or of 0 to a Refused field, is ignored. -/
def State.timWrite (s : State) (t : Instant) (o : Nat) (v : W32) : Result :=
  let m := s.tim
  match o with
  | 0x018 => execTimCfgWrite t v s
  | 0x01C => .next { s with tim := { m with ptpCfg := v &&& 0x01FFFFFF } }
  | 0x020 => .next (if v = 0 then s else { s with tim := { m with uncLimit := v } }.refreshUnc)
  | 0x024 => .next (if v = 0 then s else { s with tim := { m with stepLimit := v } })
  | 0x028 => .next (if v = 0 then s else { s with tim := { m with holdRate := v } }.refreshUnc)
  | 0x02C => .next { s with tim := { m with holdEntry := v } }.refreshUnc
  | 0x030 => .next { s with tim := { m with srcUnc := v } }.refreshUnc
  | 0x034 => .next (if v.toNat < 100 ∨ 400 < v.toNat then s else { s with tim := { m with ppsWidth := v } })
  | 0x038 => .next { s with tim := { m with event := m.event &&& ~~~v } }
  | 0x040 => .next (s.keepLo pairTimSet v)
  | 0x044 => execTimSet t v s
  | _ => .next s

/-- The hub's EVC_ block (R609, R610). -/
def State.hubEvcWrite (s : State) (t : Instant) (o : Nat) (v : W32) : Result :=
  if o = 0x800 then .next (s.keepLo pairSnapTime v)
  else if o = 0x804 then execSnapshotArm t v s
  else if o = 0x808 then .next { s with snap := { s.snap with mask := v } }
  else if o < 0x800 ∧ o % 32 = 0 then execCounterSelectWrite t none (Fin.ofNat 64 (o / 32)) v s
  else .next s

/-- The hub blocks that only PF0 sees; a write anywhere else is ignored (R614). -/
def State.pfWrite (s : State) (t : Instant) (block o : Nat) (v : W32) : Result :=
  match block with
  | 0x0 => .next (if o = 0x010 then { s with rails := { s.rails with lost := s.rails.lost &&& ~~~(v.extractLsb' 16 8) } } else s)
  | 0x1 => s.bupWrite t o v
  | 0x2 => .next (s.mbxWrite o v)
  | 0x3 => .next (if o = 0x008 then { s with stage := { s.stage with late := s.stage.late && !v.getLsbD 16 } } else s)
  | 0x8 => s.fabWrite t o v
  | 0xA => s.timWrite t o v
  | 0xB =>
    if o = 0x004 then .next { s with pwr := { s.pwr with event := s.pwr.event &&& ~~~v } }
    else if o = 0x010 then .next { s with pwr := { s.pwr with sensSel := v &&& 0x3FF } }
    else if o = 0x040 ∧ v.getLsbD 31 then execTripCauseClear t s
    else .next s
  | 0xD => s.hubEvcWrite t o v
  | 0xE => execTmxSelectWrite t o v s
  | 0xF => if o = 0x00C then execFaultLogClear t v s else .next s
  | _ => .next s

/-! ## Blocks that PF0 and the VFs share -/

/-- The QUE_ registers (R431, R460): a field other than QUE_CFG of an enabled ring does not change, and ERR reads BUSY. -/
def State.queWrite (s : State) (t : Instant) (f : Fn) (o : Nat) (v : W32) : Result :=
  if o = 0x000 then
    .next (match f with
      | .pf => { s with pfQueSel := v &&& 0xFFFF }
      | .vf n => s.modPart n.val (fun p => { p with queSel := v &&& 0xFFFF }))
  else if o = 0x004 then execRingEnable t f v s
  else
    match s.selectedRing f with
    | none => .next s
    | some r =>
      let q := s.ring r
      if ¬(o = 0x008 ∨ o = 0x00C ∨ o = 0x010 ∨ o = 0x014 ∨ o = 0x020) then .next s
      else if q.enabled ∧ !(q.stopped ∧ (o = 0x010 ∨ o = 0x014)) then .next (s.setRing r { q with err := 5 })
      else
        match o with
        | 0x008 => .next (s.setRing r { q with size := v &&& 0x1FFFF })
        | 0x00C => .next (s.setRing r { q with defc := v &&& 0xFFFF })
        | 0x010 => .next (s.keepLo (pairQueBase r) v)
        | 0x014 => .next (s.setRing r { q with base := v ++ s.loOf (pairQueBase r) })
        | _ => .next (s.setRing r { q with lserial := v })

/-- The POOL_ block (R454, R461). -/
def State.poolWrite (s : State) (t : Instant) (f : Fn) (o : Nat) (v : W32) : Result :=
  let p := o / 16
  if 0x4000 ≤ o then .next s
  else if o % 16 = 4 then execPoolFree t f (Fin.ofNat 1024 p) v s
  else if o % 16 = 8 ∧ s.poolSeen f p then .next (s.modPool p (fun x => { x with cfg := v &&& 0x8000FFFF }))
  else .next s

/-- RMA_QROLE (R534): the ROLE of each of Pn's first 64 rings that is disabled. -/
def State.setQrole (s : State) (n : Nat) (v : W64) : State :=
  s.each (List.range 64) (fun s r =>
    match s.absRing n r with
    | none => s
    | some a =>
      s.modRing a (fun q => if q.enabled then q else
        { q with cfg := if v.getLsbD r then q.cfg ||| 0x08000000 else q.cfg &&& 0xF7FFFFFF }))

/-- A listener's registers (R534): the enable of one with UNITS 0 is ignored. -/
def Listener.write (l : Listener) (o : Nat) (v : W32) : Listener :=
  match o with
  | 0 => { l with enable := if v.getLsbD 31 ∧ l.units = 0 then l.enable else v.getLsbD 31, port := bits v.toNat 15 0 }
  | 4 => { l with q := v &&& 0x03FFFFFF }
  | 8 => { l with units := bits v.toNat 28 16, bufs := bits v.toNat 7 0 }
  | _ => l

/-- A window's registers (R534): the enable of one with LENGTH 0 is ignored. -/
def Window.write (w : Window) (o : Nat) (v : W32) : Window :=
  match o with
  | 0 => { w with enable := if v.getLsbD 31 ∧ w.len = 0 then w.enable else v.getLsbD 31, rights := v.extractLsb' 28 3,
                  region := bits v.toNat 5 0 }
  | 4 => { w with key := v }
  | 8 => { w with base := bits v.toNat 27 0 }
  | _ => { w with len := bits v.toNat 27 0 }

/-- Pn's RMA_ block (R534). -/
def State.rmaWrite (s : State) (n o : Nat) (v : W32) : State :=
  if o = 0x000 then s.modRma n (fun r => { r with connSel := v &&& 0xFFF })
  else if o = 0x020 then s.keepLo (pairQrole n) v
  else if o = 0x024 then s.setQrole n (v ++ s.loOf (pairQrole n))
  else if 0x100 ≤ o ∧ o < 0x200 then
    s.modRma n (fun r =>
      let l : Listener := AMap.get {} r.listeners ((o - 0x100) / 16)
      { r with listeners := AMap.put {} r.listeners ((o - 0x100) / 16) (l.write (o % 16) v) })
  else if 0x200 ≤ o ∧ o < 0x600 then
    s.modRma n (fun r =>
      let w : Window := AMap.get {} r.windows ((o - 0x200) / 16)
      { r with windows := AMap.put {} r.windows ((o - 0x200) / 16) (w.write (o % 16) v) })
  else s

/-- The LMP_ block (R612). -/
def State.lmpWrite (s : State) (t : Instant) (f : Fn) (o : Nat) (v : W32) : Result :=
  if o % 16 = 0 ∧ o / 16 < 12 then execLampCfgWrite t f (Fin.ofNat 12 (o / 16)) v s else .next s

/-- A vector unmasked: its pending message goes out (R71). -/
def State.unpend (s : State) (fn vec : Nat) : State :=
  if s.out.pba.contains (fn, vec) && !s.vecMasked fn vec then
    { s with out := { s.out with pba := s.out.pba.filter (fun x => decide (x ≠ (fn, vec))), msix := s.out.msix ++ [(fn, vec)] } }
  else s

/-- A word of a function's MSI-X table (R71). -/
def State.msixWrite (s : State) (f : Fn) (o : Nat) (v : W32) : State :=
  let i := o / 4
  if i < 4 * fnVectors f then
    ({ s with link := { s.link with msix := AMap.put 0 s.link.msix (1024 * fnNum f + i) (v ^^^ msixReset i) } }).unpend
      (fnNum f) (i / 4)
  else s

/-! ## Towers and cores -/

/-- The tower blocks (R369, R402, R426, R609). -/
def State.towerWrite (s : State) (t : Instant) (n block o : Nat) (v : W32) : Result :=
  match block with
  | 1 => if o < 0x200 ∧ o % 32 = 0 then execCounterSelectWrite t (some (Fin.ofNat 4 n)) (Fin.ofNat 64 (o / 32)) v s else .next s
  | 2 => .next (if o = 0 then s.modTower n (fun x => { x with slcCfg := v &&& 0xFFF }) else s)
  | 3 =>
    .next (if o = 0x004 ∨ o = 0x104 then s.modStack (2 * n + o / 0x100) (fun x => { x with cfg := v &&& 0xFF })
      else if o = 0x200 then s.modTower n (fun x => { x with nbuSel := v &&& 0x7F })
      else s)
  | 4 => if o = 0x400 then execFarCacheCfgWrite t (Fin.ofNat 4 n) v s else .next s
  | _ => .next s

/-- A core window through PF0 (R63, R65, R259, R260, R396). -/
def State.coreWrite (s : State) (t : Instant) (c o : Nat) (v : W32) : Result :=
  if !s.coreUp c then .next s
  else if 0x4000 ≤ o then execPageWindowAccess t (Fin.ofNat 1024 c) o (some v) s
  else
    match o with
    | 0x0080 => .next (s.modCore c (fun k => { k with tmonCfg := v &&& 0x0FFF0003 }))
    | 0x0088 => if v.getLsbD 16 then execTmonMinClear t (Fin.ofNat 1024 c) s else .next s
    | 0x00C0 => .next (s.modCore c (fun k => { k with csPage := v &&& 3 }))
    | 0x00C4 => .next (s.modCore c (fun k => { k with nsPage := v &&& 0xF }))
    | 0x0818 => .next (s.modCore c (fun k => { k with stallLimit := v &&& 0xFFFFF }))
    | _ => .next s

/-! ## The register rows -/

/-- The blocks that both PF0 and the VFs write; the rest of the hub is PF0's (R214). -/
def State.hubWrite (s : State) (t : Instant) (f : Fn) (block o : Nat) (v : W32) : Result :=
  match block, f with
  | 0x6, _ => if o < 0x8000 then s.queWrite t f o v else .next s
  | 0x7, _ => s.poolWrite t f o v
  | 0xC, _ => s.lmpWrite t f o v
  | 0x9, .vf n => .next (s.rmaWrite n.val o v)
  | _, .vf _ => .next s
  | b, .pf =>
    match rmaPlace b o with
    | some (n, o) => .next (s.rmaWrite n o v)
    | none => s.pfWrite t b o v

/-- A write of a register through a function (R7, R10, R70, R214, R215, R614). -/
def State.writeReg (s : State) (t : Instant) (f : Fn) (a : Nat) (v : W32) : Result :=
  if !s.reaches f then .next s
  else match placeOf f a, f with
  | .hub b o, _ => s.hubWrite t f b o v
  | .self o, .vf n => .next (if o = 0x010 then s.modPart n.val (fun p => { p with aper := v &&& 0x80FFFF3F }) else s)
  | .tower n b o, .pf => s.towerWrite t n b o v
  | .core c o, .pf => s.coreWrite t c o v
  | .msix o, _ => .next (s.msixWrite f o v)
  | _, _ => .next s

/-- PAIR_LO_READ (R9): a read of the _LO half of a pair. -/
def execPairLoRead (t : Instant) (f : Fn) (offset : Nat) (s : State) : Result :=
  let s := s.at t
  .next (if s.reaches f then s.readReg f offset else s.unreached 4)

/-- REGISTER_READ_CLEAR (R216), and a read of any other register (R7): a read of POOL_TAKEp or of word 0 of a fault log slot is
that register's own command (R452, R592). Four bytes of PF0's BAR2 are read as staged, zeros where nothing was written (R146);
its offsets follow those of BAR0 (DESIGN CHOICE, notes/assumptions/10.md). -/
def execRegisterReadClear (t : Instant) (f : Fn) (offset : Nat) (s : State) : Result :=
  if !(s.at t).reaches f then .next ((s.at t).unreached 4)
  else if f = .pf ∧ 0x10000000 ≤ offset ∧ offset < 0x20000000 then
    .next ((s.at t).reads (Memory.readN s.stage.bytes (offset - 0x10000000) 4))
  else match placeOf f offset with
  | .hub 0x7 o => if o < 0x4000 ∧ o % 16 = 0 then execPoolTake t f (Fin.ofNat 1024 (o / 16)) s else .next ((s.at t).readReg f offset)
  | .hub 0xF o =>
    if 0x1000 ≤ o ∧ o < 0x3000 ∧ o % 32 = 0 then execFaultRecordCapture t f (Fin.ofNat 256 ((o - 0x1000) / 32)) s
    else .next ((s.at t).readReg f offset)
  | _ => .next ((s.at t).readReg f offset)

/-- PAIR_HI_WRITE (R8): a write of the _HI half of a pair. -/
def execPairHiWrite (t : Instant) (f : Fn) (offset : Nat) (v : W32) (s : State) : Result := (s.at t).writeReg t f offset v

/-- REGISTER_WRITE (R7). -/
def execRegisterWrite (t : Instant) (f : Fn) (offset : Nat) (v : W32) (s : State) : Result := (s.at t).writeReg t f offset v

/-- LINK_RECALIBRATION (R12): a clocked link that foreground work holds defers its recalibration for at most 100 ms; then a
window of 1 µs is forced. On a free link it is done at once, and nothing more is owed while a forced window lasts. -/
def execLinkRecalibration (t : Instant) (link : Fin 64) (busy : Bool) (s : State) : Result :=
  let s := s.at t
  let r : Recal := AMap.get {} s.recals link.val
  let since := r.owed.getD s.clock
  let r' : Recal :=
    if !busy ∨ s.clock < r.busyUntil then { r with owed := none }
    else if since + 100000000 ≤ s.clock then { owed := none, busyUntil := s.clock + 1000 }
    else { r with owed := some since }
  .next { s with recals := AMap.put {} s.recals link.val r' }

end Sys2Proof.Machine
end

