-- ==== Sys2Proof/Machine/Scalar.lean ====
section
/-!
DEFINITION. Classes 0x0 and 0x1 of R239: the scalar operations (R240) and the branches.
-/
namespace Sys2Proof.Machine

/-! ## Scalar operations -/

/-- A register form: RD, RS1, RS2, with MOD and IMM 0 (R240). -/
def State.alu (s : State) (i : Issue) (op : Nat) (check : Core → Option (Nat × Nat × W64)) (f : W64 → W64 → W64) : State :=
  s.issue i 0 op (i.uses true true true 0 0) check always
    (fun s => s.setReg i.c i.d (f (i.a (s.core i.c)) (i.b (s.core i.c))))

/-- An immediate form: RD, RS1, IMM, with RS2 and MOD 0 (R240); `imm` are the bits of IMM it uses. -/
def State.aluImm (s : State) (i : Issue) (op : Nat) (imm : W32) (f : W64 → W64) : State :=
  s.issue i 0 op (i.uses true true false 0 imm) noFault always
    (fun s => s.setReg i.c i.d (f (i.a (s.core i.c))))

/-- A division by 0 is a DIV_ZERO fault (R239). -/
def divFault (i : Issue) (k : Core) : Option (Nat × Nat × W64) := if i.b k = 0 then some (5, 0, 0) else none

/-- The shift count modulo 64. -/
def shiftCount (b : W64) : Nat := b.toNat % 64

/-- A comparison's result. -/
def flag64 (b : Bool) : W64 := if b then 1 else 0

/-- ADD (R239). -/
def execAdd (i : Issue) (s : State) : Result := .next (s.alu i 0x00 noFault (fun a b => a + b))
/-- SUB (R239). -/
def execSub (i : Issue) (s : State) : Result := .next (s.alu i 0x01 noFault (fun a b => a - b))
/-- AND (R240). -/
def execAndReg (i : Issue) (s : State) : Result := .next (s.alu i 0x02 noFault (fun a b => a &&& b))
/-- OR (R240). -/
def execOrReg (i : Issue) (s : State) : Result := .next (s.alu i 0x03 noFault (fun a b => a ||| b))
/-- XOR (R240). -/
def execXorReg (i : Issue) (s : State) : Result := .next (s.alu i 0x04 noFault (fun a b => a ^^^ b))
/-- SLL (R239). -/
def execSll (i : Issue) (s : State) : Result := .next (s.alu i 0x05 noFault (fun a b => a <<< shiftCount b))
/-- SRL (R239). -/
def execSrl (i : Issue) (s : State) : Result := .next (s.alu i 0x06 noFault (fun a b => a >>> shiftCount b))
/-- SRA (R239). -/
def execSra (i : Issue) (s : State) : Result := .next (s.alu i 0x07 noFault (fun a b => a.sshiftRight (shiftCount b)))
/-- SLT (R240). -/
def execSlt (i : Issue) (s : State) : Result := .next (s.alu i 0x08 noFault (fun a b => flag64 (a.slt b)))
/-- SLTU (R240). -/
def execSltu (i : Issue) (s : State) : Result := .next (s.alu i 0x09 noFault (fun a b => flag64 (a.ult b)))
/-- MIN, of signed numbers (DEDUCED, notes/assumptions/43.md) (R239). -/
def execMinReg (i : Issue) (s : State) : Result := .next (s.alu i 0x0A noFault (fun a b => if a.slt b then a else b))
/-- MAX, of signed numbers (DEDUCED, notes/assumptions/43.md) (R239). -/
def execMaxReg (i : Issue) (s : State) : Result := .next (s.alu i 0x0B noFault (fun a b => if a.slt b then b else a))
/-- MUL (R239). -/
def execMul (i : Issue) (s : State) : Result := .next (s.alu i 0x0C noFault (fun a b => a * b))
/-- MULHU (R240). -/
def execMulhu (i : Issue) (s : State) : Result := .next (s.alu i 0x0D noFault (fun a b => BitVec.ofNat 64 (a.toNat * b.toNat / 2 ^ 64)))
/-- DIVU (R239). -/
def execDivu (i : Issue) (s : State) : Result := .next (s.alu i 0x0E (divFault i) (fun a b => a / b))
/-- REMU (R239). -/
def execRemu (i : Issue) (s : State) : Result := .next (s.alu i 0x0F (divFault i) (fun a b => a % b))
/-- ADDI (R240). -/
def execAddi (i : Issue) (s : State) : Result := .next (s.aluImm i 0x20 immAll (fun a => a + i.simm))
/-- ANDI (R240). -/
def execAndi (i : Issue) (s : State) : Result := .next (s.aluImm i 0x21 immAll (fun a => a &&& i.zimm))
/-- ORI (R240). -/
def execOri (i : Issue) (s : State) : Result := .next (s.aluImm i 0x22 immAll (fun a => a ||| i.zimm))
/-- XORI (R240). -/
def execXori (i : Issue) (s : State) : Result := .next (s.aluImm i 0x23 immAll (fun a => a ^^^ i.zimm))
/-- SLLI; IMM[31:6] must be 0 (R240). -/
def execSlli (i : Issue) (s : State) : Result := .next (s.aluImm i 0x24 0x3F (fun a => a <<< (i.imm.toNat % 64)))
/-- SRLI; IMM[31:6] must be 0 (R240). -/
def execSrli (i : Issue) (s : State) : Result := .next (s.aluImm i 0x25 0x3F (fun a => a >>> (i.imm.toNat % 64)))
/-- SRAI; IMM[31:6] must be 0 (R240). -/
def execSrai (i : Issue) (s : State) : Result := .next (s.aluImm i 0x26 0x3F (fun a => a.sshiftRight (i.imm.toNat % 64)))
/-- SLTI (R240). -/
def execSlti (i : Issue) (s : State) : Result := .next (s.aluImm i 0x27 immAll (fun a => flag64 (a.slt i.simm)))
/-- MOVHI: IMM in [63:32]; RS1 must be 0 (R240). -/
def execMovhi (i : Issue) (s : State) : Result :=
  .next (s.issue i 0 0x28 (i.uses true false false 0 immAll) noFault always (fun s => s.setReg i.c i.d (i.zimm <<< 32)))

/-! ## Branches (R239): targets are PC + IMM in words -/

/-- A conditional branch on RS1 and RS2. -/
def State.branch (s : State) (i : Issue) (op : Nat) (f : W64 → W64 → Bool) : State :=
  let target := i.target (s.core i.c)
  s.issue i 1 op (i.uses false true true 0 immAll) noFault always
    (fun s => if f (i.a (s.core i.c)) (i.b (s.core i.c)) then s.setPc i.c target else s)

/-- BEQ (R239). -/
def execBeq (i : Issue) (s : State) : Result := .next (s.branch i 0x00 (fun a b => decide (a = b)))
/-- BNE (R239). -/
def execBne (i : Issue) (s : State) : Result := .next (s.branch i 0x01 (fun a b => decide (a ≠ b)))
/-- BLT (R239). -/
def execBlt (i : Issue) (s : State) : Result := .next (s.branch i 0x02 (fun a b => a.slt b))
/-- BGE (R239). -/
def execBge (i : Issue) (s : State) : Result := .next (s.branch i 0x03 (fun a b => !a.slt b))
/-- BLTU (R239). -/
def execBltu (i : Issue) (s : State) : Result := .next (s.branch i 0x04 (fun a b => a.ult b))
/-- BGEU (R239). -/
def execBgeu (i : Issue) (s : State) : Result := .next (s.branch i 0x05 (fun a b => !a.ult b))
/-- JAL writes PC + 1 to RD (R239). -/
def execJal (i : Issue) (s : State) : Result :=
  let k := s.core i.c
  .next (s.issue i 1 0x08 (i.uses true false false 0 immAll) noFault always
    (fun s => (s.setReg i.c i.d (BitVec.ofNat 64 (k.run.pc + 1))).setPc i.c (i.target k)))
/-- JALR goes to BASE + RS1 + IMM and writes PC + 1 to RD (R239). -/
def execJalr (i : Issue) (s : State) : Result :=
  let k := s.core i.c
  .next (s.issue i 1 0x09 (i.uses true true false 0 immAll) noFault always
    (fun s => (s.setReg i.c i.d (BitVec.ofNat 64 (k.run.pc + 1))).setPc i.c
      (BitVec.ofNat 64 k.run.base + i.a k + i.simm).toNat))
/-- LOOP subtracts 1 from RD and branches if the result is not 0; an RD of 0 stays 0 and does not branch (R239). -/
def execLoop (i : Issue) (s : State) : Result :=
  let k := s.core i.c
  .next (s.issue i 1 0x0A (i.uses true false false 0 immAll) noFault always
    (fun s =>
      let v := k.reg i.d
      if v = 0 then s
      else
        let s := s.setReg i.c i.d (v - 1)
        if v - 1 = 0 then s else s.setPc i.c (i.target k)))

end Sys2Proof.Machine
end

