-- ==== Sys2Proof/Machine/Dispatch.lean ====
section
/-!
DEFINITION. The dispatch of commands to their meanings, one arm per constructor of `Instr`.
-/
namespace Sys2Proof.Machine

def exec (i : Instr) (s : State) : Host.Outcome State Fault Refusal :=
  match i with
  | .vaonWake t => Sys2Proof.Machine.execVaonWake t s
  | .vaonLost t => Sys2Proof.Machine.execVaonLost t s
  | .railGood t r => Sys2Proof.Machine.execRailGood t r s
  | .railLoss t r => Sys2Proof.Machine.execRailLoss t r s
  | .s0Complete t refclk => Sys2Proof.Machine.execS0Complete t refclk s
  | .s1FuseRead t first second => Sys2Proof.Machine.execS1FuseRead t first second s
  | .perstNAssert t => Sys2Proof.Machine.execPerstNAssert t s
  | .perstNDeassert t => Sys2Proof.Machine.execPerstNDeassert t s
  | .linkTrainTimeout t => Sys2Proof.Machine.execLinkTrainTimeout t s
  | .pcieLinkUp t speed width => Sys2Proof.Machine.execPcieLinkUp t speed width s
  | .hotReset t => Sys2Proof.Machine.execHotReset t s
  | .pfFlr t => Sys2Proof.Machine.execPfFlr t s
  | .vfFlr t n => Sys2Proof.Machine.execVfFlr t n s
  | .vfEnableChange t numVfs vfEnable bme => Sys2Proof.Machine.execVfEnableChange t numVfs vfEnable bme s
  | .doeSpdmMessage t x => Sys2Proof.Machine.execDoeSpdmMessage t x s
  | .stagingWrite t offset data => Sys2Proof.Machine.execStagingWrite t offset data s
  | .mbxNop t m => Sys2Proof.Machine.execMbxNop t m s
  | .frameCommit t m load vrAck => Sys2Proof.Machine.execFrameCommit t m load vrAck s
  | .partCommit t m load vrAck => Sys2Proof.Machine.execPartCommit t m load vrAck s
  | .moltRelease t m => Sys2Proof.Machine.execMoltRelease t m s
  | .stageDiscard t m => Sys2Proof.Machine.execStageDiscard t m s
  | .partRearm t m => Sys2Proof.Machine.execPartRearm t m s
  | .setPowerLimit t m => Sys2Proof.Machine.execSetPowerLimit t m s
  | .tmxUnlock t m => Sys2Proof.Machine.execTmxUnlock t m s
  | .mbxCommandEnd t => Sys2Proof.Machine.execMbxCommandEnd t s
  | .commitResume t load vrAck => Sys2Proof.Machine.execCommitResume t load vrAck s
  | .regionOverwriteEnd t n => Sys2Proof.Machine.execRegionOverwriteEnd t n s
  | .bupRun t seq step => Sys2Proof.Machine.execBupRun t seq step s
  | .bupRetry t seq step => Sys2Proof.Machine.execBupRetry t seq step s
  | .bupDegrade t seq step => Sys2Proof.Machine.execBupDegrade t seq step s
  | .bupSkip t seq step => Sys2Proof.Machine.execBupSkip t seq step s
  | .bupStepEnd t r => Sys2Proof.Machine.execBupStepEnd t r s
  | .softRepairWrite t hi v => Sys2Proof.Machine.execSoftRepairWrite t hi v s
  | .entdaa t addr => Sys2Proof.Machine.execEntdaa t addr s
  | .setdasa t static addr => Sys2Proof.Machine.execSetdasa t static addr s
  | .rstdaa t => Sys2Proof.Machine.execRstdaa t s
  | .enec t => Sys2Proof.Machine.execEnec t s
  | .disec t => Sys2Proof.Machine.execDisec t s
  | .getpid t => Sys2Proof.Machine.execGetpid t s
  | .getbcr t => Sys2Proof.Machine.execGetbcr t s
  | .getdcr t => Sys2Proof.Machine.execGetdcr t s
  | .getstatus t => Sys2Proof.Machine.execGetstatus t s
  | .getmxds t => Sys2Proof.Machine.execGetmxds t s
  | .getId x => Sys2Proof.Machine.execGetId x s
  | .getState t => Sys2Proof.Machine.execGetState t s
  | .getTemp t => Sys2Proof.Machine.execGetTemp t s
  | .getPower t => Sys2Proof.Machine.execGetPower t s
  | .getTelemetry t first count => Sys2Proof.Machine.execGetTelemetry t first count s
  | .sbSetPowerLimit t seq limit => Sys2Proof.Machine.execSbSetPowerLimit t seq limit s
  | .getLimits t => Sys2Proof.Machine.execGetLimits t s
  | .setLamp t seq b0 b1 b2 => Sys2Proof.Machine.execSetLamp t seq b0 b1 b2 s
  | .getLamp t lamp => Sys2Proof.Machine.execGetLamp t lamp s
  | .getTripCause t => Sys2Proof.Machine.execGetTripCause t s
  | .clearAlert t mask => Sys2Proof.Machine.execClearAlert t mask s
  | .emergencyArm t seq payload => Sys2Proof.Machine.execEmergencyArm t seq payload s
  | .emergencyOff t seq payload => Sys2Proof.Machine.execEmergencyOff t seq payload s
  | .emergencyRelease t seq payload => Sys2Proof.Machine.execEmergencyRelease t seq payload s
  | .tripTemp t sensor reading => Sys2Proof.Machine.execTripTemp t sensor reading s
  | .tripSelfCheck t failed reading => Sys2Proof.Machine.execTripSelfCheck t failed reading s
  | .tripRearmExpiry t => Sys2Proof.Machine.execTripRearmExpiry t s
  | .tripCauseClear t => Sys2Proof.Machine.execTripCauseClear t s
  | .powerLoopTick t average unacked => Sys2Proof.Machine.execPowerLoopTick t average unacked s
  | .thermalRound t => Sys2Proof.Machine.execThermalRound t s
  | .sensorSample t sensor reading check => Sys2Proof.Machine.execSensorSample t sensor reading check s
  | .bandRelaxExpiry t b => Sys2Proof.Machine.execBandRelaxExpiry t b s
  | .tmonWindowEnd t c tempo => Sys2Proof.Machine.execTmonWindowEnd t c tempo s
  | .tmonMinClear t c => Sys2Proof.Machine.execTmonMinClear t c s
  | .paceToken t w => Sys2Proof.Machine.execPaceToken t w s
  | .meshTransfer t c d wires ep => Sys2Proof.Machine.execMeshTransfer t c d wires ep s
  | .bridgeTrafficArrive t b tag c ep x => Sys2Proof.Machine.execBridgeTrafficArrive t b tag c ep x s
  | .nbRequest t r => Sys2Proof.Machine.execNbRequest t r s
  | .apertureRead t n offset count upsets => Sys2Proof.Machine.execApertureRead t n offset count upsets s
  | .apertureWrite t n offset data => Sys2Proof.Machine.execApertureWrite t n offset data s
  | .quantWindowEnd t x => Sys2Proof.Machine.execQuantWindowEnd t x s
  | .launchDoorbell t f ring v => Sys2Proof.Machine.execLaunchDoorbell t f ring v s
  | .completionDoorbell t f ring v => Sys2Proof.Machine.execCompletionDoorbell t f ring v s
  | .rmaWorkDoorbell t f ring v => Sys2Proof.Machine.execRmaWorkDoorbell t f ring v s
  | .rmaEventDoorbell t f ring v => Sys2Proof.Machine.execRmaEventDoorbell t f ring v s
  | .ringEnable t f v => Sys2Proof.Machine.execRingEnable t f v s
  | .launchRecordRead t p r record block => Sys2Proof.Machine.execLaunchRecordRead t p r record block s
  | .launchStart t p id => Sys2Proof.Machine.execLaunchStart t p id s
  | .launchEnd t p id => Sys2Proof.Machine.execLaunchEnd t p id s
  | .preempt t c => Sys2Proof.Machine.execPreempt t c s
  | .contextSaveComplete t c => Sys2Proof.Machine.execContextSaveComplete t c s
  | .resume t c => Sys2Proof.Machine.execResume t c s
  | .poolTake t f pool => Sys2Proof.Machine.execPoolTake t f pool s
  | .poolFree t f pool v => Sys2Proof.Machine.execPoolFree t f pool v s
  | .add x => Sys2Proof.Machine.execAdd x s
  | .sub x => Sys2Proof.Machine.execSub x s
  | .andReg x => Sys2Proof.Machine.execAndReg x s
  | .orReg x => Sys2Proof.Machine.execOrReg x s
  | .xorReg x => Sys2Proof.Machine.execXorReg x s
  | .sll x => Sys2Proof.Machine.execSll x s
  | .srl x => Sys2Proof.Machine.execSrl x s
  | .sra x => Sys2Proof.Machine.execSra x s
  | .slt x => Sys2Proof.Machine.execSlt x s
  | .sltu x => Sys2Proof.Machine.execSltu x s
  | .minReg x => Sys2Proof.Machine.execMinReg x s
  | .maxReg x => Sys2Proof.Machine.execMaxReg x s
  | .mul x => Sys2Proof.Machine.execMul x s
  | .mulhu x => Sys2Proof.Machine.execMulhu x s
  | .divu x => Sys2Proof.Machine.execDivu x s
  | .remu x => Sys2Proof.Machine.execRemu x s
  | .addi x => Sys2Proof.Machine.execAddi x s
  | .andi x => Sys2Proof.Machine.execAndi x s
  | .ori x => Sys2Proof.Machine.execOri x s
  | .xori x => Sys2Proof.Machine.execXori x s
  | .slli x => Sys2Proof.Machine.execSlli x s
  | .srli x => Sys2Proof.Machine.execSrli x s
  | .srai x => Sys2Proof.Machine.execSrai x s
  | .slti x => Sys2Proof.Machine.execSlti x s
  | .movhi x => Sys2Proof.Machine.execMovhi x s
  | .beq x => Sys2Proof.Machine.execBeq x s
  | .bne x => Sys2Proof.Machine.execBne x s
  | .blt x => Sys2Proof.Machine.execBlt x s
  | .bge x => Sys2Proof.Machine.execBge x s
  | .bltu x => Sys2Proof.Machine.execBltu x s
  | .bgeu x => Sys2Proof.Machine.execBgeu x s
  | .jal x => Sys2Proof.Machine.execJal x s
  | .jalr x => Sys2Proof.Machine.execJalr x s
  | .loop x => Sys2Proof.Machine.execLoop x s
  | .ld8u x => Sys2Proof.Machine.execLd8u x s
  | .ld16u x => Sys2Proof.Machine.execLd16u x s
  | .ld32u x => Sys2Proof.Machine.execLd32u x s
  | .ld64 x => Sys2Proof.Machine.execLd64 x s
  | .ld8s x => Sys2Proof.Machine.execLd8s x s
  | .ld16s x => Sys2Proof.Machine.execLd16s x s
  | .ld32s x => Sys2Proof.Machine.execLd32s x s
  | .st8 x => Sys2Proof.Machine.execSt8 x s
  | .st16 x => Sys2Proof.Machine.execSt16 x s
  | .st32 x => Sys2Proof.Machine.execSt32 x s
  | .st64 x => Sys2Proof.Machine.execSt64 x s
  | .ldv x => Sys2Proof.Machine.execLdv x s
  | .stv x => Sys2Proof.Machine.execStv x s
  | .ldvb x => Sys2Proof.Machine.execLdvb x s
  | .vadd x => Sys2Proof.Machine.execVadd x s
  | .vsub x => Sys2Proof.Machine.execVsub x s
  | .vmul x => Sys2Proof.Machine.execVmul x s
  | .vfma x => Sys2Proof.Machine.execVfma x s
  | .vmin x => Sys2Proof.Machine.execVmin x s
  | .vmax x => Sys2Proof.Machine.execVmax x s
  | .vcmp x => Sys2Proof.Machine.execVcmp x s
  | .vrsum x => Sys2Proof.Machine.execVrsum x s
  | .vrmax x => Sys2Proof.Machine.execVrmax x s
  | .vcvt x => Sys2Proof.Machine.execVcvt x s
  | .vperm x => Sys2Proof.Machine.execVperm x s
  | .vbcast x => Sys2Proof.Machine.execVbcast x s
  | .vmovs x => Sys2Proof.Machine.execVmovs x s
  | .acfg x => Sys2Proof.Machine.execAcfg x s
  | .apass x => Sys2Proof.Machine.execApass x s
  | .aout x => Sys2Proof.Machine.execAout x s
  | .arrayQueueStart t c => Sys2Proof.Machine.execArrayQueueStart t c s
  | .stripGrant t c n => Sys2Proof.Machine.execStripGrant t c n s
  | .stripEnd t c => Sys2Proof.Machine.execStripEnd t c s
  | .aoutDone t c => Sys2Proof.Machine.execAoutDone t c s
  | .beatTimeout t c => Sys2Proof.Machine.execBeatTimeout t c s
  | .sq x => Sys2Proof.Machine.execSq x s
  | .sqdef x => Sys2Proof.Machine.execSqdef x s
  | .sqstat x => Sys2Proof.Machine.execSqstat x s
  | .descriptorStart t c => Sys2Proof.Machine.execDescriptorStart t c s
  | .streamBurst t c lane found digits => Sys2Proof.Machine.execStreamBurst t c lane found digits s
  | .descriptorComplete t c lane => Sys2Proof.Machine.execDescriptorComplete t c lane s
  | .stripStallTimeout t c n => Sys2Proof.Machine.execStripStallTimeout t c n s
  | .send x => Sys2Proof.Machine.execSend x s
  | .recv x => Sys2Proof.Machine.execRecv x s
  | .token x => Sys2Proof.Machine.execToken x s
  | .poll x => Sys2Proof.Machine.execPoll x s
  | .creditArrive t p ch => Sys2Proof.Machine.execCreditArrive t p ch s
  | .messageArrive t p ch => Sys2Proof.Machine.execMessageArrive t p ch s
  | .sendComplete t p ch => Sys2Proof.Machine.execSendComplete t p ch s
  | .sin x => Sys2Proof.Machine.execSin x s
  | .cos x => Sys2Proof.Machine.execCos x s
  | .rcp x => Sys2Proof.Machine.execRcp x s
  | .rsqrt x => Sys2Proof.Machine.execRsqrt x s
  | .tbl x n => Sys2Proof.Machine.execTbl x n s
  | .tblLoad x n => Sys2Proof.Machine.execTblLoad x n s
  | .rstat x => Sys2Proof.Machine.execRstat x s
  | .sfuOpComplete t c => Sys2Proof.Machine.execSfuOpComplete t c s
  | .tableLoadComplete t c => Sys2Proof.Machine.execTableLoadComplete t c s
  | .wait x => Sys2Proof.Machine.execWait x s
  | .waitt x => Sys2Proof.Machine.execWaitt x s
  | .waitComplete t c => Sys2Proof.Machine.execWaitComplete t c s
  | .waittTimeout t c => Sys2Proof.Machine.execWaittTimeout t c s
  | .fence x => Sys2Proof.Machine.execFence x s
  | .fenceComplete t c => Sys2Proof.Machine.execFenceComplete t c s
  | .endPart x => Sys2Proof.Machine.execEndPart x s
  | .corePartEnd t c => Sys2Proof.Machine.execCorePartEnd t c s
  | .rdsys x => Sys2Proof.Machine.execRdsys x s
  | .softFault x => Sys2Proof.Machine.execSoftFault x s
  | .clrf x => Sys2Proof.Machine.execClrf x s
  | .unitFaultReport t c f => Sys2Proof.Machine.execUnitFaultReport t c f s
  | .pageWindowAccess t c offset v => Sys2Proof.Machine.execPageWindowAccess t c offset v s
  | .sliceReadTransfer t x => Sys2Proof.Machine.execSliceReadTransfer t x s
  | .sliceWriteTransfer t x data mask => Sys2Proof.Machine.execSliceWriteTransfer t x data mask s
  | .sliceRefreshDue t c layer fg => Sys2Proof.Machine.execSliceRefreshDue t c layer fg s
  | .sliceScrubTransfer t x waiting => Sys2Proof.Machine.execSliceScrubTransfer t x waiting s
  | .nbRefreshDue t k pc fg => Sys2Proof.Machine.execNbRefreshDue t k pc fg s
  | .nbScrubTransfer t k pc row word e waiting => Sys2Proof.Machine.execNbScrubTransfer t k pc row word e waiting s
  | .farCacheCfgWrite t w v => Sys2Proof.Machine.execFarCacheCfgWrite t w v s
  | .nbuCommandEnqueue t k pc region c cmd => Sys2Proof.Machine.execNbuCommandEnqueue t k pc region c cmd s
  | .nbuNop t k pc => Sys2Proof.Machine.execNbuNop t k pc s
  | .nbuLoad t k pc upsets => Sys2Proof.Machine.execNbuLoad t k pc upsets s
  | .nbuSet t k pc => Sys2Proof.Machine.execNbuSet t k pc s
  | .nbuClracc t k pc => Sys2Proof.Machine.execNbuClracc t k pc s
  | .nbuMac t k pc upsets => Sys2Proof.Machine.execNbuMac t k pc upsets s
  | .nbuScore t k pc upsets => Sys2Proof.Machine.execNbuScore t k pc upsets s
  | .nbuEmit t k pc => Sys2Proof.Machine.execNbuEmit t k pc s
  | .nbuFence t k pc => Sys2Proof.Machine.execNbuFence t k pc s
  | .nbuClear t k pc => Sys2Proof.Machine.execNbuClear t k pc s
  | .nbuResultRead t k pc region c entries => Sys2Proof.Machine.execNbuResultRead t k pc region c entries s
  | .portEnable t p v => Sys2Proof.Machine.execPortEnable t p v s
  | .portTrain t p => Sys2Proof.Machine.execPortTrain t p s
  | .portLinkUp t p => Sys2Proof.Machine.execPortLinkUp t p s
  | .portLinkDown t p => Sys2Proof.Machine.execPortLinkDown t p s
  | .croakSend t p => Sys2Proof.Machine.execCroakSend t p s
  | .croakReceive t p x => Sys2Proof.Machine.execCroakReceive t p x s
  | .adjacencyTimeout t p unit => Sys2Proof.Machine.execAdjacencyTimeout t p unit s
  | .lsrReceive t p sender x => Sys2Proof.Machine.execLsrReceive t p sender x s
  | .lsrRefresh t => Sys2Proof.Machine.execLsrRefresh t s
  | .lsrExpiry t unit => Sys2Proof.Machine.execLsrExpiry t unit s
  | .routeInstall t => Sys2Proof.Machine.execRouteInstall t s
  | .addressClaimTimeout t => Sys2Proof.Machine.execAddressClaimTimeout t s
  | .bftPacketReceive t p header body x => Sys2Proof.Machine.execBftPacketReceive t p header body x s
  | .ackDelayExpiry t stream => Sys2Proof.Machine.execAckDelayExpiry t stream s
  | .retransmitTimeout t stream seq => Sys2Proof.Machine.execRetransmitTimeout t stream seq s
  | .spanJoin t h digest self hops image cap => Sys2Proof.Machine.execSpanJoin t h digest self hops image cap s
  | .spanReady t h digest gen => Sys2Proof.Machine.execSpanReady t h digest gen s
  | .spanReject t h reason => Sys2Proof.Machine.execSpanReject t h reason s
  | .spanLaunch t h graph epoch serial timed start params => Sys2Proof.Machine.execSpanLaunch t h graph epoch serial timed start params s
  | .spanDone t h graph epoch status cause beats preempt => Sys2Proof.Machine.execSpanDone t h graph epoch status cause beats preempt s
  | .spanAbort t h graph epoch => Sys2Proof.Machine.execSpanAbort t h graph epoch s
  | .spanLeave t h reason => Sys2Proof.Machine.execSpanLeave t h reason s
  | .joinResend t n => Sys2Proof.Machine.execJoinResend t n s
  | .spanLossTimeout t n => Sys2Proof.Machine.execSpanLossTimeout t n s
  | .rmaWrite t p r record source => Sys2Proof.Machine.execRmaWrite t p r record source s
  | .rmaWriteFlag t p r record source => Sys2Proof.Machine.execRmaWriteFlag t p r record source s
  | .rmaRead t p r record => Sys2Proof.Machine.execRmaRead t p r record s
  | .rmaFetchAdd t p r record => Sys2Proof.Machine.execRmaFetchAdd t p r record s
  | .rmaCmpSwap t p r record => Sys2Proof.Machine.execRmaCmpSwap t p r record s
  | .rmaSend t p r record source => Sys2Proof.Machine.execRmaSend t p r record source s
  | .rmaConnect t p r record => Sys2Proof.Machine.execRmaConnect t p r record s
  | .rmaClose t p r record => Sys2Proof.Machine.execRmaClose t p r record s
  | .rmaInConnect t x => Sys2Proof.Machine.execRmaInConnect t x s
  | .rmaAccept t x => Sys2Proof.Machine.execRmaAccept t x s
  | .rmaRefuse t x => Sys2Proof.Machine.execRmaRefuse t x s
  | .rmaGone t x => Sys2Proof.Machine.execRmaGone t x s
  | .rmaCredit t x => Sys2Proof.Machine.execRmaCredit t x s
  | .rmaResponse t x => Sys2Proof.Machine.execRmaResponse t x s
  | .rmaInWrite t x => Sys2Proof.Machine.execRmaInWrite t x s
  | .rmaInWriteFlag t x => Sys2Proof.Machine.execRmaInWriteFlag t x s
  | .rmaInRead t x upsets => Sys2Proof.Machine.execRmaInRead t x upsets s
  | .rmaInFetchAdd t x upsets => Sys2Proof.Machine.execRmaInFetchAdd t x upsets s
  | .rmaInCmpSwap t x upsets => Sys2Proof.Machine.execRmaInCmpSwap t x upsets s
  | .rmaInSend t x => Sys2Proof.Machine.execRmaInSend t x s
  | .rmaInClose t x => Sys2Proof.Machine.execRmaInClose t x s
  | .rmaCreditTimer t => Sys2Proof.Machine.execRmaCreditTimer t s
  | .rmaConnectResend t p conn => Sys2Proof.Machine.execRmaConnectResend t p conn s
  | .rmaResponseTimeout t p conn seq => Sys2Proof.Machine.execRmaResponseTimeout t p conn seq s
  | .ppsInEdge t wide cycles => Sys2Proof.Machine.execPpsInEdge t wide cycles s
  | .ppsEdgeMissed t => Sys2Proof.Machine.execPpsEdgeMissed t s
  | .timeRefLost t => Sys2Proof.Machine.execTimeRefLost t s
  | .ptpSync t fromGm offset twoStep => Sys2Proof.Machine.execPtpSync t fromGm offset twoStep s
  | .ptpSyncTimeout t => Sys2Proof.Machine.execPtpSyncTimeout t s
  | .ptpAnnounce t m => Sys2Proof.Machine.execPtpAnnounce t m s
  | .ptpDelayReq t p requester => Sys2Proof.Machine.execPtpDelayReq t p requester s
  | .ptpDelayResp t delay => Sys2Proof.Machine.execPtpDelayResp t delay s
  | .ptpSyncSend t p => Sys2Proof.Machine.execPtpSyncSend t p s
  | .ptpAnnounceSend t p => Sys2Proof.Machine.execPtpAnnounceSend t p s
  | .ppsOutEdge t => Sys2Proof.Machine.execPpsOutEdge t s
  | .slewEnd t => Sys2Proof.Machine.execSlewEnd t s
  | .holdEnd t => Sys2Proof.Machine.execHoldEnd t s
  | .uncUpdate t => Sys2Proof.Machine.execUncUpdate t s
  | .timSet t hi => Sys2Proof.Machine.execTimSet t hi s
  | .timCfgWrite t v => Sys2Proof.Machine.execTimCfgWrite t v s
  | .counterSelectWrite t w x v => Sys2Proof.Machine.execCounterSelectWrite t w x v s
  | .snapshotArm t hi => Sys2Proof.Machine.execSnapshotArm t hi s
  | .snapshotTrigger t => Sys2Proof.Machine.execSnapshotTrigger t s
  | .faultLogWrite t which => Sys2Proof.Machine.execFaultLogWrite t which s
  | .faultRecordCapture t f slot => Sys2Proof.Machine.execFaultRecordCapture t f slot s
  | .faultLogClear t v => Sys2Proof.Machine.execFaultLogClear t v s
  | .lampCfgWrite t f lamp v => Sys2Proof.Machine.execLampCfgWrite t f lamp v s
  | .lampPeriod t lamp current => Sys2Proof.Machine.execLampPeriod t lamp current s
  | .lampUnprovenTimeout t lamp => Sys2Proof.Machine.execLampUnprovenTimeout t lamp s
  | .tmxSelectWrite t offset v => Sys2Proof.Machine.execTmxSelectWrite t offset v s
  | .tapReset t => Sys2Proof.Machine.execTapReset t s
  | .tapBypass t tdi => Sys2Proof.Machine.execTapBypass t tdi s
  | .tapSamplePreload t pins tdi => Sys2Proof.Machine.execTapSamplePreload t pins tdi s
  | .tapExtest t pins tdi => Sys2Proof.Machine.execTapExtest t pins tdi s
  | .tapIdcode t tdi => Sys2Proof.Machine.execTapIdcode t tdi s
  | .tapClamp t tdi => Sys2Proof.Machine.execTapClamp t tdi s
  | .tapHighz t tdi => Sys2Proof.Machine.execTapHighz t tdi s
  | .pairLoRead t f offset => Sys2Proof.Machine.execPairLoRead t f offset s
  | .pairHiWrite t f offset v => Sys2Proof.Machine.execPairHiWrite t f offset v s
  | .registerReadClear t f offset => Sys2Proof.Machine.execRegisterReadClear t f offset s
  | .registerWrite t f offset v => Sys2Proof.Machine.execRegisterWrite t f offset v s
  | .linkRecalibration t link busy => Sys2Proof.Machine.execLinkRecalibration t link busy s
  | .rearmThresholdCrossing t sensor reading => Sys2Proof.Machine.execRearmThresholdCrossing t sensor reading s
  | .timeRefReturn t => Sys2Proof.Machine.execTimeRefReturn t s
  | .ptpFollowUp t offset => Sys2Proof.Machine.execPtpFollowUp t offset s
  | .announceReceiptTimeout t m => Sys2Proof.Machine.execAnnounceReceiptTimeout t m s
  | .scrubPeriodExpiry t c => Sys2Proof.Machine.execScrubPeriodExpiry t c s

end Sys2Proof.Machine
end

