-- ==== Sys2Proof/Machine/Step.lean ====
section
/-!
DEFINITION. One step of the block: the command at the front of the queue.
-/
namespace Sys2Proof.Machine

/-- Takes the command at the front of the queue and carries it out on the state with the queue's rest; with nothing waiting
the block idles (DESIGN CHOICE, notes/assumptions/2.md): every effect of time is a command of its own. -/
def step (s : State) : Host.Outcome State Fault Refusal :=
  match s.pending with
  | [] => .next s
  | c :: q => exec c { s with pending := q }

/-- The command that a word spells put at the front of the queue; the state where it spells none. -/
def State.withFetchWord (s : State) (nbits w : Nat) : State :=
  match decodeTableWord nbits w with
  | some c => { s with pending := c :: s.pending }
  | none => s

end Sys2Proof.Machine
end

