-- ==== Sys2Proof/Safety.lean ====
section
/-!
DEFINITION. What a safe step is, and the terms in which the statements say what a command changes and what it leaves.
-/
namespace Sys2Proof.Machine

/-- The outcome is a next state: the command has its effect and the block goes on. -/
def Result.goesOn : Result → Prop
  | .next _ => True
  | _ => False

/-- Records may have come to wait for the fault log; nothing else of the log changed. -/
def FltLog.grew (a b : FltLog) : Prop := ∃ l, b = { a with waiting := a.waiting ++ l }

/-- Between `s` and `t` only core `c` changed, the clock moved, and records may wait for the fault log. -/
def OnlyCore (s t : State) (c : Nat) : Prop :=
  (∀ d, d ≠ c → t.core d = s.core d) ∧ s.flt.grew t.flt ∧ { t with clock := s.clock, cores := s.cores, flt := s.flt } = s

/-- Nothing stops instruction `i` before its own checks: its core issues, has room in a pinned core's budget, its PC lies
in the program and the word's check found nothing it could not correct (R60, R230, R234, R249). -/
def Issues (s : State) (i : Issue) : Prop :=
  (s.core i.c).issuing = true ∧ (s.pinned i.c = true → 0 < (s.core i.c).budgetIssues) ∧ (s.core i.c).inProgram = true ∧
    i.code ≠ .uncorrectable

/-- CLASS and OP of the rows that are a core's instructions, with the fields of their word (R239, R240, R241, R243, R295,
R341). -/
def rowOp : Instr → Option (Issue × Nat × Nat)
  | .add i => some (i, 0, 0x00)
  | .sub i => some (i, 0, 0x01)
  | .andReg i => some (i, 0, 0x02)
  | .orReg i => some (i, 0, 0x03)
  | .xorReg i => some (i, 0, 0x04)
  | .sll i => some (i, 0, 0x05)
  | .srl i => some (i, 0, 0x06)
  | .sra i => some (i, 0, 0x07)
  | .slt i => some (i, 0, 0x08)
  | .sltu i => some (i, 0, 0x09)
  | .minReg i => some (i, 0, 0x0A)
  | .maxReg i => some (i, 0, 0x0B)
  | .mul i => some (i, 0, 0x0C)
  | .mulhu i => some (i, 0, 0x0D)
  | .divu i => some (i, 0, 0x0E)
  | .remu i => some (i, 0, 0x0F)
  | .addi i => some (i, 0, 0x20)
  | .andi i => some (i, 0, 0x21)
  | .ori i => some (i, 0, 0x22)
  | .xori i => some (i, 0, 0x23)
  | .slli i => some (i, 0, 0x24)
  | .srli i => some (i, 0, 0x25)
  | .srai i => some (i, 0, 0x26)
  | .slti i => some (i, 0, 0x27)
  | .movhi i => some (i, 0, 0x28)
  | .beq i => some (i, 1, 0x00)
  | .bne i => some (i, 1, 0x01)
  | .blt i => some (i, 1, 0x02)
  | .bge i => some (i, 1, 0x03)
  | .bltu i => some (i, 1, 0x04)
  | .bgeu i => some (i, 1, 0x05)
  | .jal i => some (i, 1, 0x08)
  | .jalr i => some (i, 1, 0x09)
  | .loop i => some (i, 1, 0x0A)
  | .ld8u i => some (i, 2, 0x00)
  | .ld16u i => some (i, 2, 0x01)
  | .ld32u i => some (i, 2, 0x02)
  | .ld64 i => some (i, 2, 0x03)
  | .ld8s i => some (i, 2, 0x04)
  | .ld16s i => some (i, 2, 0x05)
  | .ld32s i => some (i, 2, 0x06)
  | .st8 i => some (i, 2, 0x08)
  | .st16 i => some (i, 2, 0x09)
  | .st32 i => some (i, 2, 0x0A)
  | .st64 i => some (i, 2, 0x0B)
  | .ldv i => some (i, 2, 0x10)
  | .stv i => some (i, 2, 0x11)
  | .ldvb i => some (i, 2, 0x12)
  | .vadd i => some (i, 3, 0x00)
  | .vsub i => some (i, 3, 0x01)
  | .vmul i => some (i, 3, 0x02)
  | .vfma i => some (i, 3, 0x03)
  | .vmin i => some (i, 3, 0x04)
  | .vmax i => some (i, 3, 0x05)
  | .vcmp i => some (i, 3, 0x06)
  | .vrsum i => some (i, 3, 0x08)
  | .vrmax i => some (i, 3, 0x09)
  | .vcvt i => some (i, 3, 0x10)
  | .vperm i => some (i, 3, 0x18)
  | .vbcast i => some (i, 3, 0x19)
  | .vmovs i => some (i, 3, 0x1A)
  | .acfg i => some (i, 4, 0x00)
  | .apass i => some (i, 4, 0x01)
  | .aout i => some (i, 4, 0x02)
  | .sq i => some (i, 5, 0x00)
  | .sqdef i => some (i, 5, 0x01)
  | .sqstat i => some (i, 5, 0x02)
  | .send i => some (i, 6, 0x00)
  | .recv i => some (i, 6, 0x01)
  | .token i => some (i, 6, 0x02)
  | .poll i => some (i, 6, 0x03)
  | .sin i => some (i, 7, 0x00)
  | .cos i => some (i, 7, 0x01)
  | .rcp i => some (i, 7, 0x02)
  | .rsqrt i => some (i, 7, 0x03)
  | .tbl i n | .tblLoad i n => some (i, 7, 4 + n.val)
  | .rstat i => some (i, 7, 0x08)
  | .wait i => some (i, 8, 0x00)
  | .waitt i => some (i, 8, 0x01)
  | .fence i => some (i, 8, 0x02)
  | .endPart i => some (i, 9, 0x00)
  | .rdsys i => some (i, 9, 0x01)
  | .softFault i => some (i, 9, 0x02)
  | .clrf i => some (i, 9, 0x03)
  | _ => none

/-- The word at the PC of the row's core is the row's: its CLASS, OP and fields (R229, R237). -/
def Spelt (s : State) (x : Instr) : Prop :=
  ∃ i cls op, rowOp x = some (i, cls, op) ∧ (s.core i.c).word = i.word cls op

/-- A core without what every issued instruction may change: its mode, its wait, the PC and CORE_PC, the issue budget, the
event counters and the word that the next one may pair with. -/
def Core.quiet (k : Core) : Core :=
  { k with mode := .running, shownPc := 0, budgetIssues := 0, evc := [],
           run := { k.run with pc := 0, wait := none, prev := none } }

/-- `t` follows `s` by an issue of `i` that ran: the core runs, CORE_PC shows where `i` stood, every other core and
everything outside the cores is as before. -/
def Issued (s t : State) (i : Issue) : Prop :=
  OnlyCore s t i.c ∧ t.clock = max s.clock i.time ∧ (t.core i.c).mode = .running ∧
    (t.core i.c).shownPc = (s.core i.c).run.pc

/-- Every general register but RD is as before, RD holds `v` (g0 stays 0), and nothing else of the core changed. -/
def RegResult (s t : State) (i : Issue) (v : W64) : Prop :=
  Issued s t i ∧
    (∀ r, (t.core i.c).reg r = if r = 0 then 0 else if r = i.d then v else (s.core i.c).reg r) ∧
    (t.core i.c).quiet = { (s.core i.c).quiet with run := { (s.core i.c).quiet.run with g := (t.core i.c).run.g } }

/-- The PC is the next word's. -/
def NextPc (s t : State) (i : Issue) : Prop := (t.core i.c).run.pc = (s.core i.c).run.pc + 1

/-- No register changed and nothing else of the core but what every issue changes. -/
def NoResult (s t : State) (i : Issue) : Prop := Issued s t i ∧ (t.core i.c).quiet = (s.core i.c).quiet

/-- Every vector register but vRD is as before, vRD holds `v`, the flags `f` were set, and nothing else of the core changed. -/
def VecResult (s t : State) (i : Issue) (v : V1024) (f : Flags) : Prop :=
  Issued s t i ∧ (∀ r, (t.core i.c).vreg r = if r = i.d then v else (s.core i.c).vreg r) ∧
    (t.core i.c).run.vflags = (s.core i.c).run.vflags ||| f ∧
    (t.core i.c).quiet = { (s.core i.c).quiet with
      run := { (s.core i.c).quiet.run with v := (t.core i.c).run.v, vflags := (t.core i.c).run.vflags } }

/-- The bytes `bs` stand in the near store from `a`, every other byte is as before, and nothing else of the core changed. -/
def StoreResult (s t : State) (i : Issue) (a : Nat) (bs : Bytes) : Prop :=
  Issued s t i ∧
    (∀ x, Memory.read (t.core i.c).near x =
      if a ≤ x ∧ x < a + bs.length then bs.getD (x - a) 0 else Memory.read (s.core i.c).near x) ∧
    (t.core i.c).quiet = { (s.core i.c).quiet with near := (t.core i.c).near }

/-- `i` issued and ran, and but for what every issue changes its core is now `k`. -/
def IssuedAs (s t : State) (i : Issue) (k : Core) : Prop := Issued s t i ∧ NextPc s t i ∧ (t.core i.c).quiet = k.quiet

/-- `i` issued, the PC went to the next word, and the core waits as `w` says from now on. -/
def Waits (s t : State) (i : Issue) (w : WaitKind) : Prop :=
  OnlyCore s t i.c ∧ t.clock = max s.clock i.time ∧ NextPc s t i ∧ (t.core i.c).mode = .waiting ∧
    (t.core i.c).run.wait = some (w, t.clock) ∧ (t.core i.c).quiet = (s.core i.c).quiet

/-- `i` has not issued: its core waits at issue with the PC where it was. -/
def WaitsToIssue (s t : State) (i : Issue) : Prop :=
  OnlyCore s t i.c ∧ (t.core i.c).mode = .waiting ∧ (t.core i.c).run.pc = (s.core i.c).run.pc ∧
    (∃ since, (t.core i.c).run.wait = some (.issue, since)) ∧ (t.core i.c).quiet = (s.core i.c).quiet

/-- At instant `τ` only core `c` changed, and but for its event counters it is now `k`. -/
def CoreBecomes (s t : State) (τ c : Nat) (k : Core) : Prop :=
  OnlyCore s t c ∧ t.clock = max s.clock τ ∧ { t.core c with evc := [] } = { k with evc := [] }

/-- The core stopped in a fault (R249-R252): what CORE_STATE, CORE_FLT_CAUSE, CORE_FLT_PC and CORE_FLT_ADDR show. -/
def Faulted (t : State) (c : Nat) (precise : Bool) (cause detail pc : Nat) : Prop :=
  (t.core c).mode = .faulted ∧ (t.core c).last = 2 ∧ (t.core c).fltValid = true ∧ (t.core c).fltPrecise = precise ∧
    (t.core c).fltCause = cause ∧ (t.core c).fltDetail = detail ∧ (t.core c).fltPc = pc % 8192

/-- Element `e` of vector register `r` in format `f` (R317). -/
def Core.el (k : Core) (r f e : Nat) : Nat := elem (k.vreg r).toNat (fmtBits f) e

/-- A vector instruction's result element by element: element `e` of vRD is `(x e).1` for e below `n`, the flags are those
of the elements together, every other register is as before and the PC goes to the next word. -/
def ElemResult (s : State) (i : Issue) (f n : Nat) (x : Nat → Nat × Flags) (row : Instr) : Prop :=
  Spelt s row → ∃ t v, exec row s = .next t ∧ VecResult s t i v (orFlags ((List.range n).map x)) ∧ NextPc s t i ∧
    ∀ e < n, elem v.toNat (fmtBits f) e = (x e).1

/-- Pn has no completion record and no event record waiting to be written (R439, R525). -/
def State.calm (s : State) (n : Nat) : Prop := (s.part n).comps = [] ∧ (s.part n).rma.events = []

/-- Between `s` and `t` ring `r` became `q`, the clock moved, and every other ring, every partition and everything else is as
before. -/
def OnlyRing (s t : State) (r : Nat) (q : Ring) : Prop :=
  t.ring r = q ∧ (∀ x, x ≠ r → t.ring x = s.ring x) ∧ (∀ m, t.part m = s.part m) ∧
    { t with clock := s.clock, rings := s.rings, parts := s.parts } = s

/-- A record of 32 bytes was written into ring `r` by Pn (R432, R218): at the write index in host memory under VF(n+1); the index
and, at the wrap, PHASE stepped. -/
def RecordWritten (s t : State) (n r : Nat) (bs : Bool → Bytes) : Prop :=
  let q := s.ring r
  t.out.dma = s.out.dma ++ [(n + 1, q.base.toNat + 32 * q.prod, bs q.phase)] ∧
    (t.ring r).prod = (if q.prod + 1 = q.entries then 0 else q.prod + 1) ∧
    (t.ring r).phase = (if q.prod + 1 = q.entries then !q.phase else q.phase)

/-- The bytes `bs` stand in region `r` from offset `a`, every other byte of it and every other region is as before. -/
def Stored (s t : State) (r a : Nat) (bs : Bytes) : Prop :=
  (∀ x, Memory.read (t.region r).bytes x = if a ≤ x ∧ x < a + bs.length then bs.getD (x - a) 0 else Memory.read (s.region r).bytes x) ∧
    ∀ q, q ≠ r → t.region q = s.region q

/-- An RMA packet meets an open connection of its receiver from its own peer, next in its stream, with nothing held (R469, R508). -/
def InTurn (s : State) (x : RmaPkt) : Prop :=
  let k := s.conn x.partTo.val x.conn
  k.st = .opened ∧ k.peerAddr = x.src ∧ k.peerPart = x.partFrom ∧ k.peerConn = x.peerConn ∧ x.seq.toNat = k.next ∧ k.got = [] ∧
    k.flags = []

/-- A packet's ACK acknowledges nothing that its connection has not seen acknowledged before (R470). -/
def AcksNone (s : State) (x : RmaPkt) : Prop :=
  let k := s.conn x.partTo.val x.conn
  (∀ q ∈ k.sent, ackedSeq x.ack.toNat q.seq = false) ∧
    ∀ y ∈ s.fab.tx, y.named k.peerAddr 5 0 (rmaStream k.peerPart x.conn k.peerConn) = true →
      ∀ z ∈ y.sent, ackedSeq x.ack.toNat z.1 = false

/-- The stream has moved past the packet (R469), and its units are granted again (R522). -/
def Moved (s t : State) (x : RmaPkt) (units : Nat) : Prop :=
  let k := s.conn x.partTo.val x.conn
  let k' := t.conn x.partTo.val x.conn
  k'.next = (k.next + 1) % 2 ^ 32 ∧ k'.got = [] ∧ k'.st = k.st ∧ k'.given = (k.given + units) % 2 ^ 32

/-- A mailbox command is accepted (R75-R78): none runs, MBX_COMMIT names MBX_TAG, which is not 0 and not among the recorded tags. -/
def State.takes (s : State) (m : MbxCmd) : Prop :=
  s.mbx.run = none ∧ m.commit = m.tag ∧ m.tag ≠ 0 ∧ ∀ r ∈ s.mbx.record, r.1 ≠ m.tag

/-- The state in which an accepted command has its effect: the registers composed, DONE and REPEATED 0 (R76). -/
def State.given (s : State) (op : Nat) (m : MbxCmd) : State :=
  let b := s.compose op m
  { b with mbx := { b.mbx with done := false, repeated := false } }

/-- The command runs until MBX_COMMAND_END, which publishes CODE and the results (R79). -/
def State.runs (s : State) (op : Nat) (m : MbxCmd) (code : Nat) (results : List W32) : State :=
  { s with mbx := { s.mbx with run := some { tag := m.tag, opcode := op, code := code, results := results } } }

/-- A commit was refused at a stage (R151, R152, R165, R166, R620): CODE REFUSED, reason and offset shown; stage 5 shows its
resource (R168); nothing else of the device changed. -/
def CommitRefused (s : State) (op part stage : Nat) (m : MbxCmd) (e : Refused) (o : Result) : Prop :=
  ∃ t d, o = .next t ∧
    t.mbx = ((s.given op m).runs op m 6 [BitVec.ofNat 32 e.reason, BitVec.ofNat 32 e.off, s.stagedId, d]).mbx ∧
    t.img.status = BitVec.ofNat 32 (2 ^ 24 * op + 2 ^ 16 * part + 0x2000 + 256 * stage + e.reason) ∧
    t.img.offset = BitVec.ofNat 32 e.off ∧
    (if stage = 5 then
      t.img.admStatus = BitVec.ofNat 32 (2 ^ 28 * e.check + 2 ^ 24 * e.rkind + 2 ^ 16 * part + e.graph % 4096) ∧
      t.img.admRes = BitVec.ofNat 32 (e.res % 65536) ∧ t.img.admValue = BitVec.ofNat 64 e.value ∧
      t.img.admLimit = BitVec.ofNat 64 e.limit
     else t.img.admStatus = s.img.admStatus ∧ t.img.admRes = s.img.admRes ∧ t.img.admValue = s.img.admValue ∧
      t.img.admLimit = s.img.admLimit) ∧
    { t with free := s.free, mbx := s.mbx, img := s.img } = s

/-- A commit ended at stage 7, or at stage 6 in a load fault (R151, R154, R166): its code, its results, IMG_STATUS. -/
def CommitEnded (s t : State) (op part : Nat) (m : MbxCmd) (good : Bool) : Prop :=
  ∃ d, t.mbx = ((s.given op m).runs op m (if good then 0 else 6)
      [if good then 0 else 0x50, 0xFFFFFFFF, s.stagedId, d]).mbx ∧
    t.img.status = BitVec.ofNat 32 (2 ^ 24 * op + 2 ^ 16 * part + (if good then 0x1700 else 0x3650)) ∧
    t.img.offset = 0xFFFFFFFF

/-- Pn stands with image `i` (R154, R156, R175, R197): ACTIVE, or HELD where some partition is HELD; its cores IDLE with their
stores as the image sets them; without KEEP its regions read as zeros under new keys. -/
def ImageStands (s t : State) (n : Nat) (keep : Bool) (i : PartImage) : Prop :=
  (t.part n).image = some i ∧ (t.part n).st = (if s.someHeld then .held else .active) ∧
    (t.part n).ledger = ledgerOf (charges s i) ∧ t.drbgOk = true ∧ t.frame = s.frame ∧
    (∀ c ∈ s.partCores n, (t.core c).mode = .idle ∧ (t.core c).code = i.codeOf c ∧ (t.core c).tables = i.tablesOf c ∧
      (t.core c).eps = i.epsOf c) ∧
    ((keep && (s.image n).isSome) = false → ∀ r ∈ s.partRegions n,
      t.region r.index = {} ∧ (t.key r.index).st = .live ∧ (t.key r.index).part = n)

/-- A restart leaves nothing of the cores but what the slices hold and the refresh they owe while VSLICE stays good (R362, R99). -/
def OnlySlices (s t : State) (good : BitVec 8) : Prop :=
  (∀ c, { t.core c with slice := [], marks := [], owed := [] } = {}) ∧ (good.getLsbD 4 = false → t.cores = []) ∧
    (good.getLsbD 4 = true → AMap.wf {} s.cores = true → ∀ c, (t.core c).slice = (s.core c).slice ∧
      (t.core c).marks = (s.core c).marks ∧ (t.core c).owed = (s.core c).owed)

/-- The load failed (R154): Pn stands without an image, its keys are being discarded where it had one, and a LOAD_FAULT record
waits. -/
def LoadFaulted (s t : State) (n : Nat) (i : PartImage) : Prop :=
  (t.part n).image = none ∧ t.frame = s.frame ∧
    ((s.image n).isSome = true → ∀ r ∈ s.partRegions n, (t.key r.index).st = .discarding) ∧
    (t.flt.waiting.getLast?.map (fun r => (r.kind, r.part, r.code, r.detail))) =
      some (0x0A, n, 0x50, BitVec.ofNat 32 i.id)

/-- What every step keeps: the bring-up sequence (R100-R103, R122, R125), the trip's re-arm timer and count (R568, R570), who may
have test access (R606, R607), and the staging window's form and extent (R146). -/
structure State.Sound (s : State) : Prop where
  seq : s.bup.seq < 256
  err : s.bup.cmdErr ≤ 8
  next : s.bup.nxt ≤ 10
  idle : s.bup.st = .idle → s.bup.nxt = 0
  active : s.bup.st = .running ∨ s.bup.st = .failed → s.bup.step = s.bup.nxt ∧ s.bup.nxt ≤ 9
  finished : s.bup.st = .done → s.bup.nxt = s.bup.step + 1
  asleep : s.rails.vaon = false → s.bup.st = .idle
  timer : s.trip.since.isSome = true → s.trip.hold = true
  trips : s.trip.count ≤ 0xFFFF
  access : s.test.unlocked = true → s.tadpole = false ∧ s.fuse.map (fun f => f.tmxLevel.toNat) = some 1
  form : Memory.wf s.stage.bytes = true
  extent : ∀ x ∈ s.stage.bytes, x.1 < 0x10000000
  chunks : ∀ k ∈ s.stage.chunks, k < 4096

end Sys2Proof.Machine
end

