-- ==== Sys2Proof/Certificates/Slice0/Obligations.lean ====
section
/-!
DEFINITION. The statements for the provers, by chapter of the spec. The terms they share stand in Sys2Proof/Safety.lean.
-/
open Sys2Proof Sys2Proof.Machine

/-! ## Core instructions (ch. 08, 11) -/

/-- R239, R240: each register operation writes its result to RD and goes to the next word; DIVU and REMU do so for every
divisor but 0. MIN and MAX compare as signed numbers (the model's choice, DEDUCED, notes/assumptions/43.md).
R240: the immediate forms, with RS2 and MOD 0; the shifts with IMM[31:6] 0, MOVHI with RS1 0. -/
def Obligations.ScalarArithmetic : Prop :=
  (∀ (s : State) (i : Issue), Issues s i → i.md = 0 → i.imm = 0 →
    let a := (s.core i.c).reg i.rs1.toNat
    let b := (s.core i.c).reg i.rs2.toNat
    (∀ op ∈ ([(Instr.add, a + b), (.sub, a - b), (.andReg, a &&& b), (.orReg, a ||| b), (.xorReg, a ^^^ b),
        (.sll, a <<< (b.toNat % 64)), (.srl, a >>> (b.toNat % 64)), (.sra, a.sshiftRight (b.toNat % 64)),
        (.slt, if a.toInt < b.toInt then 1 else 0), (.sltu, if a.toNat < b.toNat then 1 else 0),
        (.minReg, if a.toInt < b.toInt then a else b), (.maxReg, if a.toInt < b.toInt then b else a),
        (.mul, a * b), (.mulhu, BitVec.ofNat 64 (a.toNat * b.toNat / 2 ^ 64))] : List ((Issue → Instr) × W64)),
      Spelt s (op.1 i) → ∃ t, exec (op.1 i) s = .next t ∧ RegResult s t i op.2 ∧ NextPc s t i) ∧
    (b ≠ 0 → ∀ op ∈ ([(Instr.divu, BitVec.ofNat 64 (a.toNat / b.toNat)), (.remu, BitVec.ofNat 64 (a.toNat % b.toNat))] :
        List ((Issue → Instr) × W64)),
      Spelt s (op.1 i) → ∃ t, exec (op.1 i) s = .next t ∧ RegResult s t i op.2 ∧ NextPc s t i)) ∧
  (∀ (s : State) (i : Issue), Issues s i → i.rs2 = 0 → i.md = 0 →
    let a := (s.core i.c).reg i.rs1.toNat
    let se := i.imm.signExtend 64
    let ze := i.imm.setWidth 64
    (∀ op ∈ ([(Instr.addi, a + se), (.andi, a &&& ze), (.ori, a ||| ze), (.xori, a ^^^ ze),
        (.slti, if a.toInt < se.toInt then 1 else 0)] : List ((Issue → Instr) × W64)),
      Spelt s (op.1 i) → ∃ t, exec (op.1 i) s = .next t ∧ RegResult s t i op.2 ∧ NextPc s t i) ∧
    (i.imm.toNat < 64 → ∀ op ∈ ([(Instr.slli, a <<< i.imm.toNat), (.srli, a >>> i.imm.toNat), (.srai, a.sshiftRight i.imm.toNat)] :
        List ((Issue → Instr) × W64)),
      Spelt s (op.1 i) → ∃ t, exec (op.1 i) s = .next t ∧ RegResult s t i op.2 ∧ NextPc s t i) ∧
    (i.rs1 = 0 → Spelt s (.movhi i) → ∃ t, exec (.movhi i) s = .next t ∧ RegResult s t i (ze <<< 32) ∧ NextPc s t i))

/-- R239: a conditional branch goes to PC + IMM in words when its condition holds and to the next word otherwise; JAL and
JALR write PC + 1 to RD, JALR goes to BASE + RS1 + IMM; LOOP subtracts 1 from RD and branches if the result is not 0, and
leaves an RD of 0. Addresses are taken modulo 2^64. -/
def Obligations.Branches : Prop :=
  ∀ (s : State) (i : Issue), Issues s i → i.md = 0 →
    let k := s.core i.c
    let a := k.reg i.rs1.toNat
    let b := k.reg i.rs2.toNat
    let target := (BitVec.ofNat 64 k.run.pc + i.imm.signExtend 64).toNat
    let link := BitVec.ofNat 64 (k.run.pc + 1)
    (i.rd = 0 → ∀ op ∈ ([(Instr.beq, decide (a = b)), (.bne, decide (a ≠ b)), (.blt, decide (a.toInt < b.toInt)),
        (.bge, decide (b.toInt ≤ a.toInt)), (.bltu, decide (a.toNat < b.toNat)), (.bgeu, decide (b.toNat ≤ a.toNat))] :
        List ((Issue → Instr) × Bool)),
      Spelt s (op.1 i) → ∃ t, exec (op.1 i) s = .next t ∧ NoResult s t i ∧ (t.core i.c).run.pc = if op.2 then target else k.run.pc + 1) ∧
    (i.rs1 = 0 → i.rs2 = 0 → Spelt s (.jal i) → ∃ t, exec (.jal i) s = .next t ∧ RegResult s t i link ∧ (t.core i.c).run.pc = target) ∧
    (i.rs2 = 0 → Spelt s (.jalr i) → ∃ t, exec (.jalr i) s = .next t ∧ RegResult s t i link ∧
      (t.core i.c).run.pc = (BitVec.ofNat 64 k.run.base + a + i.imm.signExtend 64).toNat) ∧
    (i.rs1 = 0 → i.rs2 = 0 →
      let v := k.reg i.rd.toNat
      Spelt s (.loop i) → ∃ t, exec (.loop i) s = .next t ∧ RegResult s t i (if v = 0 then 0 else v - 1) ∧
        (t.core i.c).run.pc = if v = 0 ∨ v = 1 then k.run.pc + 1 else target)

/-- R231, R233, R239, R241: a load of the near store below the context slots, aligned to its size, writes its register; a
check that corrected an error does not change the result. -/
def Obligations.Loads : Prop :=
  ∀ (s : State) (i : Issue), Issues s i → i.rs2 = 0 → i.md = 0 → i.data ≠ .uncorrectable →
    let k := s.core i.c
    let a := (k.reg i.rs1.toNat + i.imm.signExtend 64).toNat
    let byte := fun x => (Memory.read k.near x).toNat
    let half := byte a + 256 * byte (a + 1)
    let word := half + 65536 * (byte (a + 2) + 256 * byte (a + 3))
    (a < 0x5C000 →
      (Spelt s (.ld8u i) → ∃ t, exec (.ld8u i) s = .next t ∧ RegResult s t i (BitVec.ofNat 64 (byte a)) ∧ NextPc s t i) ∧
      (Spelt s (.ld8s i) → ∃ t, exec (.ld8s i) s = .next t ∧ RegResult s t i ((BitVec.ofNat 8 (byte a)).signExtend 64) ∧ NextPc s t i)) ∧
    (a % 2 = 0 → a < 0x5C000 →
      (Spelt s (.ld16u i) → ∃ t, exec (.ld16u i) s = .next t ∧ RegResult s t i (BitVec.ofNat 64 half) ∧ NextPc s t i) ∧
      (Spelt s (.ld16s i) → ∃ t, exec (.ld16s i) s = .next t ∧ RegResult s t i ((BitVec.ofNat 16 half).signExtend 64) ∧ NextPc s t i)) ∧
    (a % 4 = 0 → a < 0x5C000 →
      (Spelt s (.ld32u i) → ∃ t, exec (.ld32u i) s = .next t ∧ RegResult s t i (BitVec.ofNat 64 word) ∧ NextPc s t i) ∧
      (Spelt s (.ld32s i) → ∃ t, exec (.ld32s i) s = .next t ∧ RegResult s t i ((BitVec.ofNat 32 word).signExtend 64) ∧ NextPc s t i) ∧
      (k.sfuFree [i.rd.toNat] = true → Spelt s (.ldvb i) → ∃ t v, exec (.ldvb i) s = .next t ∧ VecResult s t i v 0 ∧ NextPc s t i ∧
        ∀ lane < 32, v.extractLsb' (32 * lane) 32 = BitVec.ofNat 32 word)) ∧
    (a % 8 = 0 → a < 0x5C000 → Spelt s (.ld64 i) → ∃ t, exec (.ld64 i) s = .next t ∧
      RegResult s t i (BitVec.ofNat 64 (leNat (Memory.readN k.near a 8))) ∧ NextPc s t i) ∧
    (a % 128 = 0 → a < 0x5C000 → k.sfuFree [i.rd.toNat] = true → Spelt s (.ldv i) → ∃ t v, exec (.ldv i) s = .next t ∧ VecResult s t i v 0 ∧
      NextPc s t i ∧ ∀ n < 128, v.extractLsb' (8 * n) 8 = Memory.read k.near (a + n))

/-- R231, R233, R239, R241: a store to the program data area, aligned to its size, writes the low bytes of RS2 (STV: the
bytes of vRD) and nothing else. A check that corrected an error of the word does not change the result. -/
def Obligations.Stores : Prop :=
  ∀ (s : State) (i : Issue), Issues s i → i.md = 0 →
    let k := s.core i.c
    let a := (k.reg i.rs1.toNat + i.imm.signExtend 64).toNat
    let b := k.reg i.rs2.toNat
    let low := fun n => (List.range n).map (fun j => b.extractLsb' (8 * j) 8)
    a < 0x5B800 →
    (i.rd = 0 →
      (i.data ≠ .uncorrectable → ∀ op ∈ ([(Instr.st8, 1), (.st16, 2), (.st32, 4)] : List ((Issue → Instr) × Nat)), a % op.2 = 0 →
        Spelt s (op.1 i) → ∃ t, exec (op.1 i) s = .next t ∧ StoreResult s t i a (low op.2) ∧ NextPc s t i) ∧
      (a % 8 = 0 → Spelt s (.st64 i) → ∃ t, exec (.st64 i) s = .next t ∧ StoreResult s t i a (low 8) ∧ NextPc s t i)) ∧
    (i.rs2 = 0 → a % 128 = 0 → k.sfuFree [i.rd.toNat] = true →
      Spelt s (.stv i) → ∃ t, exec (.stv i) s = .next t ∧
        StoreResult s t i a ((List.range 128).map (fun j => (k.vreg i.rd.toNat).extractLsb' (8 * j) 8)) ∧ NextPc s t i)

/-- R241, R321, R322: VADD, VSUB, VMUL and VFMA on integer formats, with SAT 0: each element wraps and no flag is set.
R241, R321-R323: the same operations on floating-point formats, each element rounded once under MOD.
What rests on the model's own reading: notes/assumptions/44.md. -/
def Obligations.VectorArithmetic : Prop :=
  (∀ (s : State) (i : Issue), Issues s i → i.imm = 0 → ∀ f ∈ [8, 9, 10], i.md.toNat = f →
    let k := s.core i.c
    let x := fun e => (k.el i.rs1.toNat f e : Int)
    let y := fun e => (k.el i.rs2.toNat f e : Int)
    let z := fun e => (k.el i.rd.toNat f e : Int)
    k.sfuFree [i.rd.toNat, i.rs1.toNat, i.rs2.toNat] = true →
    ∀ op ∈ ([(Instr.vadd, fun e => x e + y e), (.vsub, fun e => x e - y e), (.vmul, fun e => x e * y e),
        (.vfma, fun e => x e * y e + z e)] : List ((Issue → Instr) × (Nat → Int))),
      ElemResult s i f (fmtCount f) (fun e => ((op.2 e % 2 ^ fmtBits f).toNat, 0)) (op.1 i)) ∧
  (∀ (s : State) (i : Issue), Issues s i → i.imm = 0 → ∀ f ∈ [0, 1, 2], i.md.toNat % 16 = f →
    let k := s.core i.c
    let x := fun e => decodeNum f (k.el i.rs1.toNat f e)
    let y := fun e => decodeNum f (k.el i.rs2.toNat f e)
    let z := fun e => decodeNum f (k.el i.rd.toNat f e)
    k.sfuFree [i.rd.toNat, i.rs1.toNat, i.rs2.toNat] = true →
    ∀ op ∈ ([(Instr.vadd, fun e => addInto f (modRnd i) (modSat i) (x e) (y e)), (.vsub, fun e => addInto f (modRnd i) (modSat i) (x e) (y e).neg),
        (.vmul, fun e => mulInto f (modRnd i) (modSat i) (x e) (y e)), (.vfma, fun e => fmaInto f (modRnd i) (modSat i) (x e) (y e) (z e))] :
        List ((Issue → Instr) × (Nat → Nat × Flags))),
      ElemResult s i f (fmtCount f) op.2 (op.1 i))

/-- R241, R323: VMIN, VMAX and VCMP in every format vector arithmetic takes; they set no flag. VCMP's condition is IMM.
What rests on the model's own reading: notes/assumptions/44.md. -/
def Obligations.VectorComparisons : Prop :=
  ∀ (s : State) (i : Issue), Issues s i → ∀ f ∈ [0, 1, 2, 8, 9, 10], i.md.toNat % 16 = f → (8 ≤ f → modRnd i = 0) →
    let k := s.core i.c
    let x := fun e => k.el i.rs1.toNat f e
    let y := fun e => k.el i.rs2.toNat f e
    k.sfuFree [i.rd.toNat, i.rs1.toNat, i.rs2.toNat] = true →
    (i.imm = 0 →
      ElemResult s i f (fmtCount f) (fun e => (pick f true (x e) (y e), 0)) (.vmin i) ∧
      ElemResult s i f (fmtCount f) (fun e => (pick f false (x e) (y e), 0)) (.vmax i)) ∧
    (i.imm.toNat < 6 →
      ElemResult s i f (fmtCount f)
        (fun e => (if compares i.imm.toNat (decodeNum f (x e)) (decodeNum f (y e)) then 2 ^ fmtBits f - 1 else 0, 0))
        (.vcmp i))

/-- R241: VRSUM on integer formats with SAT 0 and VRMAX on every format leave their result in element 0 of vRD and 0 in every
other element; VRSUM on floating-point formats adds in ascending element order and rounds after each addition.
What rests on the model's own reading: notes/assumptions/44.md. -/
def Obligations.VectorReductions : Prop :=
  ∀ (s : State) (i : Issue), Issues s i → i.rs2 = 0 → i.imm = 0 → ∀ f ∈ [0, 1, 2, 8, 9, 10], i.md.toNat % 16 = f →
    (8 ≤ f → modRnd i = 0) →
    let k := s.core i.c
    let x := fun e => k.el i.rs1.toNat f e
    let n := fmtCount f
    k.sfuFree [i.rd.toNat, i.rs1.toNat] = true →
    (Spelt s (.vrsum i) → ∃ t v g, exec (.vrsum i) s = .next t ∧ VecResult s t i v g ∧ NextPc s t i ∧
      (8 ≤ f → modSat i = false → elem v.toNat (fmtBits f) 0 = ((List.range n).map x).sum % 2 ^ fmtBits f ∧ g = 0) ∧
      (f < 8 → (elem v.toNat (fmtBits f) 0, g) = (List.range (n - 1)).foldl
        (fun p e => let r := addInto f (modRnd i) (modSat i) (decodeNum f p.1) (decodeNum f (x (e + 1))); (r.1, p.2 ||| r.2)) (x 0, 0)) ∧
      ∀ e, 0 < e → e < n → elem v.toNat (fmtBits f) e = 0) ∧
    (Spelt s (.vrmax i) → ∃ t v, exec (.vrmax i) s = .next t ∧ VecResult s t i v 0 ∧ NextPc s t i ∧
      elem v.toNat (fmtBits f) 0 = (List.range (n - 1)).foldl (fun m e => pick f false m (x (e + 1))) (x 0) ∧
      ∀ e, 0 < e → e < n → elem v.toNat (fmtBits f) e = 0)

/-- R324-R328: VCVT between any two formats that convert, part by part: into a narrower format it fills part PART of vRD and
leaves the other parts, into a wider or equal one it converts that part of vRS1.
What rests on the model's own reading: notes/assumptions/44.md, notes/assumptions/50.md. -/
def Obligations.VectorConversion : Prop :=
  ∀ (s : State) (i : Issue), Issues s i → i.rs2 = 0 →
    let src := i.imm.toNat % 16
    let part := i.imm.toNat / 16
    let f := i.md.toNat % 16
    let k := s.core i.c
    let x := fun e => k.el i.rs1.toNat src e
    let n := fmtCount src
    let m := fmtCount f
    let y := fun e => convert src f (modRnd i) (modSat i) e
    convertible src f = true → k.sfuFree [i.rd.toNat, i.rs1.toNat] = true →
    (n ≤ m → part < m / n → Spelt s (.vcvt i) → ∃ t v, exec (.vcvt i) s = .next t ∧
      VecResult s t i v (orFlags ((List.range n).map (fun e => y (x e)))) ∧ NextPc s t i ∧
      ∀ e < m, elem v.toNat (fmtBits f) e =
        if part * n ≤ e ∧ e < part * n + n then (y (x (e - part * n))).1 else k.el i.rd.toNat f e) ∧
    (m < n → part < n / m → ElemResult s i f m (fun e => y (x (part * m + e))) (.vcvt i))

/-- R241: VPERM, VBCAST and VMOVS move bits and set no flag.
What rests on the model's own reading: notes/assumptions/44.md. -/
def Obligations.VectorMoves : Prop :=
  ∀ (s : State) (i : Issue), Issues s i → ∀ f ∈ [0, 1, 2, 8, 9, 10], i.md.toNat = f →
    let k := s.core i.c
    let w := fmtBits f
    (i.imm = 0 → k.sfuFree [i.rd.toNat, i.rs1.toNat, i.rs2.toNat] = true →
      ElemResult s i f (fmtCount f) (fun e => (k.el i.rs1.toNat f (k.el i.rs2.toNat f e % fmtCount f), 0)) (.vperm i)) ∧
    (i.imm = 0 → i.rs2 = 0 → k.sfuFree [i.rd.toNat] = true →
      ElemResult s i f (fmtCount f) (fun _ => ((k.reg i.rs1.toNat).toNat % 2 ^ w, 0)) (.vbcast i)) ∧
    (i.rs2 = 0 → i.imm.toNat < fmtCount f → k.sfuFree [i.rs1.toNat] = true →
      let e := k.el i.rs1.toNat f i.imm.toNat
      Spelt s (.vmovs i) → ∃ t, exec (.vmovs i) s = .next t ∧
        RegResult s t i (if 8 ≤ f then (BitVec.ofNat w e).signExtend 64 else BitVec.ofNat 64 e) ∧ NextPc s t i)

/-! ## The units of a core (ch. 08-11, 13) -/

/-- R295: ACFG, APASS and AOUT enter the array queue of four entries; with four entries queued they wait to issue.
R313, R299: the free array takes the head of its queue: ACFG sets the configuration, APASS starts a pass with zero
accumulators, AOUT to an aligned address inside the program data area occupies the array.
What rests on the model's own reading: notes/assumptions/47.md. -/
def Obligations.ArrayCommands : Prop :=
  (∀ (s : State) (i : Issue), Issues s i → i.rd = 0 → i.imm = 0 →
    let k := s.core i.c
    let a := k.reg i.rs1.toNat
    let queued := fun o => { k with run := { k.run with arr := { k.run.arr with queue := k.run.arr.queue ++ [o] } } }
    (k.run.arr.queue.length < 4 →
      (i.md.toNat < 16 → Spelt s (.acfg i) → ∃ t, exec (.acfg i) s = .next t ∧
        IssuedAs s t i (queued (.cfg (a.toNat % 65536) (k.reg i.rs2.toNat) i.md))) ∧
      (i.rs1 = 0 → i.rs2 = 0 → i.md = 0 → Spelt s (.apass i) → ∃ t, exec (.apass i) s = .next t ∧ IssuedAs s t i (queued .pass)) ∧
      (i.rs2 = 0 → i.md.toNat < 32 → Spelt s (.aout i) → ∃ t, exec (.aout i) s = .next t ∧
        IssuedAs s t i (queued (.out a i.md (if i.md.toNat < 16 then none else k.run.sfu.issued))))) ∧
    (4 ≤ k.run.arr.queue.length → i.rs1 = 0 → i.rs2 = 0 → i.md = 0 → ∀ op ∈ [Instr.acfg, .apass, .aout],
      Spelt s (op i) → ∃ t, exec (op i) s = .next t ∧ WaitsToIssue s t i)) ∧
  (∀ (s : State) (τ : Instant) (c : CoreId) (o : ArrOp) (q : List ArrOp),
    let k := s.core c.val
    let arr := { k.run.arr with queue := q }
    let becomes := fun (t : State) (x : Arr) => CoreBecomes s t τ c.val { k with run := { k.run with arr := x } }
    k.mode = .running ∨ k.mode = .waiting → k.run.arr.queue = o :: q → k.run.arr.pass = false → k.run.arr.out = none →
    (∀ n opts md g, o = .cfg n opts md → s.arrCfg (coreTower c.val) n opts md = some g →
      ∃ t, exec (.arrayQueueStart τ c) s = .next t ∧ becomes t { arr with cfg := some g }) ∧
    (∀ g, o = .pass → k.run.arr.cfg = some g → 0 < g.strips →
      ∃ t, exec (.arrayQueueStart τ c) s = .next t ∧ OnlyCore s t c.val ∧
        (t.core c.val).run.arr = { arr with acc := [], pass := true, begun := false, done := 0, lost := arr.lost || (arr.tile && !arr.written),
                                            tile := false, written := false, int := g.int }) ∧
    (∀ addr md rs, o = .out addr md rs → md.toNat < 16 → 0 < outSize arr.int arr.tile md.toNat → addr.toNat % 128 = 0 →
      addr.toNat + 16384 * outSize arr.int arr.tile md.toNat ≤ 0x5B800 →
      ∃ t, exec (.arrayQueueStart τ c) s = .next t ∧ becomes t { arr with out := some o }))

/-- R303, R388: an inlet grants one strip more to a pass that asks for it; R297: a strip that both inlets granted takes 128
beats and leaves the accumulators that its products give; R60, R62: a pinned core runs it only on 128 beats of budget, and
a pass's first strip only once its pass has begun at a token; R312: a
strip that does not end in time is an imprecise ARRAY fault with DETAIL 5.
R298, R299: an AOUT without row statistics has written its tile: row i, column j stands at the address + 128 × i × size
+ j × size, converted to the output format; everything else of the near store is as before.
What rests on the model's own reading: notes/assumptions/47.md, notes/assumptions/51.md. -/
def Obligations.ArrayWork : Prop :=
  (∀ (s : State) (τ : Instant) (c : CoreId),
    let k := s.core c.val
    (k.mode = .running ∨ k.mode = .waiting →
      (∀ n : Inlet, let x := k.run.str.inlet n
        k.run.arr.asks x = true → x.grantable = true → x.ends.contains x.head = false →
        ∃ t, exec (.stripGrant τ c n) s = .next t ∧ OnlyCore s t c.val ∧
          ((t.core c.val).run.str.inlet n).ahead = x.ahead + 1 ∧ ((t.core c.val).run.str.inlet n).head = x.head ∧
          (t.core c.val).run.arr = k.run.arr) ∧
      (∀ g, k.run.arr.cfg = some g → k.stripRuns = true → (s.pinned c.val = true → 128 ≤ k.budgetBeats) →
        (s.pinned c.val = true → k.run.arr.begun = true ∨ 0 < k.run.arr.done) → k.run.arr.done + 1 < g.strips → k.run.str.west.ends = [] → k.run.str.north.ends = [] →
        ∃ t, exec (.stripEnd τ c) s = .next t ∧ OnlyCore s t c.val ∧
          (t.core c.val).run.arr.acc = (stripWork k g).1 ∧ (t.core c.val).run.arr.done = k.run.arr.done + 1 ∧
          (t.core c.val).run.arr.beats = min (k.run.arr.beats + 128) (2 ^ 64 - 1) ∧
          (t.core c.val).budgetBeats = k.budgetBeats - 128 ∧ (t.core c.val).run.g = k.run.g ∧ (t.core c.val).near = k.near)) ∧
    (k.mode = .running ∨ k.mode = .waiting → k.stripRuns = true →
      ∃ t, exec (.beatTimeout τ c) s = .next t ∧ Faulted t c.val false 0x12 5 k.run.pc)) ∧
  (∀ (s : State) (τ : Instant) (c : CoreId) (addr : W64) (md : BitVec 7) (rs : Option Rstat),
    let k := s.core c.val
    let a := k.run.arr
    let size := outSize a.int a.tile (md.toNat % 16)
    let src := if a.tile then (if a.int then 8 else 0) else (if 8 ≤ md.toNat % 16 ∧ md.toNat % 16 < 12 then 8 else 0)
    k.mode = .running ∨ k.mode = .waiting → a.out = some (.out addr md rs) → rs = none → 0 < size →
    (s.pinned c.val = true → outBeats size ≤ k.budgetBeats) →
    ∃ t, exec (.aoutDone τ c) s = .next t ∧ OnlyCore s t c.val ∧
      (t.core c.val).run.arr = { a with out := none, written := a.written || a.tile } ∧
      (∀ i j, i < 128 → j < 128 →
        Memory.readN (t.core c.val).near (addr.toNat + (128 * i + j) * size) size =
          leBytes size (convert src (md.toNat % 16) 0 false (AMap.get 0 a.acc (128 * i + j)).toNat).1) ∧
      (∀ x, x < addr.toNat ∨ addr.toNat + 16384 * size ≤ x →
        Memory.read (t.core c.val).near x = Memory.read k.near x) ∧
      (t.core c.val).run.g = k.run.g ∧ (t.core c.val).run.v = k.run.v ∧ (t.core c.val).slice = k.slice)

/-- R330, R331, R341, R343: the instructions of the special function unit enter its queue of four with the operands they
read.
What rests on the model's own reading: notes/assumptions/45.md. -/
def Obligations.SfuInstructions : Prop :=
  ∀ (s : State) (i : Issue), Issues s i →
    let k := s.core i.c
    let q := k.run.sfu.queue
    let queued := fun (o : SfuOp) => { k with run := { k.run with sfu := { k.run.sfu with queue := q ++ [o] } } }
    let r1 := i.rs1.toNat
    let r2 := i.rs2.toNat
    q.length < 4 →
    (i.imm = 0 → i.md = 0 → r2 % 2 = 0 → k.sfuFree [i.rd.toNat, r2, r2 + 1] = true →
      ∀ op ∈ ([(Instr.sin, 0), (.cos, 1)] : List ((Issue → Instr) × Nat)), Spelt s (op.1 i) → ∃ t, exec (op.1 i) s = .next t ∧
        IssuedAs s t i (queued { op := op.2, rd := i.rd, sc := k.reg r1, lo := k.vreg r2, hi := k.vreg (r2 + 1) })) ∧
    (i.imm = 0 → i.md = 1 → r2 % 2 = 0 → k.sfuFree [i.rd.toNat, r2, r2 + 1, r1] = true →
      ∀ op ∈ ([(Instr.sin, 0), (.cos, 1)] : List ((Issue → Instr) × Nat)), Spelt s (op.1 i) → ∃ t, exec (op.1 i) s = .next t ∧
        IssuedAs s t i (queued { op := op.2, rd := i.rd, plane := true, sc := k.reg r1, x := k.vreg r1,
                                 lo := k.vreg r2, hi := k.vreg (r2 + 1) })) ∧
    (i.imm = 0 → i.md = 0 → i.rs2 = 0 → k.sfuFree [i.rd.toNat, r1] = true →
      (∀ op ∈ ([(Instr.rcp, 2), (.rsqrt, 3)] : List ((Issue → Instr) × Nat)), Spelt s (op.1 i) → ∃ t, exec (op.1 i) s = .next t ∧
        IssuedAs s t i (queued { op := op.2, rd := i.rd, x := k.vreg r1 })) ∧
      ∀ n : Fin 4, Spelt s (.tbl i n) → ∃ t, exec (.tbl i n) s = .next t ∧ IssuedAs s t i (queued { op := 4 + n.val, rd := i.rd, x := k.vreg r1 })) ∧
    (i.imm = 0 → i.md = 1 → i.rs2 = 0 → i.rd = 0 →
      ∀ n : Fin 4, Spelt s (.tblLoad i n) → ∃ t, exec (.tblLoad i n) s = .next t ∧
        IssuedAs s t i (queued { op := 4 + n.val, load := true, sc := k.reg r1 })) ∧
    (i.md = 0 → i.rd = 0 → i.imm.toNat < 64 → i.imm.toNat % 16 < 8 → i.imm.toNat % 8 ≠ 5 → i.imm.toNat % 8 ≠ 7 →
      k.rowstatOut = false → Spelt s (.rstat i) → ∃ t r, exec (.rstat i) s = .next t ∧
        { t with free := s.free, clock := s.clock, cores := s.cores, flt := s.flt } = s ∧
        (t.core i.c).run.sfu.queue = q ++ [{ op := 8, rs := some r }] ∧ (t.core i.c).run.sfu.issued = some r ∧
        r.addr = (k.reg r1).toNat ∧ r.moments = decide (i.imm.toNat % 2 = 1) ∧ r.clear = decide (i.imm.toNat / 2 % 2 = 1) ∧
        r.emit = decide (i.imm.toNat / 4 % 2 = 1) ∧ r.table = i.imm.toNat / 16 ∧
        ((k.reg i.rs2.toNat).toNat < 2 ^ 32 → (decodeNum 0 (k.reg i.rs2.toNat).toNat).finite = true →
          r.sigma = (k.reg i.rs2.toNat).setWidth 32))

/-- R330-R341: the head of the queue ends. SIN and COS take the phase modulo 2^64, RCP and RSQRT a value within one ulp, TBLt
the table's value; each writes vRD lane by lane. A run-time load replaces its table whole.
What rests on the model's own reading: notes/assumptions/8.md, notes/assumptions/45.md. -/
def Obligations.SfuCompletions : Prop :=
  ∀ (s : State) (τ : Instant) (c : CoreId) (o : SfuOp) (q : List SfuOp),
    let k := s.core c.val
    k.busy = true → k.run.sfu.queue = o :: q →
    (o.load = false → o.op < 8 → (4 ≤ o.op → (k.table (o.op - 4)).loaded = true) → ∃ t, exec (.sfuOpComplete τ c) s = .next t ∧
      { t with free := s.free, clock := s.clock, cores := s.cores } = s ∧
      (∀ d, d ≠ c.val → t.core d = s.core d) ∧
      (t.core c.val).run.sfu.queue = q ∧ (t.core c.val).run.g = k.run.g ∧ (t.core c.val).near = k.near ∧
      (∀ r, r ≠ o.rd.toNat → (t.core c.val).vreg r = k.vreg r) ∧
      (∀ l < 32, (t.core c.val).el o.rd.toNat 0 l =
        (match o.op with
         | 0 => sinPhase (Config.trigPick (s.free + l)) (phaseOf o l)
         | 1 => cosPhase (Config.trigPick (s.free + l)) (phaseOf o l)
         | 2 => (rcp (Config.ulpPick (s.free + l)) (elem o.x.toNat 32 l)).1
         | 3 => (rsqrt (Config.ulpPick (s.free + l)) (elem o.x.toNat 32 l)).1
         | _ => (tableAt (k.table (o.op - 4)).body (elem o.x.toNat 32 l)).1) % 2 ^ 32)) ∧
    (o.load = true → o.sc.toNat % 16 = 0 → o.sc.toNat + 4128 ≤ 0x5B800 → tableOk (Memory.readN k.near o.sc.toNat 4128) = true →
      ∃ t, exec (.tableLoadComplete τ c) s = .next t ∧
        CoreBecomes s t τ c.val { k with
          run := { k.run with sfu := { k.run.sfu with queue := q } },
          tables := AMap.put {} k.tables (o.op - 4)
            { loaded := true, runtime := true, loads := min 0xFFFF ((k.table (o.op - 4)).loads + 1),
              body := Memory.readN k.near o.sc.toNat 4128 } })

/-- R243-R245: WAIT and WAITT with an even RD. With both masks 0 they complete at once with 0; with a selected condition true
they write the conditions of the units to RD and those of the endpoints to RD + 1; otherwise they wait, WAITT until IMM ns
have passed. A WAITT with IMM 0 writes the present conditions.
R243, R245, R246: a wait ends when a selected condition is true, when WAITT's time has passed (RD then holds bit 63
alone and RD + 1 holds 0), or when the fence holds; the core runs again.
What rests on the model's own reading: notes/assumptions/1.md, notes/assumptions/54.md. -/
def Obligations.Waiting : Prop :=
  (∀ (s : State) (i : Issue), Issues s i → i.md = 0 → i.rd.toNat % 2 = 0 →
    let k := s.core i.c
    let units := (k.reg i.rs1.toNat).setWidth 16 &&& 0x1F#16
    let eps := k.reg i.rs2.toNat
    let d := i.rd.toNat
    let writes := fun (t : State) (u e : W64) => Issued s t i ∧ NextPc s t i ∧
      (∀ r, (t.core i.c).reg r = if r = 0 then 0 else if r = d then u else if r = d + 1 then e else k.reg r) ∧
      (t.core i.c).quiet = { k.quiet with run := { k.quiet.run with g := (t.core i.c).run.g } }
    (units = 0 → eps = 0 →
      (i.imm = 0 → Spelt s (.wait i) → ∃ t, exec (.wait i) s = .next t ∧ writes t 0 0) ∧
      (i.imm ≠ 0 → Spelt s (.waitt i) → ∃ t, exec (.waitt i) s = .next t ∧ writes t 0 0)) ∧
    (k.selected units eps = true →
      (i.imm = 0 → Spelt s (.wait i) → ∃ t, exec (.wait i) s = .next t ∧ writes t (BitVec.ofNat 64 k.units) (BitVec.ofNat 64 k.endpoints)) ∧
      (Spelt s (.waitt i) → ∃ t, exec (.waitt i) s = .next t ∧ writes t (BitVec.ofNat 64 k.units) (BitVec.ofNat 64 k.endpoints))) ∧
    (k.selected units eps = false → (units ≠ 0 ∨ eps ≠ 0) →
      (i.imm = 0 → Spelt s (.wait i) → ∃ t, exec (.wait i) s = .next t ∧ Waits s t i (.cond d units eps none)) ∧
      (i.imm ≠ 0 → Spelt s (.waitt i) → ∃ t, exec (.waitt i) s = .next t ∧
        Waits s t i (.cond d units eps (some (max s.clock i.time + i.imm.toNat))))) ∧
    (i.imm = 0 → Spelt s (.waitt i) → ∃ t, exec (.waitt i) s = .next t ∧ writes t (BitVec.ofNat 64 k.units) (BitVec.ofNat 64 k.endpoints))) ∧
  (∀ (s : State) (τ : Instant) (c : CoreId) (since : Nat),
    let k := s.core c.val
    let resumes := fun (t : State) => OnlyCore s t c.val ∧ t.clock = max s.clock τ ∧ (t.core c.val).mode = .running ∧
      (t.core c.val).run.wait = none ∧ (t.core c.val).run.pc = k.run.pc ∧ (t.core c.val).near = k.near ∧
      (t.core c.val).run.v = k.run.v ∧ (t.core c.val).run.arr = k.run.arr ∧ (t.core c.val).run.str = k.run.str
    let holds := fun (t : State) (d : Nat) (u e : W64) => ∀ r, (t.core c.val).reg r =
      if r = 0 then 0 else if r = d + 1 then e else if r = d then u else k.reg r
    k.mode = .waiting →
    (∀ d units eps lim, k.run.wait = some (.cond d units eps lim, since) →
      (k.selected units eps = true → ∃ t, exec (.waitComplete τ c) s = .next t ∧ resumes t ∧
        holds t d (BitVec.ofNat 64 k.units) (BitVec.ofNat 64 k.endpoints)) ∧
      (∀ n, lim = some n → n ≤ max s.clock τ → ∃ t, exec (.waittTimeout τ c) s = .next t ∧ resumes t ∧
        holds t d (BitVec.ofNat 64 (2 ^ 63)) 0)) ∧
    (∀ kind, k.run.wait = some (.fence kind, since) → s.fenced c.val kind = true →
      ∃ t, exec (.fenceComplete τ c) s = .next t ∧ resumes t ∧ (t.core c.val).run.g = k.run.g))

/-- R246, R248: FENCE completes at once when nothing is outstanding and waits otherwise, any MOD but 1 and 2 being ILLEGAL; END waits for the units; when they
are idle the core's part ends: the core is idle, LAST 1, and the launch notes the end.
What rests on the model's own reading: notes/assumptions/54.md, notes/assumptions/55.md. -/
def Obligations.FenceAndEnd : Prop :=
  (∀ (s : State) (i : Issue), Issues s i → i.rd = 0 → i.rs1 = 0 → i.rs2 = 0 → i.imm = 0 →
    (∀ kind ∈ [1, 2], i.md.toNat = kind →
      (s.fenced i.c kind = true → Spelt s (.fence i) → ∃ t, exec (.fence i) s = .next t ∧ NoResult s t i ∧ NextPc s t i) ∧
      (s.fenced i.c kind = false → Spelt s (.fence i) → ∃ t, exec (.fence i) s = .next t ∧ Waits s t i (.fence kind))) ∧
    (i.md ≠ 1 → i.md ≠ 2 → Spelt s (.fence i) → ∃ t, exec (.fence i) s = .next t ∧ Faulted t i.c true 1 0 (s.core i.c).run.pc) ∧
    (i.md = 0 → Spelt s (.endPart i) → ∃ t, exec (.endPart i) s = .next t ∧ Waits s t i .ending)) ∧
  (∀ (s : State) (τ : Instant) (c : CoreId) (since n : Nat), (s.core c.val).mode = .waiting →
    (s.core c.val).run.wait = some (.ending, since) → s.unitsIdle c.val = true → s.coreOwner c.val = some n →
    ∃ t, exec (.corePartEnd τ c) s = .next t ∧ (t.core c.val).mode = .idle ∧ (t.core c.val).last = 1 ∧
      (t.core c.val).near = (s.core c.val).near ∧ (t.core c.val).run.g = (s.core c.val).run.g ∧
      (∀ d, d ≠ c.val → t.core d = s.core d) ∧ (∀ m, m ≠ n → t.part m = s.part m) ∧
      (t.part n).launches = (s.part n).launches.map (fun l => if l.id = (s.core c.val).run.launch then
        { l with ends := if l.ends.any (fun e => decide (e.1 = c.val)) then l.ends else l.ends ++ [(c.val, 0)],
                 beats := l.beats + (s.core c.val).run.arr.beats } else l) ∧
      { t with clock := s.clock, cores := s.cores, parts := s.parts, flt := s.flt } = s)

/-- R247, R373, R242: RDSYS writes the value that IMM selects, any other IMM being ILLEGAL; SQSTAT writes the descriptors
completed, queued and running to RD; CLRF clears CORE_VFLAGS. -/
def Obligations.SystemInstructions : Prop :=
  ∀ (s : State) (i : Issue), Issues s i → i.rs1 = 0 → i.rs2 = 0 → i.md = 0 →
    let k := s.core i.c
    (i.imm.toNat < 8 → Spelt s (.rdsys i) → ∃ t, exec (.rdsys i) s = .next t ∧ NextPc s t i ∧ RegResult s t i
      (match i.imm.toNat with
       | 0 => BitVec.ofNat 64 i.core.val
       | 1 => BitVec.ofNat 64 k.run.graph
       | 2 => k.run.serial.setWidth 64
       | 3 => (s.at i.time).stamp
       | 4 => BitVec.ofNat 64 (s.at i.time).mono
       | 5 => k.run.vflags.setWidth 64
       | 6 => BitVec.ofNat 64 k.run.arr.beats
       | _ => BitVec.ofNat 64 k.run.preempts)) ∧
    (8 ≤ i.imm.toNat → Spelt s (.rdsys i) → ∃ t, exec (.rdsys i) s = .next t ∧ Faulted t i.c true 1 0 k.run.pc) ∧
    (i.imm = 0 → Spelt s (.sqstat i) → ∃ t, exec (.sqstat i) s = .next t ∧ NextPc s t i ∧ RegResult s t i (BitVec.ofNat 64
      (k.run.str.done % 2 ^ 32 + 2 ^ 32 * k.run.str.queue.length + 2 ^ 36 * k.run.str.running))) ∧
    (i.rd = 0 → i.imm = 0 → Spelt s (.clrf i) → ∃ t, exec (.clrf i) s = .next t ∧
      IssuedAs s t i { k with run := { k.run with vflags := 0 } })

/-- R237-R239, R249, R251: precise faults. A division by 0 is DIV_ZERO, a word whose CLASS or OP is not defined or with a non-zero
field that the operation does not use is ILLEGAL, an address beyond what loads reach is NS_RANGE, a misaligned one NS_ALIGN, a PC outside the program
FETCH_RANGE, FAULT the cause SOFTWARE with its code; the program counter shown is that of the instruction.
R249-R252, R280, R313, R349: a fault that a unit of a busy core reports stops the core with its cause; an error of the near
store that the unit's check corrected does not (R234).
What rests on the model's own reading: notes/assumptions/42.md. -/
def Obligations.CoreFaults : Prop :=
  (∀ (s : State) (i : Issue), let k := s.core i.c
    let a := (k.reg i.rs1.toNat + i.imm.signExtend 64).toNat
    (Issues s i → i.md = 0 →
      (i.imm = 0 → k.reg i.rs2.toNat = 0 → ∀ op ∈ [Instr.divu, .remu],
        Spelt s (op i) → ∃ t, exec (op i) s = .next t ∧ Faulted t i.c true 5 0 k.run.pc) ∧
      (i.imm ≠ 0 → ∀ op ∈ [Instr.add, .sub, .mul, .divu], Spelt s (op i) → ∃ t, exec (op i) s = .next t ∧ Faulted t i.c true 1 0 k.run.pc) ∧
      (i.rs2 = 0 → 0x5C000 < a + 8 → Spelt s (.ld64 i) → ∃ t, exec (.ld64 i) s = .next t ∧ Faulted t i.c true 3 0 k.run.pc ∧
        (t.core i.c).fltAddr = BitVec.ofNat 64 a) ∧
      (i.rs2 = 0 → a + 8 ≤ 0x5C000 → a % 8 ≠ 0 → Spelt s (.ld64 i) → ∃ t, exec (.ld64 i) s = .next t ∧ Faulted t i.c true 4 0 k.run.pc ∧
        (t.core i.c).fltAddr = BitVec.ofNat 64 a) ∧
      (i.rd = 0 → 0x5B800 < a + 8 → Spelt s (.st64 i) → ∃ t, exec (.st64 i) s = .next t ∧ Faulted t i.c true 3 0 k.run.pc ∧
        (t.core i.c).near = k.near) ∧
      (i.rd = 0 → i.rs1 = 0 → i.rs2 = 0 → i.imm.toNat < 256 →
        Spelt s (.softFault i) → ∃ t, exec (.softFault i) s = .next t ∧ Faulted t i.c true 0x20 i.imm.toNat k.run.pc)) ∧
    (k.issuing = true → (s.pinned i.c = true → 0 < k.budgetIssues) → k.inProgram = false → ∀ op ∈ [Instr.add, .jal, .ld64, .endPart],
      ∃ t, exec (op i) s = .next t ∧ Faulted t i.c true 2 0 k.run.pc ∧ (t.core i.c).fltAddr = BitVec.ofNat 64 k.run.pc) ∧
    (k.issuing = true → (s.pinned i.c = true → 0 < k.budgetIssues) → k.inProgram = true → i.code ≠ .uncorrectable →
      (10 ≤ bits k.word.toNat 63 60 ∨ bits k.word.toNat 63 60 = 9 ∧ 4 ≤ bits k.word.toNat 59 54) →
      ∀ op ∈ [Instr.add, .jal, .ld64, .endPart], ∃ t, exec (op i) s = .next t ∧ Faulted t i.c true 1 0 k.run.pc)) ∧
  (∀ (s : State) (τ : Instant) (c : CoreId), (s.core c.val).busy = true →
    let pc := (s.core c.val).run.pc
    (∀ ep st, ∃ t, exec (.unitFaultReport τ c (.channel ep st)) s = .next t ∧ Faulted t c.val false 0x10 ep.val pc) ∧
    (∀ pos reason, ∃ t, exec (.unitFaultReport τ c (.stream pos reason)) s = .next t ∧
      Faulted t c.val false 0x11 (pos % 8) pc) ∧
    (∀ pos d a, ∃ t, exec (.unitFaultReport τ c (.sliceUe pos d a)) s = .next t ∧ Faulted t c.val false 0x14 d.toNat pc ∧
      (t.core c.val).fltAddr = BitVec.ofNat 64 a) ∧
    (∀ d, ∃ t, exec (.unitFaultReport τ c (.array d)) s = .next t ∧ Faulted t c.val false 0x12 d.toNat pc) ∧
    (∀ n r, ∃ t, exec (.unitFaultReport τ c (.sfu n r)) s = .next t ∧ Faulted t c.val false 0x13 n pc ∧
      (t.core c.val).run.sfu.valid = true ∧ (t.core c.val).run.sfu.unit = n ∧ (t.core c.val).run.sfu.reason = r.toNat) ∧
    (∀ item, (∃ t, exec (.unitFaultReport τ c (.nsEcc item .uncorrectable)) s = .next t ∧ Faulted t c.val false 6 item.toNat pc) ∧
      ∃ t, exec (.unitFaultReport τ c (.nsEcc item .corrected)) s = .next t ∧ (t.core c.val).mode = (s.core c.val).mode ∧
        (t.core c.val).run = (s.core c.val).run))

/-- R370, R372: SQ queues the four words at RS1 + IMM, SQDEF an image default, in the next of eight queue positions;
with eight queued they wait to issue. The positions go round (the model's choice,
DEDUCED, notes/assumptions/49.md).
R371, R376, R393, R389: a legal descriptor to a packed destination starts in a free lane, an Empty one completes at once;
a descriptor whose last burst is done completes; a request that has waited longer than the limit counts one stall. -/
def Obligations.StreamDescriptorsTaken : Prop :=
  (∀ (s : State) (i : Issue), Issues s i → i.rs2 = 0 → i.md = 0 →
    let k := s.core i.c
    let r := k.run.str
    let a := (k.reg i.rs1.toNat + i.imm.signExtend 64).toNat
    let queued := fun ws => { k with run := { k.run with str :=
      { r with queue := r.queue ++ [(r.issued % 8, ws)], issued := r.issued + 1 } } }
    (i.rd = 0 → i.data ≠ .uncorrectable → a % 32 = 0 → a < 0x5C000 →
      (r.queue.length < 8 → Spelt s (.sq i) → ∃ t, exec (.sq i) s = .next t ∧ IssuedAs s t i
        (queued ((List.range 4).map (fun j => BitVec.ofNat 64 (leNat (Memory.readN k.near (a + 8 * j) 8)))))) ∧
      (8 ≤ r.queue.length → Spelt s (.sq i) → ∃ t, exec (.sq i) s = .next t ∧ WaitsToIssue s t i)) ∧
    (i.rd = 0 → i.rs1 = 0 → r.queue.length < 8 → Spelt s (.sqdef i) → ∃ t, exec (.sqdef i) s = .next t ∧
      IssuedAs s t i (queued ((s.defaults i.c).getD i.imm.toNat [])))) ∧
  (∀ (s : State) (τ : Instant) (c : CoreId),
    let k := s.core c.val
    let r := k.run.str
    let becomes := fun (t : State) (x : Str) => CoreBecomes s t τ c.val { k with run := { k.run with str := x } }
    (k.mode = .running ∨ k.mode = .waiting →
      (∀ pos ws q l, r.queue = (pos, ws) :: q → r.freeLane = some l → ws ≠ [] → (descOf ws).inlet = none →
        badDesc ws (s.towerFeature (coreTower c.val) 0) (s.towerFeature (coreTower c.val) 1) = false →
        ((descOf ws).empty = true → ∃ t, exec (.descriptorStart τ c) s = .next t ∧
          becomes t { r with queue := q, done := (r.done + 1) % 2 ^ 32 }) ∧
        ((descOf ws).empty = false → (descOf ws).outOfRange = false → ∃ t, exec (.descriptorStart τ c) s = .next t ∧
          becomes t { r with queue := q, lanes := AMap.put none r.lanes l (some { pos := pos, words := ws }) })) ∧
      (∀ (l : Fin 4) x, AMap.get none r.lanes l.val = some x → x.finished = true → (descOf x.words).inlet = none →
        ∃ t, exec (.descriptorComplete τ c l) s = .next t ∧
          becomes t { r with lanes := AMap.put none r.lanes l.val none, done := (r.done + 1) % 2 ^ 32 })) ∧
    (∀ (n : Inlet) t0, (r.inlet n).since = some t0 → (r.inlet n).stalled = false → (r.inlet n).grantable = false →
      0 < k.stallLimit.toNat % 2 ^ 20 → t0 + 1000 * (k.stallLimit.toNat % 2 ^ 20) < max s.clock τ →
      ∃ t, exec (.stripStallTimeout τ c n) s = .next t ∧ OnlyCore s t c.val ∧
        (t.core c.val).stalls = k.stalls.add 1 ∧ (t.core c.val).run.str.inlet n = { r.inlet n with stalled := true } ∧
        (t.core c.val).run.arr = k.run.arr ∧ (t.core c.val).near = k.near))

/-- R378, R379, R393: a burst from the near store to the near store, without block scaling, writes its elements converted
one by one; nothing else of the near store changes and the lane goes on.
What rests on the model's own reading: notes/assumptions/49.md, notes/assumptions/50.md. -/
def Obligations.StreamBursts : Prop :=
  ∀ (s : State) (τ : Instant) (c : CoreId) (l : Fin 4) (found : Found) (digits : Digits) (x : Lane),
    let k := s.core c.val
    let d := descOf x.words
    let e := d.burst x.done
    let from0 := d.runAt e.1 + e.2.1 * fmtBits d.sf / 8
    let shift := e.2.1 * fmtBits d.sf % 8
    let src := Memory.readN k.near from0 ((shift + e.2.2 * fmtBits d.sf + 7) / 8)
    let out := (elems (leNat src / 2 ^ shift) (fmtBits d.sf) e.2.2).map (fun v => convert d.sf d.df d.rnd d.sat v)
    let data := leBytes (fmtBytes d.df e.2.2) (packElems (fmtBits d.df) (out.map Prod.fst))
    let dst := d.doff + (e.1 * d.count 0 + e.2.1) * fmtBits d.df / 8
    k.mode = .running ∨ k.mode = .waiting → AMap.get none k.run.str.lanes l.val = some x → x.finished = false →
    d.ss = 0 → d.ds = 0 → d.mx = false → (s.pinned c.val = true → d.burstBytes x.done ≤ k.budgetStream) →
    ∃ t, exec (.streamBurst τ c l found digits) s = .next t ∧ OnlyCore s t c.val ∧
      (∀ a, Memory.read (t.core c.val).near a =
        if dst ≤ a ∧ a < dst + data.length then data.getD (a - dst) 0 else Memory.read k.near a) ∧
      (t.core c.val).run.vflags = k.run.vflags ||| orFlags out ∧
      AMap.get none (t.core c.val).run.str.lanes l.val =
        some { x with done := x.done + 1, finished := decide (x.done + 1 = d.runs * d.runBursts) } ∧
      (t.core c.val).run.str.bytes = (k.run.str.bytes + d.burstBytes x.done) % 2 ^ 64 ∧
      (t.core c.val).run.g = k.run.g ∧ (t.core c.val).run.v = k.run.v ∧ (t.core c.val).slice = k.slice

/-! ## Message channels (ch. 09) -/

/-- R275, R280: SEND and TOKEN on a bound sending endpoint that holds a credit take it and put the message, or the token, on
the channel's way; RECV posts a buffer and returns a credit; each of a channel that stays on the device.
R275: POLL takes the oldest arrival of a receiving endpoint into RD, or gives 0; of a sending endpoint it gives the
credits.
What rests on the model's own reading: notes/assumptions/53.md. -/
def Obligations.MessagesAndPoll : Prop :=
  (∀ (s : State) (i : Issue) (n : Nat) (im : PartImage) (ch : ChanRec), Issues s i → i.rd = 0 → i.md = 0 → i.imm.toNat < 64 →
    let k := s.core i.c
    let e := i.imm.toNat
    let p := k.ep e
    let a := (k.reg i.rs1.toNat).toNat
    let len := (k.reg i.rs2.toNat).toNat
    s.coreOwner i.c = some n → s.image n = some im → im.channel p.chan = some ch → ch.chan = p.chan →
    ch.leaves = false → ch.enters = false → s.epBound i.c e = true →
    let sends := fun (t : State) (x : Item) (cost : Nat) (y : Ep) =>
      (t.core i.c).mode = .running ∧ NextPc s t i ∧
      (t.core i.c).quiet = ({ k with eps := AMap.put {} k.eps e y, budgetSend := k.budgetSend - cost } : Core).quiet ∧
      t.part n = { s.part n with flights := AMap.put [] (s.part n).flights ch.chan (s.flights n ch.chan ++ [{ item := x, tag := s.tagSent n ch x }]) } ∧
      (∀ d, d ≠ i.c → t.core d = s.core d) ∧ (∀ m, m ≠ n → t.part m = s.part m) ∧
      { t with clock := s.clock, cores := s.cores, parts := s.parts, flt := s.flt } = s
    (p.recv = false → 0 < p.level →
      (0 < len → len ≤ 4096 → a + len ≤ 0x5C000 → a % 16 = 0 → (s.pinned i.c = true → len ≤ k.budgetSend) →
        Spelt s (.send i) → ∃ t, exec (.send i) s = .next t ∧ sends t (.message p.epoch (Memory.readN k.near a len)) len
          { p with level := p.level - 1, count := p.count + 1 }) ∧
      (i.rs1 = 0 → i.rs2 = 0 → (s.pinned i.c = true → 16 ≤ k.budgetSend) →
        Spelt s (.token i) → ∃ t, exec (.token i) s = .next t ∧ sends t (.token p.epoch) 16 { p with level := p.level - 1, count := p.count + 1 })) ∧
    (p.recv = true → len ≤ 4096 → a + len ≤ 0x5B800 → a % 16 = 0 → p.posts.length < p.credits →
      Spelt s (.recv i) → ∃ t, exec (.recv i) s = .next t ∧ sends t (.credit p.epoch) 0 { p with posts := p.posts ++ [(a, len)] }) ∧
    (p.recv = false → p.level = 0 → i.rs1 = 0 → i.rs2 = 0 → Spelt s (.token i) → ∃ t, exec (.token i) s = .next t ∧ WaitsToIssue s t i)) ∧
  (∀ (s : State) (i : Issue), Issues s i → i.rs1 = 0 → i.rs2 = 0 → i.md = 0 → i.imm.toNat < 64 →
    let k := s.core i.c
    let e := i.imm.toNat
    let p := k.ep e
    s.epBound i.c e = true →
    (p.recv = true → p.arrivals = [] → Spelt s (.poll i) → ∃ t, exec (.poll i) s = .next t ∧ RegResult s t i 0 ∧ NextPc s t i) ∧
    (∀ a len l, p.recv = true → p.arrivals = (a, len) :: l → Spelt s (.poll i) → ∃ t, exec (.poll i) s = .next t ∧ Issued s t i ∧ NextPc s t i ∧
      (∀ r, (t.core i.c).reg r = if r = 0 then 0 else if r = i.rd.toNat then
        BitVec.ofNat 64 (2 ^ 63 + a % 2 ^ 19 * 2 ^ 32 + len % 2 ^ 13) else k.reg r) ∧
      (t.core i.c).quiet = { k.quiet with eps := AMap.put {} k.eps e { p with arrivals := l, count := p.count + 1 },
                                          run := { k.quiet.run with g := (t.core i.c).run.g } }) ∧
    (p.recv = false → Spelt s (.poll i) → ∃ t, exec (.poll i) s = .next t ∧ NextPc s t i ∧
      RegResult s t i (BitVec.ofNat 64 ((if p.level = 0 then 0 else 2 ^ 63) + p.level % 256))))

/-- R270, R278, R279: the oldest credit reaches SRC; the oldest message is written where the endpoint's first posted buffer
stands and becomes an arrival; a send whose transfer has landed completes.
What rests on the model's own reading: notes/assumptions/53.md. -/
def Obligations.MessageArrivals : Prop :=
  ∀ (s : State) (τ : Instant) (n : PartId) (ch : Fin 4096) (im : PartImage) (r : ChanRec) (f : Flight) (l : List Flight),
    s.image n.val = some im → im.channel ch.val = some r →
    let flies := fun (t : State) (l : List Flight) =>
      t.part n.val = { s.part n.val with flights := AMap.put [] (s.part n.val).flights ch.val l } ∧
      (∀ m, m ≠ n.val → t.part m = s.part m) ∧ { t with clock := s.clock, cores := s.cores, parts := s.parts } = s
    (∀ g, s.flights n.val ch.val = f :: l → f.item = .credit g →
      let c := endCore r.src
      let e := endEp r.src
      (s.ep c e).valid = true → (s.ep c e).epoch = g → ∃ t, exec (.creditArrive τ n ch) s = .next t ∧ flies t l ∧
        t.core c = { s.core c with eps := AMap.put {} (s.core c).eps e { s.ep c e with level := (s.ep c e).level + 1 } } ∧
        (∀ d, d ≠ c → t.core d = s.core d)) ∧
    (∀ g data a cap posts, s.flights n.val ch.val = f :: l → f.item = .message g data → f.landed = false → r.leaves = false →
      let c := endCore r.dst
      let e := endEp r.dst
      (s.ep c e).valid = true → (s.ep c e).epoch = g → (s.ep c e).posts = (a, cap) :: posts → data.length ≤ cap →
      ∃ t, exec (.messageArrive τ n ch) s = .next t ∧ flies t ({ f with landed := true } :: l) ∧
        t.core c = { s.core c with
          eps := AMap.put {} (s.core c).eps e
            { s.ep c e with posts := posts, arrivals := (s.ep c e).arrivals ++ [(a, data.length)] },
          near := Memory.writeN (s.core c).near a data } ∧
        (∀ d, d ≠ c → t.core d = s.core d)) ∧
    (s.flights n.val ch.val = f :: l → f.landed = true → ∃ t, exec (.sendComplete τ n ch) s = .next t ∧ flies t l ∧
      t.cores = s.cores)

/-- R43, R44, R201, R281, R203, R272: a mesh transfer on an open link whose digits have at most one high wire has no effect of its
own; one with more is counted and faults a busy core at the receiving end with CHANNEL; on a link that is not open, as at a severed
boundary, neither has an effect. Bridge traffic with a tag that does not own the core is discarded, counted and recorded; with the
right tag a credit that is the oldest on its channel's way and carries that tag reaches its endpoint, and with nothing on the way
of the endpoint's channel nothing arrives.
What rests on the model's own reading: notes/assumptions/53.md. -/
def Obligations.LinksAndBridges : Prop :=
  (∀ (s : State) (τ : Instant) (c : CoreId) (d : Dir) (wires : List (BitVec 4)) (ep : EpId),
    ((∀ w ∈ wires, w ∈ ([0, 1, 2, 4, 8] : List (BitVec 4))) → exec (.meshTransfer τ c d wires ep) s = .next (s.at τ)) ∧
    (s.meshOpen c.val d = false → exec (.meshTransfer τ c d wires ep) s = .next (s.at τ)) ∧
    ((∃ w ∈ wires, w ∉ ([0, 1, 2, 4, 8] : List (BitVec 4))) → s.meshOpen c.val d = true → (s.core c.val).busy = true →
      ∃ t, exec (.meshTransfer τ c d wires ep) s = .next t ∧ Faulted t c.val false 0x10 ep.val (s.core c.val).run.pc ∧
        (t.core c.val).linkErr = (s.core c.val).linkErr.add 1 ∧ (t.ep c.val ep.val).st = 8)) ∧
  (∀ (s : State) (τ : Instant) (b : Fin 16) (n : PartId) (c : CoreId) (ep : EpId) (x : Item),
    (s.coreOwner c.val ≠ some n.val → ∃ t, exec (.bridgeTrafficArrive τ b n c ep x) s = .next t ∧
      t.tagErr = min (s.tagErr + 1) 0xFFFFFFFF ∧ t.cores = s.cores ∧ t.parts = s.parts ∧ t.regions = s.regions ∧
      ∃ rec ∈ t.flt.waiting, rec.kind = 2 ∧ rec.code = 1) ∧
    (s.coreOwner c.val = some n.val →
      let p := s.ep c.val ep.val
      (s.flights n.val p.chan = [] → exec (.bridgeTrafficArrive τ b n c ep x) s = .next (s.at τ)) ∧
      (∀ g f l, s.flights n.val p.chan = f :: l → f.item = .credit g → f.tag = n.val → x = .credit g → p.recv = false →
        p.valid = true → p.epoch = g → ∃ t, exec (.bridgeTrafficArrive τ b n c ep x) s = .next t ∧
          (t.ep c.val ep.val).level = p.level + 1 ∧ s.flights n.val p.chan = f :: t.flights n.val p.chan ∧
          (∀ d, d ≠ c.val → t.core d = s.core d) ∧ t.regions = s.regions ∧ t.tagErr = s.tagErr)))

/-! ## Slice memory (ch. 12) -/

/-- R352-R354: a clean transfer of a core in service that is not held idle reads 128 bytes or writes those its mask enables, and the
core has met the layer's die. R360-R362: while VSLICE is good a refresh that falls due is issued, owed up to four times, or forced
as a burst of five; what was owed is paid first where there was an idle moment; a command that runs brings the layer's shorter
interval into force. R12, R361, R363-R365: scrub stays off a layer while a transfer waits, pays what the layer owes before it reads,
and counts a transfer that it reads clean toward its sweep; when the period ends, a sweep that has not completed lags and the next
begins.
What rests on the model's own reading: notes/assumptions/48.md. -/
def Obligations.SliceCommands : Prop :=
  ∀ (s : State) (τ : Instant) (c : CoreId), s.rails.good.getLsbD 4 = true →
    let k := s.core c.val
    let w := coreTower c.val
    let coreOnly := fun (t : State) (x : Core) => (∀ d, d ≠ c.val → t.core d = s.core d) ∧
      { t.core c.val with evc := [] } = { x with evc := [] }
    (∀ a, s.coreUp c.val = true → k.mode ≠ .off → a % 128 = 0 → a < 2 ^ 27 → k.marks = [] →
      let met := { k with run := { k.run with
        used := k.run.used ++ [4 + 4 * w + a / 1024 % 4].filter (fun d => !k.run.used.contains d) } }
      (∃ t, exec (.sliceReadTransfer τ { core := c, addr := a }) s = .next t ∧
        t.out.read = Memory.readN k.slice a 128 ∧ t.out.readStatus = .ok ∧ coreOnly t met ∧
        { t with clock := s.clock, cores := s.cores, out := s.out, flt := s.flt } = s) ∧
      (∀ data mask, ∃ t, exec (.sliceWriteTransfer τ { core := c, addr := a } data mask) s = .next t ∧
        (∀ x, Memory.read (t.core c.val).slice x = if a ≤ x ∧ x < a + 128 ∧ mask.getLsbD (x - a) = true then data.getD (x - a) 0
          else Memory.read k.slice x) ∧
        coreOnly t { (if mask = 0 then k else met) with slice := (t.core c.val).slice, marks := [] } ∧
        { t with clock := s.clock, cores := s.cores, flt := s.flt } = s)) ∧
    (∀ (layer : Fin 4),
      let owed := AMap.get 0 k.owed layer.val
      let shows := fun (t : State) (n forced : Nat) =>
        (∀ d, d ≠ c.val → t.core d = s.core d) ∧
        { t.core c.val with evc := [], owed := [] } = { k with evc := [], owed := [] } ∧
        (∀ j, AMap.get 0 (t.core c.val).owed j = if j = layer.val then n else AMap.get 0 k.owed j) ∧
        (t.tower w).forced = min forced 0xFFFFFFFF ∧
        { t with clock := s.clock, cores := s.cores, towers := s.towers, flt := s.flt } = s
      let shorter := fun (t : State) => AMap.get 0 (t.tower w).bands layer.val =
        max (AMap.get 0 (s.tower w).bands layer.val) (bandIn [680, 760, 800] (s.dieCounted (4 + 4 * w + layer.val)))
      (s.tower w).forced ≤ 0xFFFFFFFF →
      (∃ t, exec (.sliceRefreshDue τ c layer .idle) s = .next t ∧ shows t 0 (s.tower w).forced ∧ shorter t) ∧
      (∃ t, exec (.sliceRefreshDue τ c layer .again) s = .next t ∧ shows t 1 (s.tower w).forced ∧ (owed ≠ 0 → shorter t)) ∧
      (owed < 4 → ∃ t, exec (.sliceRefreshDue τ c layer .waits) s = .next t ∧ shows t (owed + 1) (s.tower w).forced) ∧
      (4 ≤ owed → ∃ t, exec (.sliceRefreshDue τ c layer .waits) s = .next t ∧ shows t 0 ((s.tower w).forced + 1) ∧ shorter t)) ∧
    (s.coreUp c.val = true → (s.tower w).slcCfg.toNat % 256 ≠ 0 →
      (∀ a, a % 128 = 0 → a < 2 ^ 27 →
        let j := a / 1024 % 4
        let on := { k with offLayer := k.offLayer.filter (fun l => decide (l ≠ j)) }
        (∃ t, exec (.sliceScrubTransfer τ { core := c, addr := a } true) s = .next t ∧
          coreOnly t { k with offLayer := insertNat j k.offLayer } ∧ t.towers = s.towers) ∧
        (AMap.get 0 k.owed j ≠ 0 → ∃ t, exec (.sliceScrubTransfer τ { core := c, addr := a } false) s = .next t ∧
          coreOnly t { on with owed := AMap.put 0 k.owed j 0 }) ∧
        (AMap.get 0 k.owed j = 0 → k.marks = [] → k.sweepDone = false → bit k.swept (a / 128) = false → k.scrubbed + 1 < 2 ^ 20 →
          ∃ t, exec (.sliceScrubTransfer τ { core := c, addr := a } false) s = .next t ∧
            coreOnly t { on with scrubbed := k.scrubbed + 1, swept := k.swept + 2 ^ (a / 128) })) ∧
      (s.sweepEnds c.val ≤ max s.clock τ → ∃ t, exec (.scrubPeriodExpiry τ c) s = .next t ∧
        coreOnly t { k with lagging := !k.sweepDone, sweepDone := false, sweepAt := max s.clock τ } ∧ t.towers = s.towers) ∧
      (max s.clock τ < s.sweepEnds c.val → exec (.scrubPeriodExpiry τ c) s = .next (s.at τ)))

/-! ## Near-bank memory (ch. 14, 07) -/

/-- R204, R206, R408: a write of the owner inside its region stores its bytes, frees the whole words it covers from poison and
leaves every other byte and region; a clean read of a region without poison gives the bytes, a core's where its tower's far cache
is empty; a core's read of a granule that its tower's far cache holds gives the line's bytes and counts a hit (R400); a request
with another partition's tag or outside its region changes no region, is counted and recorded; a core that no partition owns or
that is held idle makes no request (R196).
R70, R217: an access through an enabled aperture of an enabled VF whose partition is ACTIVE or HELD, no Molt under way and
ACTIVE again since the last, that lies inside the window and passes the tag check, reads or writes its region; any other read is an Unsupported
Request, and any other write is dropped and counted if the VF is enabled.
What rests on the model's own reading: notes/assumptions/10.md, notes/assumptions/17.md, notes/assumptions/87.md. -/
def Obligations.NearBankAccess : Prop :=
  (∀ (s : State) (τ : Instant) (src : NbSource) (n : Nat) (r : RegionId) (off : Nat),
    (match src with
     | .core c _ => s.coreOwner c.val = some n ∧ (s.core c.val).mode ≠ .off
     | .aperture m => m.val = n
     | .rma p => p.val = n) →
    let frame := fun (t : State) => { t with clock := s.clock, cores := s.cores, towers := s.towers, regions := s.regions,
                                             out := s.out, flt := s.flt, free := s.free } = s
    (∀ bs, bs ≠ [] → s.tagOk n r.val off bs.length = true →
      ∃ t, exec (.nbRequest τ { src := src, region := r, offset := off, write := some bs, count := 0 }) s = .next t ∧
        (∀ a, Memory.read (t.region r.val).bytes a =
          if off ≤ a ∧ a < off + bs.length then bs.getD (a - off) 0 else Memory.read (s.region r.val).bytes a) ∧
        (∀ w, w ∈ (t.region r.val).poison ↔ w ∈ (s.region r.val).poison ∧ ¬(off ≤ 32 * w ∧ 32 * w + 32 ≤ off + bs.length)) ∧
        (∀ q, q ≠ r.val → t.region q = s.region q) ∧ t.out = s.out ∧ frame t) ∧
    (∀ count, s.tagOk n r.val off count = true → (s.region r.val).poison = [] →
      (∀ c pos, src = .core c pos → (s.tower (coreTower c.val)).far = []) →
      ∃ t, exec (.nbRequest τ { src := src, region := r, offset := off, write := none, count := count }) s = .next t ∧
        t.out.read = Memory.readN (s.region r.val).bytes off count ∧ t.out.readStatus = .ok ∧ t.regions = s.regions ∧ frame t) ∧
    (∀ c pos count x l, src = .core c pos → s.tagOk n r.val off count = true → s.regionRec r.val = some x → 0 < count →
      off % 512 + count ≤ 512 → (s.tower (coreTower c.val)).farEnable = true → x.farOf (coreTower c.val) (off / 512) = true →
      (s.tower (coreTower c.val)).farLine n r.val (off / 512) = some l →
      ∃ t, exec (.nbRequest τ { src := src, region := r, offset := off, write := none, count := count }) s = .next t ∧
        t.out.read = (List.range count).map (fun i => l.data.getD (off % 512 + i) 0) ∧ t.out.readStatus = .ok ∧
        (t.tower (coreTower c.val)).farHits = min ((s.tower (coreTower c.val)).farHits + 1) 0xFFFFFFFF ∧
        t.regions = s.regions ∧ frame t) ∧
    (∀ w count upsets, s.tagOk n r.val off (match w with | some bs => bs.length | none => count) = false →
      ∃ t, exec (.nbRequest τ { src := src, region := r, offset := off, write := w, count := count, upsets := upsets }) s = .next t ∧
        t.regions = s.regions ∧ t.tagErr = min (s.tagErr + 1) 0xFFFFFFFF ∧
        ∃ rec ∈ t.flt.waiting, rec.kind = 2 ∧ rec.code = 2 ∧ rec.part = n ∧ rec.detail = BitVec.ofNat 32 r.val)) ∧
  (∀ (s : State) (τ : Instant) (c : CoreId) (x : NbReq) (pos : Fin 8), x.src = .core c pos →
    s.coreOwner c.val = none ∨ (s.core c.val).mode = .off → exec (.nbRequest τ x) s = .next (s.at τ)) ∧
  (∀ (s : State) (τ : Instant) (n : PartId) (off : Nat),
    let p := s.part n.val
    let r := p.aper.toNat % 64
    let a := p.aper.toNat / 256 % 65536 * 2 ^ 32 + off
    let ok := fun (len : Nat) => s.reaches (.vf n) = true ∧ p.aper.getLsbD 31 = true ∧ (p.st = .active ∨ p.st = .held) ∧
      p.molting = false ∧ p.barred = false ∧ off + len ≤ 2 ^ 32 ∧ s.tagOk n.val r a len = true
    (∀ count, ok count → (s.region r).poison = [] →
      ∃ t, exec (.apertureRead τ n off count []) s = .next t ∧ t.out.read = Memory.readN (s.region r).bytes a count ∧
        t.out.readStatus = .ok ∧ { t with clock := s.clock, out := s.out, evc := s.evc, towers := s.towers, flt := s.flt } = s) ∧
    (∀ data, data ≠ [] → ok data.length →
      ∃ t, exec (.apertureWrite τ n off data) s = .next t ∧
        (∀ x, Memory.read (t.region r).bytes x =
          if a ≤ x ∧ x < a + data.length then data.getD (x - a) 0 else Memory.read (s.region r).bytes x) ∧
        (∀ q, q ≠ r → t.region q = s.region q) ∧
        { t with clock := s.clock, regions := s.regions, evc := s.evc, towers := s.towers, flt := s.flt } = s) ∧
    (∀ count upsets, ¬ ok count →
      ∃ t, exec (.apertureRead τ n off count upsets) s = .next t ∧ t.out.readStatus = .unsupported ∧
        { t with clock := s.clock, out := s.out } = s) ∧
    (∀ data, ¬ ok data.length → exec (.apertureWrite τ n off data) s =
      .next (if s.reaches (.vf n) then (s.at τ).setPart n.val { p with aperErr := min (p.aperErr + 1) 0xFFFFFFFF } else s.at τ)))

/-- R406, R407: a stack's refresh is issued, owed up to four times, or forced; what was owed is paid first where there was an
idle moment, and a command that runs brings the stack's shorter interval into force. R410: a scrub counts a corrected word of a row
that no region holds; it counts and records an uncorrectable one of such a row, and poisons one of a region's row without changing
its bytes; a pseudo-channel that owes refresh runs what it owes instead (R12). R402: ENABLE 0 empties a far cache and counts the
lines.
What rests on the model's own reading: notes/assumptions/4.md, notes/assumptions/48.md. -/
def Obligations.StackUpkeep : Prop :=
  (∀ (s : State) (τ : Instant) (k : StackId) (pc : ChanId), s.stacksOn k.val = true →
    let x := s.stack k.val
    let owed := AMap.get 0 x.owed pc.val
    let band := max x.band (bandIn [600, 680, 760] (s.dieCounted (20 + k.val)))
    let shows := fun (t : State) (n b forced : Nat) =>
      t.stack k.val = { x with owed := (t.stack k.val).owed, band := b, forced := forced } ∧
      (∀ j, AMap.get 0 (t.stack k.val).owed j = if j = pc.val then n else AMap.get 0 x.owed j) ∧
      (∀ j, j ≠ k.val → t.stack j = s.stack j) ∧ { t with clock := s.clock, nbStacks := s.nbStacks } = s
    (∃ t, exec (.nbRefreshDue τ k pc .idle) s = .next t ∧ shows t 0 band x.forced) ∧
    (owed < 4 → ∃ t, exec (.nbRefreshDue τ k pc .waits) s = .next t ∧ shows t (owed + 1) x.band x.forced) ∧
    (4 ≤ owed → ∃ t, exec (.nbRefreshDue τ k pc .waits) s = .next t ∧ shows t 0 band (min (x.forced + 1) 0xFFFFFFFF)) ∧
    (owed ≠ 0 → ∃ t, exec (.nbRefreshDue τ k pc .again) s = .next t ∧ shows t 1 band x.forced) ∧
    (0 < x.cfg.toNat % 256 → owed ≠ 0 → ∀ row word e, ∃ t, exec (.nbScrubTransfer τ k pc row word e false) s = .next t ∧
      shows t 0 band x.forced) ∧
    (0 < x.cfg.toNat % 256 → owed = 0 → ∀ row word, s.cellAt k.val pc.val row = none →
      exec (.nbScrubTransfer τ k pc row word .clean false) s = .next (s.at τ) ∧
      exec (.nbScrubTransfer τ k pc row word .corrected false) s =
        .next ((s.at τ).setStack k.val { x with ceCnt := min (x.ceCnt + 1) 0xFFFFFFFF }) ∧
      ∃ t, exec (.nbScrubTransfer τ k pc row word .uncorrectable false) s = .next t ∧
        (t.stack k.val).ueCnt = min (x.ueCnt + 1) 0xFFFFFFFF ∧ t.regions = s.regions ∧
        ∃ rec ∈ t.flt.waiting, rec.kind = 6 ∧ rec.loc = BitVec.ofNat 32 k.val) ∧
    (0 < x.cfg.toNat % 256 → owed = 0 → ∀ row word rg l, s.cellAt k.val pc.val row = some (rg, l) →
      ∃ t, exec (.nbScrubTransfer τ k pc row word .uncorrectable false) s = .next t ∧
        rg.offset k.val pc.val (l + 32 * word) / 32 ∈ (t.region rg.index).poison ∧
        (t.region rg.index).bytes = (s.region rg.index).bytes)) ∧
  (∀ (s : State) (τ : Instant) (w : TowerId) (v : W32), let x := s.tower w.val
    (v.getLsbD 0 = true → exec (.farCacheCfgWrite τ w v) s = .next ((s.at τ).setTower w.val { x with farEnable := true })) ∧
    (v.getLsbD 0 = false → exec (.farCacheCfgWrite τ w v) s =
      .next ((s.at τ).setTower w.val
        { x with farEnable := false, far := [], farInval := min (x.farInval + x.far.length) 0xFFFFFFFF })))

/-- R414, R417, R422: a command of the NBU's owner enters its queue of sixteen whole; a read of the result port takes the
oldest entries and gives zeros beyond them.
What rests on the model's own reading: notes/assumptions/4.md, notes/assumptions/52.md. -/
def Obligations.NbuWindow : Prop :=
  ∀ (s : State) (τ : Instant) (k : StackId) (pc : ChanId) (r : RegionId) (c : CoreId) (n : Nat),
    s.coreOwner c.val = some n → s.nbuTagOk n r.val k.val pc.val = true →
    let i := 64 * k.val + pc.val
    let u := s.nbu i
    (∀ cmd : Bytes, cmd.length = 32 → u.queue.length < 16 → ∃ t, exec (.nbuCommandEnqueue τ k pc r c cmd) s = .next t ∧
      t.nbu i = { u with queue := u.queue ++ [(r.val, c.val, cmd)] } ∧ (∀ j, j ≠ i → t.nbu j = s.nbu j) ∧
      { t with clock := s.clock, nbus := s.nbus, towers := s.towers, flt := s.flt } = s) ∧
    (∀ cmd : Bytes, 16 ≤ u.queue.length → exec (.nbuCommandEnqueue τ k pc r c cmd) s = .next (s.at τ)) ∧
    (∀ entries, ∃ t, exec (.nbuResultRead τ k pc r c entries) s = .next t ∧
      t.nbu i = { u with fifo := u.fifo.drop entries } ∧ (∀ j, j ≠ i → t.nbu j = s.nbu j) ∧
      t.out.read = (u.fifo.take entries).flatMap (fun e => leBytes 8 e.toNat) ++
        List.replicate (8 * (entries - u.fifo.length)) 0 ∧
      { t with clock := s.clock, nbus := s.nbus, out := s.out } = s)

/-- R418-R420, R422, R423, of the command at the head of an NBU's queue, none of it done yet: what each row does with its command,
its bank reads being clean; a command with a Refused field, a misaligned ADDR or STRIDE or a read beyond the local size leaves an
ERROR entry and no other effect; a saturated INT16 sum leaves an ERROR entry after the results; a row whose command is not at the
head does nothing, and a command that R420 refuses for its OP is taken by any row; with 1,024 results waiting the NBU pauses, as
SCORE and EMIT do when their results fill the FIFO.
What rests on the model's own reading: notes/assumptions/52.md. -/
def Obligations.NbuCommands : Prop :=
  ∀ (s : State) (τ : Instant) (k : StackId) (pc : ChanId) (r c : Nat) (b : Bytes) (q : List (Nat × Nat × Bytes)) (x : RegionRec),
    let i := 64 * k.val + pc.val
    let u := s.nbu i
    let done := fun (o : Result) (v : Nbu) => ∃ t, o = .next t ∧ t.nbu i = v ∧ (∀ j, j ≠ i → t.nbu j = s.nbu j) ∧
      { t with clock := s.clock, nbus := s.nbus, towers := s.towers, flt := s.flt } = s
    let rows : List (Nat × Instr) := [(0, .nbuNop τ k pc), (1, .nbuLoad τ k pc []), (2, .nbuSet τ k pc), (3, .nbuClracc τ k pc),
      (4, .nbuMac τ k pc []), (5, .nbuScore τ k pc []), (6, .nbuEmit τ k pc), (7, .nbuFence τ k pc), (0xF, .nbuClear τ k pc)]
    let word := fun l => BitVec.ofNat 256 (leNat (Memory.readN (s.region r).bytes (x.offset k.val pc.val l) 32))
    let op := cmdOp b
    let sel := cmdSel b
    let acc := cmdAcc b
    let after := { u with queue := q }
    let failed := fun (v : Nbu) (e : Nat) =>
      { v with fifo := v.fifo ++ [nbuEntry 3 (op * 256 + e) 0], errOp := BitVec.ofNat 8 op, errStatus := BitVec.ofNat 8 e }
    u.queue = (r, c, b) :: q → u.run = none → s.regionRec r = some x → (s.region r).poison = [] →
    (1024 ≤ u.fifo.length → ∀ p ∈ rows, exec p.2 s = .next (s.at τ)) ∧
    (nbuOps.contains op = true → ∀ p ∈ rows, p.1 ≠ op → exec p.2 s = .next (s.at τ)) ∧
    (u.fifo.length < 1024 →
      (badCommand b = true → ∀ p ∈ rows, p.1 = op ∨ nbuOps.contains op = false → done (exec p.2 s) (failed after 1)) ∧
      (badCommand b = false → cmdAddr b % 32 ≠ 0 ∨ cmdStride b % 32 ≠ 0 → ∀ p ∈ rows, p.1 = op →
        done (exec p.2 s) (failed after 3)) ∧
      (badCommand b = false → cmdAddr b % 32 = 0 → cmdStride b % 32 = 0 →
        ((∃ l ∈ cmdReads b, ∃ a ∈ l, x.localSize ≤ a) → ∀ p ∈ rows, p.1 = op → done (exec p.2 s) (failed after 2)) ∧
        (op = 0 → done (exec (.nbuNop τ k pc) s) after) ∧
        (op = 1 → cmdAddr b < x.localSize →
          done (exec (.nbuLoad τ k pc []) s) { after with x := AMap.put 0 u.x sel (word (cmdAddr b)) }) ∧
        (op = 2 →
          let p := BitVec.ofNat 128 (leNat (cmdPayload b))
          let old := AMap.get 0 u.x sel
          let v : BitVec 256 := if bit (cmdFlags b) 1 then p ++ old.extractLsb' 0 128 else old.extractLsb' 128 128 ++ p
          done (exec (.nbuSet τ k pc) s) { after with x := AMap.put 0 u.x sel v }) ∧
        (op = 3 → ∃ a, done (exec (.nbuClracc τ k pc) s) { after with a := a } ∧
          ∀ j < 4, AMap.get 0 a j =
            if bit sel j then (if bit (cmdFlags b) 0 then 0xFF800000 else 0) else AMap.get 0 u.a j) ∧
        (op = 4 → (∀ j < cmdCount b, cmdAddr b + j * cmdStride b < x.localSize) →
          let v := (List.range (cmdCount b)).foldl (fun (p : Nat × Bool) j =>
            let d := dot (cmdFmt b) p.1 (AMap.get 0 u.x sel) (word (cmdAddr b + j * cmdStride b)); (d.1, p.2 || d.2))
            ((AMap.get 0 u.a acc).toNat, false)
          let sum := { after with a := AMap.put 0 u.a acc (BitVec.ofNat 32 v.1) }
          done (exec (.nbuMac τ k pc []) s) (if v.2 then failed sum 5 else sum)) ∧
        (op = 5 → (∀ j < cmdCount b, ∀ m < sel, cmdAddr b + j * cmdStride b + 32 * m < x.localSize) →
          let n := min (cmdCount b) (1024 - u.fifo.length)
          let v := fun j => nbuScore u (cmdFmt b) (cmdScale b)
            ((List.range sel).map (fun m => word (cmdAddr b + j * cmdStride b + 32 * m)))
          let sat := (List.range n).any (fun j => (v j).2)
          let fifo := u.fifo ++ (List.range n).map (fun j => nbuEntry 0 0 (BitVec.ofNat 32 (v j).1))
          ∃ a, (∀ j, AMap.get 0 a j = if j = acc ∧ bit (cmdFlags b) 0 = true
              then (List.range n).foldl (fun m j => BitVec.ofNat 32 (max32 m.toNat (v j).1)) (AMap.get 0 u.a acc)
              else AMap.get 0 u.a j) ∧
            (n = cmdCount b → sat = false → done (exec (.nbuScore τ k pc []) s) { after with fifo := fifo, a := a }) ∧
            (n = cmdCount b → sat = true → fifo.length < 1024 →
              done (exec (.nbuScore τ k pc []) s) (failed { after with fifo := fifo, a := a } 5)) ∧
            (n < cmdCount b ∨ sat = true ∧ 1024 ≤ fifo.length → done (exec (.nbuScore τ k pc []) s)
              { u with fifo := fifo, a := a, run := some { done := n, sat := sat, acc := AMap.get 0 u.a acc } })) ∧
        (op = 6 →
          let n := min 4 (1024 - u.fifo.length)
          let fifo := u.fifo ++ (List.range n).map (fun j => nbuEntry 1 0 (AMap.get 0 u.a j))
          (n = 4 → done (exec (.nbuEmit τ k pc) s) { after with fifo := fifo }) ∧
          (n < 4 → done (exec (.nbuEmit τ k pc) s) { u with fifo := fifo, run := some { done := n } })) ∧
        (op = 7 → done (exec (.nbuFence τ k pc) s) { after with fifo := u.fifo ++ [nbuEntry 2 (cmdTag b) 0] }) ∧
        (op = 0xF → done (exec (.nbuClear τ k pc) s) { after with x := [], a := [], fifo := [] })))

/-! ## Rings, launches, pools (ch. 15, 06, 08) -/

/-- R431, R433, R445, R504: through a function the host reaches, enabling a ring checks its size, its base and a completion ring's
vector, and sets the indices to 0 and PHASE to 1 for a ring the device writes; disabling keeps its indices; a VF's doorbell sets the
producer index, or the consumer index where the device writes; one out of range or to a disabled ring only counts.
R437-R439, R442: the record of the launch ring whose turn it is, read, consumes its slot; one that passes every step, on a partition
without a span, is queued with its parameters; one whose SERIAL is not newer, without DUP, only counts as a duplicate; one with a
Refused field, or read without an image, counts in FE_REJ, and the former writes its completion where a ring for it has room.
What rests on the model's own reading: notes/assumptions/57.md, notes/assumptions/58.md. -/
def Obligations.LaunchRecordsAndRings : Prop :=
  ((∀ (s : State) (τ : Instant) (f : Fn) (r : Nat) (v : W32), s.reaches f = true → s.selectedRing f = some r →
    (∀ n, s.ringOwner r = some n → s.calm n ∧ (s.part n).st ≠ .held) →
    let q := s.ring r
    let q' := { q with cfg := cfgBits f q.cfg v }
    let e := s.ringError r q'
    let on : Ring := { q' with enabled := true, stopped := false, err := 0, prod := 0, cons := 0, phase := q'.written, cfull := false }
    (q.enabled = false → v.getLsbD 31 = true → e = 0 → ∃ t, exec (.ringEnable τ f v) s = .next t ∧ OnlyRing s t r on) ∧
    (q.enabled = false → v.getLsbD 31 = true → e ≠ 0 →
      ∃ t, exec (.ringEnable τ f v) s = .next t ∧ OnlyRing s t r { q' with err := e }) ∧
    (q.enabled = false → v.getLsbD 31 = false → ∃ t, exec (.ringEnable τ f v) s = .next t ∧ OnlyRing s t r q') ∧
    (q.enabled = true → v.getLsbD 31 = false → ∃ t x, exec (.ringEnable τ f v) s = .next t ∧ OnlyRing s t r x ∧
      x.enabled = false ∧ x.stopped = false ∧ x.prod = q.prod ∧ x.cons = q.cons ∧ x.base = q.base ∧ x.size = q.size)) ∧
  (∀ (s : State) (r : Nat) (q : Ring),
    (q.entries < 16 ∨ 65536 < q.entries → s.ringError r q = 1) ∧
    (16 ≤ q.entries → q.entries ≤ 65536 → q.base.toNat % 4096 ≠ 0 → s.ringError r q = 2) ∧
    (16 ≤ q.entries → q.entries ≤ 65536 → q.base.toNat % 4096 = 0 → q.type = 1 → q.cfg.getLsbD 26 = false →
      (bits q.cfg.toNat 7 0 = 0 ∨ 63 < bits q.cfg.toNat 7 0 → s.ringError r q = 3) ∧
      (1 ≤ bits q.cfg.toNat 7 0 → bits q.cfg.toNat 7 0 ≤ 63 → s.ringOwner r ≠ none → s.ringError r q = 0))) ∧
  (∀ (s : State) (τ : Instant) (n : PartId) (ring r : Nat) (v : W32), s.reaches (.vf n) = true →
    s.absRing n.val ring = some r →
    let q := s.ring r
    let f := Fn.vf n
    (q.enabled = true → v.toNat < q.entries → v.toNat < 65536 →
      (q.type = 0 → exec (.launchDoorbell τ f ring v) s = .next ((s.at τ).setRing r { q with prod := v.toNat })) ∧
      (q.type = 2 → q.event = false →
        exec (.rmaWorkDoorbell τ f ring v) s = .next ((s.at τ).setRing r { q with prod := v.toNat })) ∧
      (s.ringOwner r = some n.val → s.calm n.val → q.type = 1 → ∃ t, exec (.completionDoorbell τ f ring v) s = .next t ∧
        OnlyRing s t r { q with cons := v.toNat, cfull := ({ q with cons := v.toNat } : Ring).full }) ∧
      (s.ringOwner r = some n.val → s.calm n.val → q.type = 2 → q.event = true →
        ∃ t, exec (.rmaEventDoorbell τ f ring v) s = .next t ∧
          OnlyRing s t r { q with cons := v.toNat, cfull := false })) ∧
    (q.enabled = false ∨ 65536 ≤ v.toNat ∨ q.entries ≤ v.toNat →
      ∀ i ∈ [Instr.launchDoorbell τ f ring v, .completionDoorbell τ f ring v, .rmaWorkDoorbell τ f ring v,
             .rmaEventDoorbell τ f ring v],
        ∃ t, exec i s = .next t ∧ t.pfBadDb = min (s.pfBadDb + 1) 0xFFFFFFFF ∧
          t.part n.val = { s.part n.val with badDb := min ((s.part n.val).badDb + 1) 0xFFFFFFFF } ∧
          (∀ m, m ≠ n.val → t.part m = s.part m) ∧
          { t with clock := s.clock, pfBadDb := s.pfBadDb, parts := s.parts, evc := s.evc, flt := s.flt } = s))) ∧
  (∀ (s : State) (τ : Instant) (p : PartId) (r a : Nat) (b : Bytes) (block : Option Bytes),
    s.absRing p.val r = some a → s.inTurn p.val a = true → b.length = 64 →
    let n := p.val
    let q := s.ring a
    let serial := BitVec.ofNat 32 (field b 4 4)
    let newer := 1 ≤ (serial - q.lserial).toNat ∧ (serial - q.lserial).toNat < 2 ^ 31
    let next := (q.cons + 1) % q.entries
    let count := if recBlock b then field b 24 2 else 0
    let others := fun (t : State) => (∀ m, m ≠ n → t.part m = s.part m) ∧ t.turn = n + 1 ∧ (t.part n).turn = a + 1 ∧
      { t with clock := s.clock, turn := s.turn, rings := s.rings, parts := s.parts, evc := s.evc, flt := s.flt, out := s.out } = s
    (newer → badLaunchRecord b = false → ∀ (i : PartImage) (g : GraphRec) (c : Nat),
      s.image n = some i → i.graph (field b 0 2 % 4096) = some g → i.span? = none →
      s.absRing n (field b 2 2) = some c → (s.ring c).completion = true →
      patchError g.defaults.length count (inlinePatches b) block = none →
      ∃ t l, exec (.launchRecordRead τ p r b block) s = .next t ∧ others t ∧
        t.ring a = { q with cons := next, lserial := serial } ∧
        (t.part n).launches = (s.part n).launches ++ [l] ∧ (t.part n).nextId = (s.part n).nextId + 1 ∧
        l.id = (s.part n).nextId ∧ l.ring = a ∧ l.cring = c ∧ l.graph = g.graph ∧ l.serial = serial ∧
        l.timed = recTimed b ∧ l.startTime = BitVec.ofNat 64 (field b 56 8) ∧ l.cores = i.graphCores g.graph ∧
        l.started = none ∧ l.status = none ∧
        (recBlock b = false → l.params = patched g.defaults (inlinePatches b))) ∧
    (¬newer → recDup b = false → ∃ t, exec (.launchRecordRead τ p r b block) s = .next t ∧ others t ∧
      t.ring a = { q with cons := next } ∧
      t.part n = { s.part n with dup := (s.part n).dup.add 1, turn := a + 1 }) ∧
    (newer → badLaunchRecord b = true ∨ s.image n = none → s.recordRing n q (field b 2 2) = none →
      ∃ t, exec (.launchRecordRead τ p r b block) s = .next t ∧ others t ∧
        t.ring a = { q with cons := next, lserial := serial } ∧
        t.part n = { s.part n with rej := (s.part n).rej.add 1, turn := a + 1 }) ∧
    (newer → badLaunchRecord b = true → ∀ c, s.recordRing n q (field b 2 2) = some c → c ≠ a → s.calm n →
      s.canWrite n c = true → ∃ t, exec (.launchRecordRead τ p r b block) s = .next t ∧ others t ∧
        RecordWritten s t n c (Comp.bytes { ring := c, serial := serial, graph := field b 0 2 % 4096, status := 5,
                                            stamp := (s.at τ).stamp, lring := r,
                                            dl := (s.image n).any (fun i => (i.dead (field b 0 2 % 4096)).isSome) })))

/-- Of a launch of a partition without a span. R227, R232, R446, R448, R449: a ready launch that no launch of its graph runs before,
whose cores are open and free, starts, with the next epoch, and begins on each core: PC at its first word, registers 0, the
parameters in the near store; a timed one does not start before its time. R429, R443, R190: a launch that has ended on every core
leaves its completion record, which shows LATE when its deadline has passed, and counts as late if it ended OK.
What rests on the model's own reading: notes/assumptions/59.md. -/
def Obligations.Launches : Prop :=
  ∀ (s : State) (τ : Instant) (p : PartId) (id : Nat) (i : PartImage) (l : Launch),
    s.image p.val = some i → s.launch p.val id = some l → i.span? = none → i.spanned = false → l.remote = false →
    let n := p.val
    let now := s.at τ
    (now.ready n l = true → (s.part n).graphRuns l = false → now.canStart n i l = true → l.ends = [] →
      (∀ c ∈ l.cores, (s.core c).holders = [] ∧ (s.core c).busy = false ∧ (∀ e, ((s.core c).ep e).held = []) ∧
        ∀ m ∈ (s.part n).launches, s.pendingOn c m = false) →
      ∃ t l', exec (.launchStart τ p id) s = .next t ∧ t.launch n id = some l' ∧
        l'.started = some (now.startOf n l) ∧ l'.epoch = AMap.get 0 (s.part n).epochs l.graph + 1 ∧ l'.serial = l.serial ∧
        AMap.get 0 (t.part n).epochs l.graph = l'.epoch ∧
        (∀ c ∈ l.cores, ∀ base words, i.program l.graph c = some (base, words) →
          (t.core c).mode = .running ∧ (t.core c).run.graph = l.graph ∧ (t.core c).run.serial = l.serial ∧
          (t.core c).run.pc = base ∧ (t.core c).run.base = base ∧ (t.core c).run.words = words ∧
          (∀ g, (t.core c).reg g = 0) ∧ (∀ v, (t.core c).vreg v = 0) ∧ (t.core c).run.vflags = 0 ∧
          (t.core c).near = Memory.writeN (s.core c).near 0x5B800 (l.params.flatMap (fun w => leBytes 8 w.toNat))) ∧
        (∀ d, d ∉ l.cores → t.core d = s.core d) ∧ (∀ m, m ≠ n → t.part m = s.part m) ∧
        { t with clock := s.clock, cores := s.cores, parts := s.parts } = s) ∧
    (l.timed = true → now.now < l.startTime.toNat → exec (.launchStart τ p id) s = .next now) ∧
    (l.started.isSome = true → l.over = true → l.owing = [] → s.calm n →
      s.canWrite n l.cring = true → (s.ring l.cring).completion = true →
      (∀ c ∈ l.cores, ∀ m ∈ (s.part n).launches, s.pendingOn c m = false) →
      let status := min l.own 1
      let record : Comp := { ring := l.cring, serial := l.serial, graph := l.graph, status := status,
                             detail := if status = 1 then l.fault.getD 0 else 0, stamp := now.stamp,
                             beats := l.beats + (l.members.map MemberEnd.beats).sum, lring := s.ringNumber n l.ring,
                             preempt := (l.members.map MemberEnd.preempt).foldl max l.preempts }
      let frame := fun (t : State) => (t.part n).launches = (s.part n).launches.filter (fun x => decide (x.id ≠ l.id)) ∧
        (∀ m, m ≠ n → t.part m = s.part m) ∧ { t with clock := s.clock, parts := s.parts, rings := s.rings, out := s.out,
                                                      evc := s.evc, flt := s.flt } = s
      (i.dead l.graph = none → ∃ t, exec (.launchEnd τ p id) s = .next t ∧ frame t ∧
        RecordWritten s t n l.cring record.bytes ∧ (t.part n).lateCnt = (s.part n).lateCnt) ∧
      (∀ d S, i.dead l.graph = some d → l.started = some S → S + d.deadline < now.mono →
        ∃ t, exec (.launchEnd τ p id) s = .next t ∧ frame t ∧
          (t.part n).lateCnt = (if l.own = 0 then (s.part n).lateCnt.add 1 else (s.part n).lateCnt) ∧
          RecordWritten s t n l.cring (Comp.bytes { record with slack := d.deadline - (now.mono - S : Nat), dl := true, late := true })) ∧
      (∀ d S, i.dead l.graph = some d → l.started = some S → now.mono ≤ S + d.deadline →
        ∃ t, exec (.launchEnd τ p id) s = .next t ∧ frame t ∧ (t.part n).lateCnt = (s.part n).lateCnt ∧
          RecordWritten s t n l.cring (Comp.bytes { record with slack := d.deadline - (now.mono - S : Nat), dl := true })))

/-- R255, R256, R302, R450: a pre-emption stops issue and counts once in its launch; once the core has drained, its sends are complete
and a pinned core's budget has room, its context goes to the lowest free slot and, with no launch left to begin there, the core is
idle; resuming puts the context of a launch that no launch outranks back with its parameters; save and restore take 64 beats each.
What rests on the model's own reading: notes/assumptions/56.md, notes/assumptions/59.md. -/
def Obligations.Preemption : Prop :=
  ∀ (s : State) (τ : Instant) (core : CoreId) (n : Nat), s.coreOwner core.val = some n →
    let c := core.val
    let k := s.core c
    let only := fun (t : State) => (∀ d, d ≠ c → t.core d = s.core d) ∧ (∀ m, m ≠ n → t.part m = s.part m) ∧
      { t with clock := s.clock, cores := s.cores, parts := s.parts, flt := s.flt } = s
    (k.active = true → ∀ x, s.preemptor n c = some x → ∃ t, exec (.preempt τ core) s = .next t ∧ only t ∧
      t.core c = { k with mode := .saving } ∧
      (s.preemptSeen x ((s.launch n k.run.launch).getD {}) = true → t.part n = s.part n) ∧
      (∀ y, s.launch n k.run.launch = some y → s.preemptSeen x y = false →
        ∃ y', t.launch n k.run.launch = some y' ∧ y'.preempts = y.preempts + 1)) ∧
    (k.mode = .saving → k.drained = true → s.sending c = false → s.saveStarved c = false → (∀ m ∈ (s.part n).launches, s.pendingOn c m = false) →
      let run := { k.run with wait := none, str := { k.run.str with west := {}, north := {} } }
      (k.slot0 = none → ∃ t, exec (.contextSaveComplete τ core) s = .next t ∧ only t ∧ t.part n = s.part n ∧
        { t.core c with evc := k.evc } =
          { k with mode := .idle, slot0 := some k.context, run := run, budgetBeats := k.budgetBeats - 64 }) ∧
      (k.slot0 ≠ none → k.slot1 = none → ∃ t, exec (.contextSaveComplete τ core) s = .next t ∧ only t ∧
        t.part n = s.part n ∧ { t.core c with evc := k.evc } =
          { k with mode := .idle, slot1 := some k.context, run := run, budgetBeats := k.budgetBeats - 64 })) ∧
    (k.busy = false → k.mode ≠ .off → s.saveStarved c = false → ∀ second x, s.resumable n c = some (second, x) →
      s.outranked n c ((s.launch n x.run.launch).getD {}) = false → x.run.wait = none →
      exec (.resume τ core) s = .next ((s.at τ).setCore c
        { k with mode := .running, run := x.run, budgetBeats := k.budgetBeats - 64, slot0 := if second then k.slot0 else none,
                 slot1 := if second then none else k.slot1,
                 near := Memory.writeN k.near 0x5B800 (Memory.readN x.params 0x5B800 2048) }))

/-- R452, R454, R461: a take through the enabled VF of a pool's owner, with nobody waiting, gives a free buffer and marks it taken;
with none free it asks the host to wait, or puts the request on the wait list of 64; a buffer given back, with nobody waiting,
becomes free; a free of a buffer that is not taken only counts. -/
def Obligations.Pools : Prop :=
  ∀ (s : State) (τ : Instant) (n : PartId) (pool : Fin 1024) (r : PoolRec), s.poolRec pool.val = some r → r.part = n.val →
    s.reaches (.vf n) = true →
    let p := pool.val
    let x := s.pool p
    let only := fun (t : State) (y : Pool) => t.pool p = y ∧ (∀ q, q ≠ p → t.pool q = s.pool q) ∧
      { t with clock := s.clock, free := s.free, pools := s.pools, out := s.out, evc := s.evc, flt := s.flt } = s
    (s.poolFree p ≠ [] → x.waiters = [] → ∃ t b, exec (.poolTake τ (.vf n) pool) s = .next t ∧ b ∈ s.poolFree p ∧
      only t { x with taken := insertNat b x.taken } ∧ t.out.read = leBytes 4 (BitVec.ofNat 32 (2 ^ 31 + b)).toNat) ∧
    (s.poolFree p = [] ∨ x.waiters ≠ [] → x.cfg.getLsbD 31 = false → exec (.poolTake τ (.vf n) pool) s =
      .next ((s.at τ).readsWord 0x40000000)) ∧
    (s.poolFree p = [] ∨ x.waiters ≠ [] → x.cfg.getLsbD 31 = true → x.waiters.length < 64 →
      ∃ t ticket, exec (.poolTake τ (.vf n) pool) s = .next t ∧ only t { x with waiters := x.waiters ++ [.host ticket] } ∧
        t.out.read = leBytes 4 (BitVec.ofNat 32 (2 ^ 30 + 2 ^ 29 + ticket.toNat)).toNat) ∧
    (s.poolFree p = [] ∨ x.waiters ≠ [] → x.cfg.getLsbD 31 = true → 64 ≤ x.waiters.length → exec (.poolTake τ (.vf n) pool) s =
      .next ((s.at τ).readsWord 0x50000000)) ∧
    (∀ v : W32, let b := bits v.toNat 19 0
      (b < r.bufCount → b ∈ x.taken → x.waiters = [] → exec (.poolFree τ (.vf n) pool v) s =
        .next ((s.at τ).setPool p { x with taken := x.taken.filter (fun i => decide (i ≠ b)) })) ∧
      (r.bufCount ≤ b ∨ b ∉ x.taken → exec (.poolFree τ (.vf n) pool v) s =
        .next { (s.at τ).setPart n.val { s.part n.val with poolErr := min ((s.part n.val).poolErr + 1) 0xFFFFFFFF } with
          poolErr := min (s.poolErr + 1) 0xFFFFFFFF }))

/-! ## Fabric and spans (ch. 16) -/

/-- R462, R464, R471, R472, R474, R477, R502, of a port of the variant: enabling and training it, its link coming up and going down,
a Croak sent in the frame of the port's mode, a first neighbour heard on a DIRECT port (with the claim of an address begun), an
incompatible one, and one silent for 3 ms.
What rests on the model's own reading: notes/assumptions/61.md, notes/assumptions/88.md. -/
def Obligations.FabricPorts : Prop :=
  ∀ (s : State) (τ : Instant) (port : PortId), s.hasPort port.val = true →
    let p := port.val
    let q := s.port p
    let frame := fun (t : State) => { t with clock := s.clock, fab := s.fab, out := s.out, evc := s.evc, flt := s.flt } = s
    let others := fun (t : State) => (∀ x, x ≠ p → t.port x = s.port x)
    let set := fun v : W32 => { q with enable := v.getLsbD 31, mode := if q.enable then q.mode else v.getLsbD 28,
                                       cost := if bits v.toNat 7 0 = 0 then q.cost else bits v.toNat 7 0 }
    let body := leBytes 8 s.unitId.toNat ++ leBytes 2 s.fab.address ++ leBytes 1 p ++ leBytes 1 s.fab.addrState.code
      ++ leBytes 8 0x1F01 ++ leBytes 4 s.fab.lsrSeq.toNat ++ leBytes 4 (q.croakSeq + 1).toNat ++ leBytes 4 0
    let croak : Bft := { type := 2, dst := 0xFFFF, src := s.fab.address, payload := body }
    (∀ v : W32, q.adjs = [] → v.getLsbD 30 = false → exec (.portEnable τ port v) s = .next ((s.at τ).setPort p (set v))) ∧
    (∀ v : W32, q.enable = true → v.getLsbD 31 = false → v.getLsbD 30 = false → q.adjs ≠ [] →
      ∃ t, exec (.portEnable τ port v) s = .next t ∧ frame t ∧ t.port p = { set v with adjs := [] } ∧
        t.fab.event.getLsbD 0 = true) ∧
    (q.link = .down → exec (.portTrain τ port) s = .next ((s.at τ).setPort p { q with link := .training })) ∧
    (q.link = .training → ∃ t, exec (.portLinkUp τ port) s = .next t ∧ frame t ∧ others t ∧
      t.port p = { q with link := .up } ∧ t.fab.event.getLsbD 0 = true) ∧
    (q.link ≠ .down → ∃ t, exec (.portLinkDown τ port) s = .next t ∧ frame t ∧
      t.port p = { q with link := .down, adjs := [] } ∧ t.fab.event.getLsbD 0 = true) ∧
    (s.portUp p = true → ∃ t, exec (.croakSend τ port) s = .next t ∧ frame t ∧ others t ∧
      t.port p = { q with croakSeq := q.croakSeq + 1, tx := q.tx + (s.frameOf p none croak 0).length } ∧
      t.out.packets = s.out.packets ++ [(some p, s.frameOf p none croak 0)]) ∧
    (q.mode = false → s.frameOf p none croak 0 =
      [0x03, 0, 0, 0, 0x88, 0xB5] ++ macOf s.unitId p ++ [0x88, 0xB5] ++ croak.bytes) ∧
    (q.mode = true → s.frameOf p none croak 0 =
      [0x33, 0x33] ++ beBytes 4 (s.mcast.toNat % 2 ^ 32) ++ macOf s.unitId p ++ [0x86, 0xDD] ++ ipBytes q.ipv6 s.mcast
        (udpBytes q.ipv6 s.mcast (croak.hash 0 % 2 ^ 16) (bits s.fab.udp.toNat 15 0) croak.bytes)) ∧
    (∀ x : Croak, s.portUp p = true → x.unit ≠ s.unitId → q.mode = false → q.adjs = [] →
      let a : Adj := { unit := x.unit, address := x.address, port := x.port, cap := x.cap, mismatch := !compatible x.cap,
                       lastAt := max s.clock τ, ip := x.ip }
      ∃ t, exec (.croakReceive τ port x) s = .next t ∧ frame t ∧ (t.port p).adjs = [a] ∧
        (compatible x.cap = true → t.fab.event.getLsbD 0 = true ∧
          (s.fab.addrState = .none → s.fab.db = [] →
            t.fab.addrState = .tentative ∧ t.fab.address = s.candidate 0 ∧ t.fab.since = max s.clock τ) ∧
          (s.fab.addrState = .tentative → t.fab.address = s.fab.address ∧ t.fab.since = max s.clock τ)) ∧
        (compatible x.cap = false → t.fab.event.getLsbD 2 = true ∧ t.fab.addrState = s.fab.addrState ∧
          t.out.packets = s.out.packets)) ∧
    (∀ x : Croak, x.unit = s.unitId → exec (.croakReceive τ port x) s = .next (s.at τ)) ∧
    (∀ unit a, q.adjs.find? (fun y => decide (y.unit = unit)) = some a →
      (a.lastAt + 3000000 ≤ max s.clock τ → ∃ t, exec (.adjacencyTimeout τ port unit) s = .next t ∧ frame t ∧
        (t.port p).adjs = q.adjs.filter (fun y => decide (y.unit ≠ unit)) ∧
        (t.port p).missed = min (q.missed + 3) 0xFFFFFFFF ∧ t.fab.event.getLsbD 0 = true) ∧
      (max s.clock τ < a.lastAt + 3000000 → exec (.adjacencyTimeout τ port unit) s = .next (s.at τ)))

/-- R477, R478, R481-R483: a link-state record that is not newer is ignored; on a device without a span, the first record of a device
heard is kept and sent on to every other compatible neighbour, and one that keeps the device's own assigned address brings CONFLICT;
the device's own record goes out with a new SEQ; a claim ends after 20 ms; a record of another device goes after 3.5 s; a new table is
installed, with up to four ports for a device whose address is CLAIMED or ASSIGNED.
What rests on the model's own reading: notes/assumptions/4.md, notes/assumptions/61.md. -/
def Obligations.FabricRouting : Prop :=
  (∀ (s : State) (τ : Instant) (port : PortId) (sender : W64) (x : Lsr),
    s.adjacencies.any (fun a => decide (a.1 = port.val) && decide (a.2.unit = sender)) = true → x.unit ≠ s.unitId →
    (s.newerLsr x = false → exec (.lsrReceive τ port sender x) s = .next (s.at τ)) ∧
    (AMap.get none s.fab.db x.unit.toNat = none → (∀ n, s.spanRec n = none) →
      ∃ t, exec (.lsrReceive τ port sender x) s = .next t ∧
        AMap.get none t.fab.db x.unit.toNat = some (x, max s.clock τ) ∧
        (∀ a ∈ s.adjacencies, (a.1, a.2.unit) ≠ (port.val, sender) →
          (some a.1, s.frameOf a.1 (some a.2) { type := 3, dst := a.2.address, src := s.fab.address, payload := lsrBytes x } 0)
            ∈ t.out.packets) ∧
        (s.fab.addrState = .assigned → x.address = s.fab.address → x.astate = 3 → x.unit.toNat < s.unitId.toNat →
          t.fab.addrState = .conflict ∧ t.fab.event.getLsbD 1 = true ∧ t.fab.address = s.fab.address) ∧
        { t with clock := s.clock, fab := s.fab, out := s.out, evc := s.evc, flt := s.flt } = s)) ∧
  (∀ (s : State) (τ : Instant),
    (s.fab.addrState = .none ∨ s.fab.addrState = .failed → exec (.lsrRefresh τ) s = .next (s.at τ)) ∧
    (s.fab.addrState ≠ .none → s.fab.addrState ≠ .failed → ∃ t x, exec (.lsrRefresh τ) s = .next t ∧
      t.fab.lsrSeq = s.fab.lsrSeq + 1 ∧ AMap.get none t.fab.db s.unitId.toNat = some (x, max s.clock τ) ∧
      x.unit = s.unitId ∧ x.address = s.fab.address ∧ x.seq = s.fab.lsrSeq + 1 ∧ x.astate = s.fab.addrState.code ∧
      { t with clock := s.clock, fab := s.fab, out := s.out, evc := s.evc, flt := s.flt } = s) ∧
    (s.fab.addrState = .tentative → s.fab.since + 20000000 ≤ max s.clock τ → ∃ t, exec (.addressClaimTimeout τ) s = .next t ∧
      t.fab.addrState = .claimed ∧ t.fab.address = s.fab.address ∧
      { t with clock := s.clock, fab := s.fab, out := s.out, evc := s.evc, flt := s.flt } = s) ∧
    (s.fab.addrState ≠ .tentative → exec (.addressClaimTimeout τ) s = .next (s.at τ))) ∧
  (∀ (s : State) (τ : Instant) (unit : W64) (x : Lsr) (since : Nat), AMap.get none s.fab.db unit.toNat = some (x, since) →
    (unit ≠ s.unitId → since + 3500000000 ≤ max s.clock τ → (∀ n, s.spanRec n = none) →
      ∃ t, exec (.lsrExpiry τ unit) s = .next t ∧ AMap.get none t.fab.db unit.toNat = none ∧
        { t with clock := s.clock, fab := s.fab, out := s.out, evc := s.evc, flt := s.flt } = s) ∧
    (max s.clock τ < since + 3500000000 → exec (.lsrExpiry τ unit) s = .next (s.at τ))) ∧
  (∀ (s : State) (τ : Instant), (∀ n, s.spanRec n = none ∧ (s.part n).rma.opened = []) →
    ∃ t, exec (.routeInstall τ) s = .next t ∧ t.fab = { s.fab with routes := s.routeTable } ∧
      { t with clock := s.clock, fab := s.fab, parts := s.parts } = s) ∧
  (∀ (s : State) (a : Nat), let r := AMap.get {} s.routeTable a
    r.ports.length ≤ 4 ∧ (r.valid = true → ∃ x ∈ s.lsrs, x.address = a ∧ (x.astate = 2 ∨ x.astate = 3) ∧ x.unit ≠ s.unitId))

/-- R463, R464, R466, R467, R469, R470, R474, R477, R485, R489: a frame that is too long or no BFT frame of the port's mode, or whose
packet is malformed, is discarded and counted, so that a packet taken has no longer a payload than the mode allows; nothing but a Croak passes over an adjacency in MISMATCH; a packet for another device,
or for this one while its address carries no traffic, is forwarded with one hop less, or dropped at HOPS 0 or without a route; one of a
span from a stranger is refused; a DATA packet outside its stream's window is counted, and one in turn brings its credit to the
endpoint; an acknowledgement owed is sent; a packet not acknowledged is sent again up to eight times, and then the stream breaks.
What rests on the model's own reading: notes/assumptions/62.md, notes/assumptions/88.md. -/
def Obligations.FabricPackets : Prop :=
  (∀ (s : State) (τ : Instant) (port : PortId) (header body : Bytes) (x : Carried), s.portUp port.val = true →
    let p := port.val
    let frame := header ++ body
    let q := s.port p
    let now := s.at τ
    let got := { q with rx := q.rx + frame.length }
    let only := fun (t : State) => { t with clock := s.clock, fab := s.fab, out := s.out, evc := s.evc, flt := s.flt } = s
    let drops := exec (.bftPacketReceive τ port header body x) s =
      .next (now.setPort p { got with drop := min (q.drop + 1) 0xFFFFFFFF })
    ((frame.drop 12).take 2 ≠ (if q.mode then [0x86, 0xDD] else [0x88, 0xB5]) → drops) ∧
    (9216 < (frame.drop 14).length → drops) ∧
    ((s.unwrap p frame).bind Bft.parse = none → drops) ∧
    (∀ h, (s.unwrap p frame).bind Bft.parse = some h →
      h.payload.length ≤ q.maxPayload ∧
      (h.type ≠ 2 →
        ((s.sender p frame).any Adj.mismatch = true → exec (.bftPacketReceive τ port header body x) s = .next (now.setPort p got)) ∧
        ((s.sender p frame).any Adj.mismatch = false → h.type ≠ 3 →
          (h.dst ≠ s.fab.address ∨ s.speaks = false →
            let h' := { h with hops := h.hops - 1 }
            (h.hops = 0 → ∃ t, exec (.bftPacketReceive τ port header body x) s = .next t ∧ only t ∧ t.port p = got ∧
              t.fab.hopExp = min (s.fab.hopExp + 1) 0xFFFFFFFF ∧ t.out = s.out) ∧
            (h.hops ≠ 0 → now.nextHop h' = none → ∃ t, exec (.bftPacketReceive τ port header body x) s = .next t ∧ only t ∧
              t.port p = got ∧ t.fab.noRoute = min (s.fab.noRoute + 1) 0xFFFFFFFF ∧ t.out = s.out) ∧
            (∀ f a, h.hops ≠ 0 → now.nextHop h' = some f → s.neighbour f.port h.dst = some a → s.portUp f.port = true →
              a.mismatch = false → h.payload.length ≤ (s.port f.port).maxPayload →
              ∃ t, exec (.bftPacketReceive τ port header body x) s = .next t ∧ only t ∧
                t.out.packets = s.out.packets ++ [(some f.port, s.frameOf f.port (some a) h' f.count)])) ∧
          (h.dst = s.fab.address → s.speaks = true →
            (h.type = 0 ∨ h.type = 4 ∨ h.spanId ≠ 0 → s.spanTarget h.spanId h.src = none →
              ∃ t, exec (.bftPacketReceive τ port header body x) s = .next t ∧ only t ∧
                t.fab.memberErr = min (s.fab.memberErr + 1) 0xFFFFFFFF ∧ t.fab.rx = s.fab.rx ∧ t.fab.tx = s.fab.tx ∧
                ∃ rec ∈ t.flt.waiting, rec.kind = 2 ∧ rec.code = 3 ∧ rec.info = BitVec.ofNat 64 h.src) ∧
            (∀ n r idx, h.type = 0 → s.spanTarget h.spanId h.src = some (n, r, idx) →
              let y := s.rxStream h
              (seqKind y.next (y.held.map Prod.fst) h.seq = .stray →
                ∃ t, exec (.bftPacketReceive τ port header body x) s = .next t ∧
                  { t with clock := s.clock, fab := s.fab, parts := s.parts } = s ∧
                  t.fab.seqErr = min (s.fab.seqErr + 1) 0xFFFFFFFF ∧ t.fab.rx = s.fab.rx) ∧
              (∀ g i ch, h.seq = y.next → y.held = [] → y.unacked < 15 → x.item = some (.credit g) → s.image n = some i →
                i.channel (h.stream % 4096) = some ch → (ch.kind = 0 ↔ h.cls = 1) → ch.leaves = true →
                s.member n ch.dstMember = h.src →
                let ep := s.ep (endCore ch.src) (endEp ch.src)
                ep.valid = true → ep.epoch = g →
                ∃ t, exec (.bftPacketReceive τ port header body x) s = .next t ∧
                  (t.ep (endCore ch.src) (endEp ch.src)).level = ep.level + 1 ∧
                  t.rxStream h = { y with next := (y.next + 1) % 2 ^ 32, unacked := y.unacked + 1 } ∧
                  { t with clock := s.clock, fab := s.fab, parts := s.parts, cores := s.cores } = s))))))) ∧
  (∀ (s : State) (τ : Instant) (i : Nat) (y : RxStream), s.fab.rx[i]? = some y →
    s.fab.rx.find? (fun z => z.named y.src y.type y.spanId y.stream) = some y →
    (y.unacked = 0 → exec (.ackDelayExpiry τ i) s = .next (s.at τ)) ∧
    (y.unacked ≠ 0 → ∃ t, exec (.ackDelayExpiry τ i) s = .next t ∧ t.fab.rx[i]? = some { y with unacked := 0 } ∧
      (let k : Bft := { type := 1, dst := y.src, src := s.fab.address, cls := 0, spanId := y.spanId, ack := y.next }
       ∀ f a, s.speaks = true → (s.at τ).nextHop k = some f → s.neighbour f.port y.src = some a → s.portUp f.port = true →
         a.mismatch = false → t.out.packets = s.out.packets ++ [(some f.port, s.frameOf f.port (some a) k f.count)]) ∧
      { t with clock := s.clock, fab := s.fab, out := s.out, evc := s.evc, flt := s.flt } = s)) ∧
  (∀ (s : State) (τ : Instant) (i : Nat) (seq : W32) (x : TxStream) (bs : Bytes) (sends last : Nat), s.fab.tx[i]? = some x →
    x.sent.find? (fun q => decide (q.1 = seq.toNat)) = some (seq.toNat, bs, sends, last) →
    (max s.clock τ < last + bits s.fab.rto.toNat 15 0 * 2 ^ (sends - 1) * 1000 →
      exec (.retransmitTimeout τ i seq) s = .next (s.at τ)) ∧
    (last + bits s.fab.rto.toNat 15 0 * 2 ^ (sends - 1) * 1000 ≤ max s.clock τ →
      let cut := { s.at τ with fab := { s.fab with tx := s.fab.tx.eraseIdx i } }
      (sends < 8 → ∃ t, exec (.retransmitTimeout τ i seq) s = .next t ∧ t.fab.retx = min (s.fab.retx + 1) 0xFFFFFFFF ∧
        t.fab.tx[i]? = some { x with sent := x.sent.map (fun z =>
          if z.1 = seq.toNat then (seq.toNat, bs, sends + 1, max s.clock τ) else z) } ∧
        { t with clock := s.clock, fab := s.fab, parts := s.parts, out := s.out, evc := s.evc, flt := s.flt } = s) ∧
      (8 ≤ sends → x.type = 5 → exec (.retransmitTimeout τ i seq) s = .next (cut.loseConn x.part (bits x.stream 23 12))) ∧
      (8 ≤ sends → x.type ≠ 5 → ((s.spanRec x.part).bind (fun r => r.indexOf x.dst)) = none →
        exec (.retransmitTimeout τ i seq) s = .next cut) ∧
      (8 ≤ sends → x.type ≠ 5 → ∀ m, (s.spanRec x.part).bind (fun r => r.indexOf x.dst) = some m →
        exec (.retransmitTimeout τ i seq) s = .next (cut.loseMember x.part m 2))))

/-- R477, R489: while the device's address carries no traffic a SPAN packet does nothing, and one that no committed span or none of its
members backs is refused. R469, R491, R492, R494-R499, of a SPAN packet next in its stream with nothing held (a JOIN of a member that
has not joined and a REJECT to a worker that is not READY begin their stream; a READY with a new GEN begins it at SEQ 0: the model's
choice, DESIGN CHOICE, notes/assumptions/89.md): JOIN, DONE without a fault and LEAVE at the manager; READY, REJECT, LAUNCH, ABORT and
the manager's LEAVE at a worker. R491, R498, R499: what the timers of a span do.
What rests on the model's own reading: notes/assumptions/60.md. -/
def Obligations.Spans : Prop :=
  (∀ (s : State) (τ : Instant) (h : SpanHead),
    let refused := ((s.at τ).refuseMember h.src)
    let out := if s.speaks then refused else s.at τ
    (s.speaks = false ∨ s.spanTarget h.spanId.toNat h.src = none →
      (∀ d self hops im cap, exec (.spanJoin τ h d self hops im cap) s = .next out) ∧
      (∀ d g, exec (.spanReady τ h d g) s = .next out) ∧
      (∀ r, exec (.spanReject τ h r) s = .next out) ∧
      (∀ g epoch serial timed start ps, exec (.spanLaunch τ h g epoch serial timed start ps) s = .next out) ∧
      (∀ g epoch st cause beats pre, exec (.spanDone τ h g epoch st cause beats pre) s = .next out) ∧
      (∀ g epoch, exec (.spanAbort τ h g epoch) s = .next out) ∧
      (∀ r, exec (.spanLeave τ h r) s = .next out)) ∧
    refused.fab.memberErr = min (s.fab.memberErr + 1) 0xFFFFFFFF ∧
    ∃ rec ∈ refused.flt.waiting, rec.kind = 2 ∧ rec.code = 3 ∧ rec.info = BitVec.ofNat 64 h.src) ∧
  (∀ (s : State) (τ : Instant) (h : SpanHead) (n : Nat) (r : SpanRec) (idx : Nat), s.speaks = true →
    s.spanTarget h.spanId.toNat h.src = some (n, r, idx) →
    let p := s.part n
    let x := p.span
    let stream : Bft := { type := 4, src := h.src, spanId := h.spanId.toNat }
    let y := s.rxStream stream
    let turn := y.next = h.seq.toNat ∧ y.held = [] ∧ y.unacked < 15
    let onlyPart := fun (t : State) => (∀ m, m ≠ n → t.part m = s.part m) ∧
      { t with clock := s.clock, parts := s.parts, fab := s.fab, out := s.out, evc := s.evc, flt := s.flt } = s
    let moved := fun (t : State) => (t.rxStream stream).next = (h.seq.toNat + 1) % 2 ^ 32
    (r.self = 0 → idx ≠ 0 → turn ∨ x.joined.any (fun j => decide (j.1 = idx)) = false → ∀ hops im cap,
      let joined := x.joined.filter (fun j => decide (j.1 ≠ idx)) ++ [(idx, hops)]
      (cap.getLsbD 9 = true → joined.length + 1 < r.members.length →
        ∃ t, exec (.spanJoin τ h r.digest idx hops im cap) s = .next t ∧ onlyPart t ∧ moved t ∧
          t.part n = { p with span := { x with joined := joined } }) ∧
      (cap.getLsbD 9 = true → r.members.length ≤ joined.length + 1 →
        ∃ t, exec (.spanJoin τ h r.digest idx hops im cap) s = .next t ∧ onlyPart t ∧
          { t.part n with flights := p.flights } = { p with span := { x with joined := joined, st := .ready, gen := x.gen + 1 } }) ∧
      (∀ d self, (d ≠ r.digest ∨ self ≠ idx ∨ cap.getLsbD 9 = false) →
        let why := if d ≠ r.digest then 5 else if self ≠ idx then 6 else 8
        ∃ t, exec (.spanJoin τ h d self hops im cap) s = .next t ∧ onlyPart t ∧
          t.part n = { p with span := { x with lostValid := true, lost := idx, reason := why } })) ∧
    (r.self ≠ 0 → idx = 0 →
      (∀ g, x.st ≠ .ready ∨ g ≠ x.gen → h.seq = 0 → ∃ t, exec (.spanReady τ h r.digest g) s = .next t ∧ onlyPart t ∧ moved t ∧
        { t.part n with flights := p.flights } = { p with span := { x with st := .ready, gen := g } } ∧
        t.fab.tx = s.fab.tx.filter (fun y => decide (y.spanId ≠ r.spanId)) ∧
        t.fab.rx.filter (fun y => decide (y.spanId ≠ r.spanId)) = s.fab.rx.filter (fun y => decide (y.spanId ≠ r.spanId))) ∧
      (∀ why : Byte, turn ∨ x.st ≠ .ready → ∃ t, exec (.spanReject τ h why) s = .next t ∧ onlyPart t ∧
        t.fab.event.getLsbD 3 = true ∧
        t.part n = { p with span := { x with st := .broken, lostValid := true, reason := why.toNat, lost := r.self } }) ∧
      (turn → ∀ (graph : Fin 4096) epoch serial timed start params, p.st ≠ .held → ∃ t l,
        exec (.spanLaunch τ h graph epoch serial timed start params) s = .next t ∧ onlyPart t ∧ moved t ∧
        t.part n = { p with nextId := p.nextId + 1, launches := p.launches ++ [l] } ∧ l.id = p.nextId ∧ l.graph = graph.val ∧
        l.epoch = epoch ∧ l.serial = serial ∧ l.timed = timed ∧ l.startTime = start ∧ l.remote = true ∧ l.started = none ∧
        l.cores = (s.imageOr n).graphCores graph.val) ∧
      (turn → ∀ (graph : Fin 4096) epoch serial timed start params, p.st = .held → ∃ t,
        exec (.spanLaunch τ h graph epoch serial timed start params) s = .next t ∧ onlyPart t ∧ t.part n = p ∧
        ∃ z ∈ t.fab.tx, ∃ q ∈ z.sent, ∃ ack : Nat, q.2.1 = Bft.bytes
          { type := 4, dst := r.members.headD 0, src := s.fab.address, cls := 1, spanId := r.spanId, seq := q.1, ack := ack, part := n,
            payload := (SpanOp.done graph.val epoch 0x81 0 0 0).bytes }) ∧
      (turn → ∀ (graph : Fin 4096) epoch l, p.spanLaunch graph.val epoch = some l → l.remote = true →
        (l.started = none → ∃ t, exec (.spanAbort τ h graph epoch) s = .next t ∧ onlyPart t ∧
          t.part n = { p with launches := p.launches.filter (fun m => decide (m.id ≠ l.id)) }) ∧
        (l.started.isSome = true → s.launch n l.id = some l → ∃ t, exec (.spanAbort τ h graph epoch) s = .next t ∧
          ∀ c ∈ l.cores, l.ends.any (fun e => decide (e.1 = c)) = false → (s.core c).busy = true → (s.core c).run.launch = l.id →
            (t.core c).mode = .idle ∧ (t.core c).last = 3 ∧ (t.core c).fltCause = 0x30)) ∧
      (turn → x.st = .ready → p.launches = [] → (s.imageOr n).chans = [] →
        ∀ why, ∃ t, exec (.spanLeave τ h why) s = .next t ∧ onlyPart t ∧ t.fab.event.getLsbD 3 = true ∧
          t.part n = { p with span := { x with st := .broken, losses := min (x.losses + 1) 0xFFFFFFFF, lostValid := true,
                                               reason := 7, lost := 0 } } ∧
          ∃ rec ∈ t.flt.waiting, rec.kind = 9 ∧ rec.part = n ∧ rec.code = 7)) ∧
    (r.self = 0 → turn → ∀ (graph : Fin 4096) epoch (cause : Byte) (beats : W64) (preempt : Byte) l,
      p.spanLaunch graph.val epoch = some l → l.owing.contains idx = true → l.over = false → s.launch n l.id = some l →
      let e : MemberEnd := { index := idx, cause := cause.toNat, beats := beats.toNat, preempt := preempt.toNat }
      ∃ t, exec (.spanDone τ h graph epoch 0 cause beats preempt) s = .next t ∧ onlyPart t ∧ moved t ∧
        t.launch n l.id = some { l with owing := l.owing.filter (fun i => decide (i ≠ idx)),
                                        members := l.members ++ [e] }) ∧
    (r.self = 0 → idx ≠ 0 → turn → x.joined.any (fun j => decide (j.1 = idx)) = true → p.launches = [] →
      (s.imageOr n).chans = [] →
      ∀ why, ∃ t, exec (.spanLeave τ h why) s = .next t ∧ onlyPart t ∧ t.fab.event.getLsbD 3 = true ∧
        t.part n = { p with span := { x with st := .broken, losses := min (x.losses + 1) 0xFFFFFFFF, lostValid := true,
                                             reason := 3, lost := idx,
                                             joined := x.joined.filter (fun j => decide (j.1 ≠ idx)) } })) ∧
  (∀ (s : State) (τ : Instant) (n : PartId),
    (∀ r, s.spanRec n.val = some r → r.self ≠ 0 → (s.part n.val).span.st = .joining →
      exec (.joinResend τ n) s = .next ((s.at τ).sendJoin n.val)) ∧
    ((s.part n.val).span.st = .ready → exec (.joinResend τ n) s = .next (s.at τ)) ∧
    ∃ t, exec (.spanLossTimeout τ n) s = .next t ∧
      ∀ l ∈ (s.part n.val).launches, l.lostAt.any (fun a => decide (a + 20000000 ≤ max s.clock τ)) = true →
        ∀ x ∈ (t.part n.val).launches, x.id ≠ l.id)

/-! ## Remote memory access (ch. 17) -/

/-- R512, R513, R520, R521: the packets of a WRITE or WRITE_FLAG carry all its data in order, at most 8,192 bytes each, and each
costs one unit for each 256 bytes begun. R509-R511, R514, R519, R524, R531: a record taken from a WORK queue consumes its slot;
a request becomes outstanding with its packets sent or waiting in order; CONNECT and CLOSE change the connection; a repeated SERIAL
only counts.
What rests on the model's own reading: notes/assumptions/63.md. -/
def Obligations.RmaRequests : Prop :=
  (∀ b data : Bytes, (field b 0 1 = 1 ∨ field b 0 1 = 2) → data.length ≤ 2 ^ 24 →
    (packets b data).flatMap (fun o => o.pkt.data) = data ∧
      ∀ o ∈ packets b data, o.pkt.data.length ≤ 8192 ∧ o.units = max 1 ((o.pkt.data.length + 255) / 256)) ∧
  (∀ (s : State) (τ : Instant) (p : PartId) (r a : Nat) (b source : Bytes),
    s.workReady p.val r b = true → s.absRing p.val r = some a →
    let n := p.val
    let c := field b 2 2
    let q := s.ring a
    let x := s.conn n c
    let op := field b 0 1
    let serial := BitVec.ofNat 32 (field b 4 4)
    let frame := fun (t : State) => (∀ m, m ≠ n → t.part m = s.part m) ∧
      { t with clock := s.clock, parts := s.parts, rings := s.rings, fab := s.fab, out := s.out, evc := s.evc, flt := s.flt } = s
    let took := fun (t : State) => t.ring a = { q with cons := (q.cons + 1) % q.entries, lserial := serial }
    let issued := fun (o : Result) (os : List OutPkt) => ∃ t w, o = .next t ∧ frame t ∧ took t ∧
      (t.conn n c).works = x.works ++ [w] ∧ w.serial = serial ∧ w.op = op ∧ w.left = os.length ∧ w.status = 0 ∧
      w.silent = bit (field b 1 1) 0 ∧ w.laddr = field b 32 8 ∧
      (t.conn n c).sent.map SentPkt.out ++ (t.conn n c).waiting =
        x.sent.map SentPkt.out ++ x.waiting ++ os.map (fun o => { o with work := w.id })
    let open' := c < 4096 ∧ x.st = .opened ∧ badRecord b = false ∧ serialNewer serial q.lserial = true
    (open' → op = 1 → field b 8 4 ≠ 0 → field b 13 1 = 0 → source.length = field b 8 4 →
      issued (exec (.rmaWrite τ p r b source) s) (packets b source)) ∧
    (open' → op = 2 → field b 13 1 = 0 → source.length = field b 8 4 → bit (field b 1 1) 2 = false ∨ x.allowed ≠ 0 →
      issued (exec (.rmaWriteFlag τ p r b source) s) (packets b source)) ∧
    (open' → op = 3 → field b 8 4 ≠ 0 → issued (exec (.rmaRead τ p r b) s) (packets b [])) ∧
    (open' → op = 4 → field b 24 8 % 8 = 0 → x.peerCap.getLsbD 11 = true → x.atomics < 64 →
      issued (exec (.rmaFetchAdd τ p r b) s) (packets b [])) ∧
    (open' → op = 5 → field b 24 8 % 8 = 0 → x.peerCap.getLsbD 11 = true → x.atomics < 64 →
      issued (exec (.rmaCmpSwap τ p r b) s) (packets b [])) ∧
    (open' → op = 6 → field b 13 1 = 0 → source.length = field b 8 4 → x.allowed ≠ 0 →
      issued (exec (.rmaSend τ p r b source) s) (packets b source)) ∧
    (c < 4096 → op = 0x10 → x.st = .closed → badRecord b = false → serialNewer serial q.lserial = true →
      ∃ t, exec (.rmaConnect τ p r b) s = .next t ∧ frame t ∧ took t ∧
        t.conn n c = { gen := (x.gen + 1) % 2 ^ 16, st := .connecting, serial := serial, peerAddr := field b 40 2,
                       peerPart := field b 42 1 % 32, port := field b 44 2, eventq := field b 48 2, sends := 1,
                       sentAt := max s.clock τ, cls := if bit (field b 1 1) 1 then 1 else 2 }) ∧
    (open' → op = 0x11 → ∃ t, exec (.rmaClose τ p r b) s = .next t ∧ frame t ∧ took t ∧ (t.conn n c).st = .closing ∧
      (t.conn n c).closeSerial = some serial ∧
      (x.works = [] → x.waiting = [] → x.sent = [] → (t.conn n c).sent.map (fun z => z.out.op) = [0x13])) ∧
    (serialNewer serial q.lserial = false → bit (field b 1 1) 3 = false →
      (∀ i ∈ [Instr.rmaWrite τ p r b source, .rmaWriteFlag τ p r b source, .rmaRead τ p r b, .rmaSend τ p r b source,
              .rmaConnect τ p r b, .rmaClose τ p r b],
        ∀ k, (i = Instr.rmaWrite τ p r b source ∧ k = 1 ∨ i = .rmaWriteFlag τ p r b source ∧ k = 2 ∨ i = .rmaRead τ p r b ∧ k = 3 ∨
              i = .rmaSend τ p r b source ∧ k = 6 ∨ i = .rmaConnect τ p r b ∧ k = 0x10 ∨ i = .rmaClose τ p r b ∧ k = 0x11) → op = k →
          ∃ t, exec i s = .next t ∧ frame t ∧ t.ring a = { q with cons := (q.cons + 1) % q.entries } ∧
            t.part n = { s.part n with rma := { (s.part n).rma with dup := (s.part n).rma.dup.add 1 } })))

/-- R506, R513-R515, R522, R528, on a device whose address carries traffic: how a connection opens at a listener without buffers,
is refused, goes, gains credit while nothing waits, and hears the response that ends an atomic or a READ; a CONNECT and a request
are sent again up to eight times; CREDIT goes out on every open connection.
What rests on the model's own reading: notes/assumptions/63.md. -/
def Obligations.RmaConnections : Prop :=
  ∀ (s : State) (τ : Instant) (x : RmaPkt),
    let n := x.partTo.val
    let k := s.conn n x.conn
    let m := (s.part n).rma
    let frame := fun (t : State) => (∀ y, y ≠ n → t.part y = s.part y) ∧
      { t with clock := s.clock, parts := s.parts, rings := s.rings, fab := s.fab, out := s.out, evc := s.evc, flt := s.flt } = s
    let heard := s.speaks = true ∧ x.reserved = false
    (heard → ∀ l c, m.listener (bits x.roff.toNat 15 0) = some l → l.bufs = 0 → m.conns = [] → c = 0 → (s.part n).st = .active →
      (s.part n).molting = false → x.op1.getLsbD 10 = true → m.reserved < 4096 → ∃ t, exec (.rmaInConnect τ x) s = .next t ∧ frame t ∧
        t.conn n c = { st := .opened, accepted := true, peerAddr := x.src, peerPart := x.partFrom, peerConn := x.peerConn,
                       peerGen := bits x.op0.toNat 15 0, peerCap := x.op1, eventq := bits l.q.toNat 15 0,
                       pool := bits l.q.toNat 25 16, given := l.units, sentGiven := l.units,
                       first := (l.units, 0) }) ∧
    (heard → m.listener (bits x.roff.toNat 15 0) = none → m.conns = [] →
      ∃ t, exec (.rmaInConnect τ x) s = .next t ∧ frame t ∧ t.part n = s.part n) ∧
    (heard → k.st = .connecting → k.fromPeer x = true →
      (∃ t, exec (.rmaAccept τ x) s = .next t ∧ frame t ∧
        t.conn n x.conn = { k with st := .opened, peerConn := x.peerConn, peerCap := x.op1,
                                   granted := bits x.op0.toNat 31 0, bufGranted := bits x.op0.toNat 63 32,
                                   allowed := bits x.op0.toNat 63 32 }) ∧
      (∃ t, exec (.rmaRefuse τ x) s = .next t ∧ frame t ∧ t.conn n x.conn = { gen := k.gen, eventq := k.eventq })) ∧
    (heard → k.st = .opened → k.fromPeer x = true →
      (k.bufs = [] → ∃ t, exec (.rmaGone τ x) s = .next t ∧ (t.part n).rma.lost = m.lost.add 1 ∧
        t.conn n x.conn = { gen := k.gen, eventq := k.eventq } ∧ t.regions = s.regions ∧ t.cores = s.cores) ∧
      (k.peerConn = x.peerConn → AcksNone s x →
        (k.waiting = [] → ∃ t, exec (.rmaCredit τ x) s = .next t ∧ frame t ∧
          t.conn n x.conn = { k with granted := takeCount k.granted (bits x.op0.toNat 31 0),
                                     bufGranted := takeCount k.bufGranted (bits x.op1.toNat 31 0) }) ∧
        (∀ q w, k.sent.find? (fun q => decide (q.seq = x.seq.toNat)) = some q →
          k.works.find? (fun w => decide (w.id = q.out.work)) = some w → w.left = 1 →
          (q.out.op = 4 ∨ q.out.op = 5 → ∃ t, exec (.rmaResponse τ x) s = .next t ∧ frame t ∧
            (t.conn n x.conn).sent = k.sent.filter (fun p => decide (p ≠ q)) ∧
            (t.conn n x.conn).works = k.works.filter (fun v => decide (v.id ≠ q.out.work))) ∧
          (∀ r, q.out.op = 3 → x.status = 0 → w.region = some r →
            s.tagOk n r (w.laddr + q.out.at0) x.data.length = true → ∃ t, exec (.rmaResponse τ x) s = .next t ∧
              Stored s t r (w.laddr + q.out.at0) x.data ∧
              (t.conn n x.conn).works = k.works.filter (fun v => decide (v.id ≠ q.out.work))) ∧
          (q.out.op = 3 → x.status = 0 → w.region = none → s.dmaOk n = true → ∃ t, exec (.rmaResponse τ x) s = .next t ∧
            t.regions = s.regions ∧ (n + 1, w.laddr + q.out.at0, x.data) ∈ t.out.dma ∧
            (t.conn n x.conn).works = k.works.filter (fun v => decide (v.id ≠ q.out.work)))))) ∧
    (∀ (p : PartId) (conn : Fin 4096),
      let j := s.conn p.val conn.val
      let due := j.sentAt + 1000 * bits s.fab.rto.toNat 15 0 * 2 ^ (j.sends - 1) ≤ max s.clock τ
      (¬due → exec (.rmaConnectResend τ p conn) s = .next (s.at τ)) ∧
      (j.st = .connecting → due → j.sends < 8 → ∃ t, exec (.rmaConnectResend τ p conn) s = .next t ∧
        t.conn p.val conn.val = { j with sends := j.sends + 1, sentAt := max s.clock τ }) ∧
      (j.st = .connecting → due → 8 ≤ j.sends → ∃ t, exec (.rmaConnectResend τ p conn) s = .next t ∧
        t.conn p.val conn.val = { gen := j.gen, eventq := j.eventq }) ∧
      (∀ (seq : W32) q, j.sent.find? (fun q => decide (q.seq = seq.toNat) && needsReply q.out.op) = some q →
        let late := q.lastAt + 1000 * bits s.fab.rto.toNat 15 0 * 2 ^ (q.sends - 1) ≤ max s.clock τ
        (¬late → exec (.rmaResponseTimeout τ p conn seq) s = .next (s.at τ)) ∧
        (late → q.sends < 8 → ∃ t, exec (.rmaResponseTimeout τ p conn seq) s = .next t ∧
          t.fab.retx = min (s.fab.retx + 1) 0xFFFFFFFF ∧
          t.conn p.val conn.val = { j with sent := j.sent.map (fun z =>
            if z = q then { z with sends := z.sends + 1, lastAt := max s.clock τ } else z) }) ∧
        (late → 8 ≤ q.sends → j.st = .opened → j.bufs = [] → ∃ t, exec (.rmaResponseTimeout τ p conn seq) s = .next t ∧
          (t.part p.val).rma.lost = (s.part p.val).rma.lost.add 1 ∧
          t.conn p.val conn.val = { gen := j.gen, eventq := j.eventq }))) ∧
    (∃ t, exec (.rmaCreditTimer τ) s = .next t ∧
      (∀ y < 32, ∀ c ∈ (s.part y).rma.opened, (s.conn y c).st = .opened →
        (t.conn y c).sentGiven = (s.conn y c).given ∧ (t.conn y c).given = (s.conn y c).given) ∧
      { t with clock := s.clock, free := s.free, parts := s.parts, pools := s.pools, fab := s.fab, out := s.out, evc := s.evc,
               flt := s.flt } = s)

/-- R467, R469, R477, R507, R508, R517-R519, R522, R524, R526, R528, R531: what each inbound request does when it is next in its
stream (an atomic at an offset divisible by 8), a WRITE when its window refuses it, each request but READ when it is a repeat, and
each when it comes from another than the peer; a packet with a reserved bit set, or to an address that carries no traffic, does
nothing.
What rests on the model's own reading: notes/assumptions/63.md, notes/assumptions/88.md. -/
def Obligations.RmaInbound : Prop :=
  ∀ (s : State) (τ : Instant) (x : RmaPkt),
    let n := x.partTo.val
    let c := x.conn
    let k := s.conn n c
    let m := (s.part n).rma
    let units := max 1 ((x.data.length + 255) / 256)
    let heard := s.speaks = true ∧ x.reserved = false
    (¬heard → ∀ i ∈ [Instr.rmaInWrite τ x, .rmaInWriteFlag τ x, .rmaInRead τ x [], .rmaInFetchAdd τ x [], .rmaInCmpSwap τ x [],
                     .rmaInSend τ x, .rmaInClose τ x, .rmaInConnect τ x, .rmaAccept τ x, .rmaRefuse τ x, .rmaGone τ x, .rmaCredit τ x,
                     .rmaResponse τ x], exec i s = .next (s.at τ)) ∧
    (heard → AcksNone s x → InTurn s x → (s.part n).st = .active →
      (∀ r a, s.windowAt n x 1 x.data.length = some (r, a) → s.tagOk n r a x.data.length = true →
        (∃ t, exec (.rmaInWrite τ x) s = .next t ∧ Stored s t r a x.data ∧ Moved s t x units) ∧
        (x.flags.getLsbD 2 = false → ∃ t, exec (.rmaInWriteFlag τ x) s = .next t ∧ Stored s t r a x.data ∧ Moved s t x units ∧
          (t.conn n c).flags = [])) ∧
      (s.windowAt n x 1 x.data.length = none → ∃ t, exec (.rmaInWrite τ x) s = .next t ∧ t.regions = s.regions ∧
        (t.part n).rma.access = m.access.add 1 ∧ Moved s t x units) ∧
      (∀ r o, s.windowAt n x 2 (bits x.op0.toNat 31 0) = some (r, o) → s.tagOk n r o (bits x.op0.toNat 31 0) = true →
        (s.region r).poison = [] → ∃ t, exec (.rmaInRead τ x []) s = .next t ∧ t.regions = s.regions ∧ Moved s t x 1 ∧
          ∀ f a, (s.at τ).nextHop { type := 5, dst := k.peerAddr, src := s.fab.address,
                                    stream := rmaStream k.peerPart c k.peerConn } = some f →
            s.neighbour f.port k.peerAddr = some a → s.portUp f.port = true → a.mismatch = false →
            bits x.op0.toNat 31 0 + 32 ≤ (s.port f.port).maxPayload →
            let body := rmaBytes 0x21 { noPkt with data := Memory.readN (s.region r).bytes o (bits x.op0.toNat 31 0) }
            ∃ ack : Nat, (some f.port, s.frameOf f.port (some a)
              { type := 5, dst := k.peerAddr, src := s.fab.address, cls := if x.flags.getLsbD 1 then 1 else 2,
                stream := rmaStream k.peerPart c k.peerConn, seq := x.seq.toNat, ack := ack, part := n,
                payload := body } f.count) ∈ t.out.packets) ∧
      (∀ r a, s.windowAt n x 0 8 = some (r, a) → x.roff.toNat % 8 = 0 → s.tagOk n r a 8 = true → (s.region r).poison = [] →
        let old := BitVec.ofNat 64 (leNat (Memory.readN (s.region r).bytes a 8))
        (∃ t, exec (.rmaInFetchAdd τ x []) s = .next t ∧ Stored s t r a (leBytes 8 (old + x.op0).toNat) ∧ Moved s t x 1 ∧
          (x.seq.toNat, old) ∈ (t.conn n c).atoms ∧ ((t.conn n c).atoms.length ≤ max 64 k.atoms.length)) ∧
        (old = x.op0 → ∃ t, exec (.rmaInCmpSwap τ x []) s = .next t ∧ Stored s t r a (leBytes 8 x.op1.toNat) ∧ Moved s t x 1 ∧
          (x.seq.toNat, old) ∈ (t.conn n c).atoms) ∧
        (old ≠ x.op0 → ∃ t, exec (.rmaInCmpSwap τ x []) s = .next t ∧ t.regions = s.regions ∧ Moved s t x 1 ∧
          (x.seq.toNat, old) ∈ (t.conn n c).atoms)) ∧
      (∀ b bs rec, k.bufs = b :: bs → s.poolRec k.pool = some rec → x.data.length ≤ rec.bufSize →
        ∃ t, exec (.rmaInSend τ x) s = .next t ∧ Stored s t rec.region (rec.offset + b * rec.bufSize) x.data ∧ Moved s t x units) ∧
      (k.bufs = [] → ∃ t, exec (.rmaInClose τ x) s = .next t ∧ t.conn n c = { gen := k.gen, eventq := k.eventq } ∧
        t.regions = s.regions)) ∧
    (heard → AcksNone s x → k.st = .opened → k.fromPeer x = true → k.peerConn = x.peerConn →
      seqKind k.next k.got x.seq.toNat = .again →
      ∀ i ∈ [Instr.rmaInWrite τ x, .rmaInWriteFlag τ x, .rmaInSend τ x, .rmaInClose τ x, .rmaInFetchAdd τ x [], .rmaInCmpSwap τ x []],
        ∃ t, exec i s = .next t ∧ (∀ d, t.conn n d = s.conn n d) ∧ t.regions = s.regions) ∧
    (heard → k.st = .opened → k.fromPeer x = false →
      ∀ i ∈ [Instr.rmaInWrite τ x, .rmaInWriteFlag τ x, .rmaInRead τ x [], .rmaInFetchAdd τ x [], .rmaInCmpSwap τ x [],
             .rmaInSend τ x, .rmaInClose τ x],
        ∃ t, exec i s = .next t ∧ t.regions = s.regions ∧
          t.part n = { s.part n with rma := { m with badpeer := m.badpeer.add 1 } } ∧
          ∃ rec ∈ t.flt.waiting, rec.kind = 2 ∧ rec.code = 4 ∧ rec.part = n) ∧
    (heard → k.st = .opened → k.fromPeer x = true → k.peerConn ≠ x.peerConn → k.bufs = [] →
      ∀ i ∈ [Instr.rmaInWrite τ x, .rmaInWriteFlag τ x, .rmaInRead τ x [], .rmaInFetchAdd τ x [], .rmaInCmpSwap τ x [],
             .rmaInSend τ x, .rmaInClose τ x],
        ∃ t, exec i s = .next t ∧ t.regions = s.regions ∧ (t.part n).rma.lost = m.lost.add 1 ∧
          t.conn n c = { gen := k.gen, eventq := k.eventq })

/-! ## Fabric time (ch. 18) -/

/-- R537-R541: how edges of PPS_IN, TIME_REF, Syncs and the selection of a master qualify, lose and select a time source; no message
of a grandmaster is taken over a port that takes no part in PTP (R474, R542).
What rests on the model's own reading: notes/assumptions/4.md, notes/assumptions/65.md, notes/assumptions/66.md,
notes/assumptions/67.md. -/
def Obligations.TimeSources : Prop :=
  (∀ (s : State) (τ : Instant),
    let now := max s.clock τ
    let x := s.tim
    let frame := fun (t : State) => { t with clock := s.clock, tim := s.tim, out := s.out, parts := s.parts } = s
    let fails1 := fun (t : State) => t.tim.qualPps = 0 ∧
      (x.st = .locked → x.source = 1 → (x.qualPtp = 8 → t.tim.st = .locked ∧ t.tim.source = 2) ∧
        (x.qualPtp ≠ 8 → t.tim.st = .brumation ∧ t.tim.source = 0 ∧ t.tim.entryAt = now ∧ t.tim.event.getLsbD 0 = true)) ∧
      (x.source ≠ 1 → t.tim.st = x.st ∧ t.tim.source = x.source)
    (s.ppsOn = false → ∀ wide cycles, exec (.ppsInEdge τ wide cycles) s = .next (s.at τ)) ∧
    (s.ppsOn = true →
      (∀ wide cycles, wide = true → x.timeRef = true → (x.ppsLost = true ∨ (9999998 ≤ cycles ∧ cycles ≤ 10000002)) →
        ∃ t, exec (.ppsInEdge τ wide cycles) s = .next t ∧ frame t ∧ t.tim.qualPps = min 8 (x.qualPps + 1) ∧
          t.tim.ppsLost = false ∧ t.tim.ppsMissed = 0 ∧ t.tim.ppsLastAt = now ∧ t.tim.qualPtp = x.qualPtp ∧
          (7 ≤ x.qualPps → t.tim.st = .locked ∧ t.tim.source = 1) ∧
          (x.qualPps < 7 → t.tim.st = x.st ∧ t.tim.source = x.source)) ∧
      (∀ wide cycles, wide = false ∨ x.timeRef = false ∨ (x.ppsLost = false ∧ (cycles < 9999998 ∨ 10000002 < cycles)) →
        ∃ t, exec (.ppsInEdge τ wide cycles) s = .next t ∧ frame t ∧ fails1 t ∧ t.tim.ppsLastAt = now) ∧
      (x.ppsLost = false → x.ppsLastAt + (x.ppsMissed + 1) * 1000000000 + 1000000 ≤ now →
        (x.ppsMissed = 0 → exec (.ppsEdgeMissed τ) s = .next { s.at τ with tim := { x with ppsMissed := 1 } }) ∧
        (x.ppsMissed = 1 → ∃ t, exec (.ppsEdgeMissed τ) s = .next t ∧ frame t ∧ fails1 t ∧ t.tim.ppsLost = true ∧
          t.tim.ppsMissed = 0)) ∧
      (∃ t, exec (.timeRefLost τ) s = .next t ∧ frame t ∧ fails1 t ∧ t.tim.ppsLost = true ∧ t.tim.timeRef = false)) ∧
    exec (.timeRefReturn τ) s = .next { s.at τ with tim := { x with timeRef := true } } ∧
    (∀ v : W32, ∃ t, exec (.timCfgWrite τ v) s = .next t ∧ frame t ∧ t.tim.cfg = v &&& 3 ∧
      (x.cfg.getLsbD 0 = true → v.getLsbD 0 = false → t.tim.qualPps = 0 ∧ t.tim.ppsLost = true) ∧
      (x.cfg.getLsbD 1 = true → v.getLsbD 1 = false → t.tim.qualPtp = 0 ∧ t.tim.ptpOffset = none) ∧
      ((x.cfg ^^^ v) &&& 3 = 0 → t.tim.st = x.st ∧ t.tim.source = x.source ∧ t.tim.qualPps = x.qualPps))) ∧
  (∀ (s : State) (τ : Instant), s.ptpOn = true →
    let now := max s.clock τ
    let x := s.tim
    let frame := fun (t : State) => { t with clock := s.clock, tim := s.tim, out := s.out, parts := s.parts } = s
    let judged := fun (off : Int) (t : State) => frame t ∧
      (x.ptpDelay = false → t.tim.qualPtp = x.qualPtp ∧ t.tim.ptpOffset = x.ptpOffset) ∧
      (x.ptpDelay = true → t.tim.ptpOffset = some off ∧
        (x.ptpOffset = none → t.tim.qualPtp = x.qualPtp) ∧
        (∀ p, x.ptpOffset = some p → (off - p).natAbs ≤ 1000 → t.tim.qualPtp = min 8 (x.qualPtp + 1) ∧ t.tim.ptpGoodAt = now ∧
          (7 ≤ x.qualPtp → x.st ≠ .locked → t.tim.st = .locked ∧ t.tim.source = 2)) ∧
        (∀ p, x.ptpOffset = some p → 1000 < (off - p).natAbs → t.tim.qualPtp = 0 ∧
          (x.st = .locked → x.source = 2 → t.tim.st = .brumation)))
    (∀ off two, exec (.ptpSync τ false off two) s = .next (s.at τ)) ∧
    (s.gmHeard = false → ∀ off fromGm two d, exec (.ptpSync τ fromGm off two) s = .next (s.at τ) ∧
      exec (.ptpFollowUp τ off) s = .next (s.at τ) ∧ exec (.ptpDelayResp τ d) s = .next (s.at τ)) ∧
    (s.gmHeard = true →
      (∀ off, exec (.ptpSync τ true off true) s = .next { s.at τ with tim := { x with ptpTwoStep := true } }) ∧
      (∀ off, ∃ t, exec (.ptpSync τ true off false) s = .next t ∧ judged off t) ∧
      (x.ptpTwoStep = true → ∀ off, ∃ t, exec (.ptpFollowUp τ off) s = .next t ∧ judged off t ∧
        (x.ptpDelay = false → t.tim.ptpTwoStep = false)) ∧
      (∀ d, exec (.ptpDelayResp τ d) s = .next { s.at τ with tim := { x with ptpDelay := true } })) ∧
    (now < x.ptpGoodAt + 3000000000 → exec (.ptpSyncTimeout τ) s = .next (s.at τ)) ∧
    (x.ptpGoodAt + 3000000000 ≤ now → ∃ t, exec (.ptpSyncTimeout τ) s = .next t ∧ frame t ∧ t.tim.qualPtp = 0 ∧
      t.tim.ptpOffset = none ∧ (x.st = .locked → x.source = 2 → t.tim.st = .brumation)) ∧
    (∀ m : PtpMaster, (m.valid = true → s.ptpPort m.slavePort = true) →
      ∀ i ∈ [Instr.ptpAnnounce τ m, .announceReceiptTimeout τ m], ∃ t, exec i s = .next t ∧ frame t ∧
        t.tim.master = some m ∧
        (x.master.any (fun o => decide (o.valid = m.valid) && decide (o.identity = m.identity)) = false →
          t.tim.qualPtp = 0 ∧ t.tim.ptpOffset = none ∧ t.tim.ptpDelay = false) ∧
        (x.master = some m → t.tim.qualPtp = x.qualPtp ∧ t.tim.ptpDelay = x.ptpDelay))) ∧
  (∀ (s : State) (τ : Instant) (port : PortId), s.ptpMasterOn port.val = true →
    let p := port.val
    let now := s.at τ
    (∀ r, exec (.ptpDelayReq τ port r) s = .next (now.ptpSend p (.delayResp r now.stamp))) ∧
    exec (.ptpSyncSend τ port) s = .next ((now.ptpSend p .sync).ptpSend p (.followUp now.stamp)) ∧
    (s.tim.st = .locked → s.tim.source = 1 → exec (.ptpAnnounceSend τ port) s =
      .next (now.ptpSend p (.announce 6 0 s.unitId s.tim.ptpCfg))) ∧
    (∀ m, s.tim.st = .locked → s.tim.source = 2 → s.tim.master = some m → exec (.ptpAnnounceSend τ port) s =
      .next (now.ptpSend p (.announce m.clockClass (m.stepsRemoved + 1) m.identity s.tim.ptpCfg))))

/-- R544-R546, R547, R549-R551: TIM_UNC, TIME_VALID and the risk bits are refreshed; a slew and a hold end; a pending step is taken at
the PPS_OUT edge; TIM_SET moves TIM_NOW in FREE and only there.
What rests on the model's own reading: notes/assumptions/65.md, notes/assumptions/66.md. -/
def Obligations.TimeCorrection : Prop :=
  ∀ (s : State) (τ : Instant),
    let now := s.at τ
    let x := s.tim
    let u := now.uncNow
    let valid := x.st ≠ .off ∧ u ≤ x.uncLimit.toNat
    (∃ t, exec (.uncUpdate τ) s = .next t ∧ t.tim.unc = BitVec.ofNat 32 u ∧ (t.tim.valid = true ↔ valid) ∧
      (valid → x.valid = false → t.tim.event.getLsbD 4 = true) ∧ (¬valid → x.valid = true → t.tim.event.getLsbD 3 = true) ∧
      (∀ n < 32, t.tim.risk.getLsbD n = (s.part n).atRisk u) ∧
      { t.tim with unc := x.unc, valid := x.valid, event := x.event, risk := x.risk } = x ∧
      { t with clock := s.clock, tim := s.tim, out := s.out, parts := s.parts } = s) ∧
    (x.st = .brumation → u = min 0xFFFFFFFF (x.uncEntry + x.holdEntry.toNat +
      (x.holdRate.toNat * (max s.clock τ - x.entryAt) + 999999999) / 1000000000)) ∧
    (x.st = .locked → x.source = 1 → u = min 0xFFFFFFFF (x.srcUnc.toNat + now.remainingOffset.natAbs)) ∧
    (x.st = .off → u = 0xFFFFFFFF) ∧
    (x.slew = 0 → exec (.slewEnd τ) s = .next now) ∧
    (x.slew ≠ 0 → slewDone x.slew (max s.clock τ - x.at0) = x.slew → ∃ t, exec (.slewEnd τ) s = .next t ∧
      t.tim.slew = 0 ∧ t.tim.remaining = x.remaining - x.slew ∧ t.tim.base = now.corrected ∧ t.tim.at0 = max s.clock τ) ∧
    (∀ h, x.hold = some h →
      ((h : Int) ≤ now.corrected → exec (.holdEnd τ) s = .next { now with tim := { x with hold := none } }) ∧
      (now.corrected < h → exec (.holdEnd τ) s = .next now)) ∧
    (x.hold = none → exec (.holdEnd τ) s = .next now) ∧
    (x.st ≠ .off → now.corrected % 1000000000 ≤ 1 → (∀ p, x.ppsOutAt = some p → p + 500000000 ≤ max s.clock τ) →
      (x.stepPending = none → exec (.ppsOutEdge τ) s = .next { now with
        tim := { x with ppsOutAt := some now.clock, ppsHigh := now.clock + x.ppsWidth.toNat * 1000000 } }) ∧
      (∀ off, x.stepPending = some off → ∃ t, exec (.ppsOutEdge τ) s = .next t ∧ t.tim.stepPending = none ∧
        t.tim.steps = min (x.steps + 1) 0xFFFFFFFF ∧ t.tim.lastStep = off ∧ t.tim.base = now.corrected + off ∧
        t.tim.at0 = max s.clock τ ∧ t.tim.slew = 0 ∧ t.tim.remaining = 0 ∧ t.tim.event.getLsbD 2 = true ∧
        t.tim.ppsOutAt = some (max s.clock τ))) ∧
    (x.st ≠ .free → ∀ hi, exec (.timSet τ hi) s = .next now) ∧
    (x.st = .free → ∀ hi, let v := (hi ++ s.loOf pairTimSet).toNat
      ∃ t, exec (.timSet τ hi) s = .next t ∧ t.tim.base = v ∧ t.tim.at0 = max s.clock τ ∧ t.tim.wasSet = true ∧
        t.tim.setAt = max s.clock τ ∧ t.tim.hold = (if v < now.now then some now.now else none) ∧ t.tim.steps = x.steps)

/-! ## Observation and test access (ch. 20) -/

/-- R219, R579, R585, R590-R593, R595, R611: counters of the hub and the towers are selected, snapshots armed and taken, records
written and read, the log cleared and a window ended.
What rests on the model's own reading: notes/assumptions/68.md, notes/assumptions/69.md. -/
def Obligations.Observation : Prop :=
  ∀ (s : State) (τ : Instant),
    let now := s.at τ
    let selected := fun (k : Counter) (v : W32) =>
      { k with sel := v &&& 0xBF07FFFF, val := 0, ovf := false, qval := 0, qovf := false }
    (∀ (i : Fin 64) v, exec (.counterSelectWrite τ none i v) s =
      .next { now with evc := AMap.put {} s.evc i.val (selected (AMap.get {} s.evc i.val) v) }) ∧
    (∀ (w : TowerId) (i : Fin 64) v, i.val < 16 → let k := s.tower w.val
      exec (.counterSelectWrite τ (some w) i v) s =
        .next (now.setTower w.val { k with evc := AMap.put {} k.evc i.val (selected (AMap.get {} k.evc i.val) v) })) ∧
    (∀ hi, s.tim.st = .off ∨ now.now < (hi ++ s.loOf pairSnapTime).toNat → exec (.snapshotArm τ hi) s =
      .next { now with snap := { s.snap with time := hi ++ s.loOf pairSnapTime, armed := true, done := false } }) ∧
    (s.snap.armed = true → s.tim.st ≠ .off → s.snap.time.toNat ≤ now.now → ∃ t, exec (.snapshotTrigger τ) s = .next t ∧
      t.snap.done = true ∧ t.snap.armed = false ∧ t.snap.seq = s.snap.seq + 1 ∧ t.snap.stamp = now.stamp ∧
      (∀ i, let k := AMap.get {} s.evc i
        AMap.get {} t.evc i = if k.sel.getLsbD 18 then
          { k with snap := k.val, snapOvf := k.ovf, qsnap := k.qval, qsnapOvf := k.qovf } else k) ∧
      { t with clock := s.clock, snap := s.snap, evc := s.evc, towers := s.towers, cores := s.cores } = s) ∧
    (s.snap.armed = false ∨ now.now < s.snap.time.toNat → exec (.snapshotTrigger τ) s = .next now) ∧
    (∀ i r, s.flt.waiting[i]? = some r →
      let told := fun (t : State) => s.vecMasked 0 2 = false → (r.valid = true → s.vecMasked (r.part + 1) 0 = false) →
        t.out.msix = s.out.msix ++ [(0, 2)] ++ (if r.valid then [(r.part + 1, 0)] else [])
      (∀ e, s.flt.emptySlot = some e → ∃ t l, exec (.faultLogWrite τ i) s = .next t ∧
        t.flt.slots = AMap.put {} s.flt.slots e { r with seq := s.flt.next } ∧ t.flt.next = s.flt.next + 1 ∧
        t.flt.evicted = s.flt.evicted ∧ t.flt.waiting = s.flt.waiting.eraseIdx i ++ l ∧ told t) ∧
      (s.flt.emptySlot = none → ∃ t l, exec (.faultLogWrite τ i) s = .next t ∧
        t.flt.slots = AMap.put {} s.flt.slots s.flt.victim { r with seq := s.flt.next } ∧ t.flt.next = s.flt.next + 1 ∧
        t.flt.evicted = min (s.flt.evicted + 1) 0xFFFFFFFF ∧ t.flt.waiting = s.flt.waiting.eraseIdx i ++ l ∧
        told t)) ∧
    (∀ (f : Fn) (slot : Fin 256), s.reaches f = false → exec (.faultRecordCapture τ f slot) s = .next (now.unreached 4)) ∧
    (∀ (f : Fn) (slot : Fin 256), s.reaches f = true → ∃ t, exec (.faultRecordCapture τ f slot) s = .next t ∧
      AMap.get none t.flt.captures (256 * fnNum f + slot.val) = some (s.slotFor f slot.val) ∧
      t.out.read = leBytes 4 ((s.slotFor f slot.val).words.headD 0).toNat ∧ t.flt.slots = s.flt.slots ∧
      { t with clock := s.clock, out := s.out, flt := s.flt } = s) ∧
    (∀ (n : PartId) (slot : Fin 256), let r := AMap.get {} s.flt.slots slot.val
      (r.valid = false ∨ r.part ≠ n.val → (s.slotFor (.vf n) slot.val).words = List.replicate 8 0)) ∧
    (∀ v : W32, v.getLsbD 0 = true → exec (.faultLogClear τ v) s = .next { now with flt := { s.flt with slots := [] } }) ∧
    (∀ v : W32, v.getLsbD 0 = false → exec (.faultLogClear τ v) s = .next now) ∧
    (∀ x, s.tim.st = .off ∨ now.mono % 1000000 ≠ 0 → exec (.quantWindowEnd τ x) s = .next now) ∧
    (∀ x, s.tim.st ≠ .off → now.mono % 1000000 = 0 → ∃ t, exec (.quantWindowEnd τ x) s = .next t ∧ t.window = x ∧
      t.windows = s.windows + 1 ∧ (∀ c, { t.core c with evc := (s.core c).evc } = s.core c) ∧
      (∀ w, { t.tower w with evc := (s.tower w).evc } = s.tower w) ∧
      { t with clock := s.clock, window := s.window, windows := s.windows, cores := s.cores, towers := s.towers,
               flt := s.flt } = s)

/-- R596-R601: a lamp's setting waits for its next period; a measured period proves the lamp, and two failures in a row make it
OPEN; an hour-glass of 1 s without a measurement leaves it UNPROVEN.
R605, R606, R608: while test access is LOCKED an output takes only a public signal and no input is driven; what each TAP
instruction shifts and what it does with the pins.
What rests on the model's own reading: notes/assumptions/70.md, notes/assumptions/71.md. -/
def Obligations.LampsAndTestAccess : Prop :=
  (∀ (s : State) (τ : Instant) (lamp : Fin 12),
    let i := lamp.val
    let l := s.lamp i
    let now := s.at τ
    let cfg := lampWord i l.cfg
    let next := { l with periods := l.periods + 1 }
    let proved := lampMeasured cfg (s.lampDuty i cfg) l.periods
    (∀ f v, s.reaches f = true → s.lampControl f i = true → lampFits v = true → exec (.lampCfgWrite τ f lamp v) s =
      .next (now.setLamp i { l with pending := some (v &&& 0x83FF01FF) })) ∧
    (∀ f v, s.reaches f = false ∨ s.lampControl f i = false ∨ lampFits v = false → exec (.lampCfgWrite τ f lamp v) s = .next now) ∧
    (s.rails.good.getLsbD 7 = false → ∀ ok, exec (.lampPeriod τ lamp ok) s = .next now) ∧
    (s.rails.good.getLsbD 7 = true → l.pending = none →
      (proved = false → ∀ ok, exec (.lampPeriod τ lamp ok) s = .next (now.setLamp i next)) ∧
      (proved = true → ∃ t, exec (.lampPeriod τ lamp true) s = .next t ∧
        t.lamp i = { next with status := 1, fails := 0, measuredAt := max s.clock τ } ∧ t.flt = s.flt) ∧
      (proved = true → l.fails = 0 → ∃ t, exec (.lampPeriod τ lamp false) s = .next t ∧
        t.lamp i = { next with fails := 1, measuredAt := max s.clock τ } ∧ t.flt = s.flt) ∧
      (proved = true → l.fails ≠ 0 → l.status ≠ 2 → ∃ t, exec (.lampPeriod τ lamp false) s = .next t ∧
        t.lamp i = { next with status := 2, fails := 2, measuredAt := max s.clock τ, opens := l.opens.add 1 } ∧
        ∃ rec ∈ t.flt.waiting, rec.kind = 0x0C ∧ rec.code = 2 ∧ rec.loc = BitVec.ofNat 32 i)) ∧
    (s.rails.good.getLsbD 7 = true → ∀ v, l.pending = some v → ∀ ok, ∃ t, exec (.lampPeriod τ lamp ok) s = .next t ∧
      (t.lamp i).cfg = v ∧ (t.lamp i).pending = none ∧ (t.lamp i).periods = 1) ∧
    (l.measuredAt + 1000000000 < max s.clock τ →
      exec (.lampUnprovenTimeout τ lamp) s = .next (now.setLamp i { l with status := 0 })) ∧
    (max s.clock τ ≤ l.measuredAt + 1000000000 → exec (.lampUnprovenTimeout τ lamp) s = .next now)) ∧
  (∀ (s : State) (τ : Instant),
    let now := s.at τ
    let x := s.test
    let refused := { now with test := { x with err := min (x.err + 1) 0xFFFFFFFF } }
    (∀ (k : Fin 4) (v : W32), let w := v &&& 0x8003FFFF
      (x.unlocked = true ∨ v.getLsbD 31 = false ∨ s.tmxPublic false w = true → exec (.tmxSelectWrite τ (0x10 + 4 * k.val) v) s =
        .next { now with test := { x with outs := AMap.put 0 x.outs k.val w } }) ∧
      (x.unlocked = false → v.getLsbD 31 = true → s.tmxPublic false w = false →
        exec (.tmxSelectWrite τ (0x10 + 4 * k.val) v) s = .next refused)) ∧
    (∀ v : W32, let w := v &&& 0x8003FFFF
      (x.unlocked = true ∨ v.getLsbD 31 = false ∨ s.tmxPublic true w = true → exec (.tmxSelectWrite τ 0x20 v) s =
        .next { now with test := { x with an := w } }) ∧
      (x.unlocked = false → v.getLsbD 31 = true → s.tmxPublic true w = false → exec (.tmxSelectWrite τ 0x20 v) s = .next refused)) ∧
    (∀ (k : Fin 2) (v : W32),
      (x.unlocked = true ∨ v.getLsbD 31 = false → exec (.tmxSelectWrite τ (0x30 + 4 * k.val) v) s =
        .next { now with test := { x with ins := AMap.put 0 x.ins k.val (v &&& 0x8003FFFF) } }) ∧
      (x.unlocked = false → v.getLsbD 31 = true → exec (.tmxSelectWrite τ (0x30 + 4 * k.val) v) s = .next refused)) ∧
    exec (.tapReset τ) s = .next { now with test := { x with tapInstr := 0, shifted := [], pins := none, floating := false } } ∧
    (∀ b tdi, ∃ t, exec (.tapBypass τ (tdi ++ [b])) s = .next t ∧ t.test.shifted = false :: tdi ∧ t.test.pins = none ∧
      t.test.floating = false ∧ t.test.chain = x.chain ∧ { t with clock := s.clock, test := s.test } = s) ∧
    (∀ pins tdi, tdi.length = pins.length →
      (∃ t, exec (.tapSamplePreload τ pins tdi) s = .next t ∧ t.test.shifted = pins ∧ t.test.chain = tdi ∧ t.test.pins = none ∧
        { t with clock := s.clock, test := s.test } = s) ∧
      (∃ t, exec (.tapExtest τ pins tdi) s = .next t ∧ t.test.shifted = pins ∧ t.test.chain = tdi ∧ t.test.pins = some tdi ∧
        t.test.floating = false ∧ { t with clock := s.clock, test := s.test } = s)) ∧
    (∀ tdi : List Bool, tdi.length = 32 → ∃ t, exec (.tapIdcode τ tdi) s = .next t ∧
      t.test.shifted = (List.range 32).map (fun i => s.idcode.getLsbD i) ∧ t.test.pins = none ∧
      { t with clock := s.clock, test := s.test } = s) ∧
    (∀ b tdi, (∃ t, exec (.tapClamp τ (tdi ++ [b])) s = .next t ∧ t.test.shifted = false :: tdi ∧ t.test.pins = some x.chain ∧
        t.test.floating = false ∧ { t with clock := s.clock, test := s.test } = s) ∧
      (∃ t, exec (.tapHighz τ (tdi ++ [b])) s = .next t ∧ t.test.shifted = false :: tdi ∧ t.test.floating = true ∧
        t.test.pins = none ∧ { t with clock := s.clock, test := s.test } = s)))

/-! ## Registers, rails, resets, the host link (ch. 01, 03, 21) -/

/-- R7-R10, R12, R70, R214, R216, R501, R553: a read of a _LO half captures the pair; a read of FE_DUPn clears it for the
function that read it alone; QUE_BASE of a disabled ring takes effect on its _HI write with the _LO last written through whichever
function; FAB_EVENT bits clear on a 1; a value that FAB_RTO refuses, an offset without a register and a register that a VF may not
write ignore the write; through a function that is not enabled nothing is read or written; a recalibration that is owed is forced
after 100 ms. R260: the page windows read and write the stores of a core held idle; of any other core they read 0 and ignore writes
(of a core out of service by the model's reading, DEDUCED, notes/assumptions/17.md).
What rests on the model's own reading: notes/assumptions/15.md, notes/assumptions/75.md. -/
def Obligations.Registers : Prop :=
  (∀ (s : State) (τ : Instant),
    let now := s.at τ
    (∀ f a v, s.reaches f = true → now.shown f a = .half false v → ∃ t, exec (.pairLoRead τ f a) s = .next t ∧
      t.out.read = leBytes 4 (v.setWidth 32 : W32).toNat ∧ { t with clock := s.clock, out := s.out, link := s.link } = s ∧
      ∀ τ' v', (t.at τ').shown f (a + 4) = .half true v' → ∃ t', exec (.pairLoRead τ' f (a + 4)) t = .next t' ∧
        t'.out.read = leBytes 4 ((v >>> 32).setWidth 32 : W32).toNat) ∧
    (∀ n : PartId, let d := (s.part n.val).dup
      (∃ t, exec (.registerReadClear τ .pf (0x68000 + 4 * n.val)) s = .next t ∧
        t.out.read = leBytes 4 (BitVec.ofNat 32 d.pf).toNat ∧ (t.part n.val).dup = { d with pf := 0 }) ∧
      (s.reaches (.vf n) = true → ∃ t, exec (.registerReadClear τ (.vf n) (0x28000 + 4 * n.val)) s = .next t ∧
        t.out.read = leBytes 4 (BitVec.ofNat 32 d.vf).toNat ∧ (t.part n.val).dup = { d with vf := 0 })) ∧
    (∀ v, exec (.registerWrite τ .pf 0x80030 v) s = .next { now with fab := { s.fab with event := s.fab.event &&& ~~~v } }) ∧
    (∀ v : W32, v &&& 0xFFFF = 0 → exec (.registerWrite τ .pf 0x80014 v) s = .next now) ∧
    (∀ v : W32, v &&& 0xFFFF ≠ 0 → exec (.registerWrite τ .pf 0x80014 v) s =
      .next { now with fab := { s.fab with rto := v &&& 0xFFFF } }) ∧
    (∀ f a v, a % 4 ≠ 0 → exec (.registerWrite τ f a v) s = .next now) ∧
    (∀ (n : PartId) o v, o < 0x10000 → exec (.registerWrite τ (.vf n) (0x50000 + o) v) s = .next now) ∧
    (∀ f, s.reaches f = false → ∀ a v, exec (.pairLoRead τ f a) s = .next (now.unreached 4) ∧
      exec (.registerReadClear τ f a) s = .next (now.unreached 4) ∧ exec (.registerWrite τ f a v) s = .next now ∧
      exec (.pairHiWrite τ f a v) s = .next now) ∧
    (∀ (n : PartId) v, s.reaches (.vf n) = true → exec (.registerWrite τ (.vf n) 0x10 v) s =
      .next (now.setPart n.val { s.part n.val with aper := v &&& 0x80FFFF3F })) ∧
    (∀ r, (s.ring r).enabled = false →
      (∀ (n : PartId) v, s.reaches (.vf n) = true → s.selectedRing (.vf n) = some r →
        exec (.registerWrite τ (.vf n) 0x20010 v) s = .next (now.keepLo (pairQueBase r) v) ∧
        exec (.pairHiWrite τ (.vf n) 0x20014 v) s = .next (now.setRing r { s.ring r with base := v ++ s.loOf (pairQueBase r) })) ∧
      (∀ v, s.selectedRing .pf = some r →
        exec (.registerWrite τ .pf 0x60010 v) s = .next (now.keepLo (pairQueBase r) v) ∧
        exec (.pairHiWrite τ .pf 0x60014 v) s = .next (now.setRing r { s.ring r with base := v ++ s.loOf (pairQueBase r) }))) ∧
    (∀ (l : Fin 64), let r : Recal := AMap.get {} s.recals l.val
      let is := fun x : Recal =>
        exec (.linkRecalibration τ l true) s = .next { now with recals := AMap.put {} s.recals l.val x }
      exec (.linkRecalibration τ l false) s = .next { now with recals := AMap.put {} s.recals l.val { r with owed := none } } ∧
      (now.clock < r.busyUntil → is { r with owed := none }) ∧
      (r.busyUntil ≤ now.clock →
        (r.owed = none → is { r with owed := some now.clock }) ∧
        (∀ b, r.owed = some b → now.clock < b + 100000000 → is { r with owed := some b }) ∧
        (∀ b, r.owed = some b → b + 100000000 ≤ now.clock → is { owed := none, busyUntil := now.clock + 1000 })))) ∧
  (∀ (s : State) (τ : Instant) (c : CoreId) (off : Nat), 0x4000 ≤ off → off < 0x10000 → off % 4 = 0 →
    let k := s.core c.val
    let held := k.mode = .off ∧ s.coreUp c.val = true
    (∃ t, exec (.pageWindowAccess τ c off none) s = .next t ∧ { t with clock := s.clock, out := s.out } = s ∧
      t.out.read = leBytes 4 (if k.mode = .off ∧ s.coreUp c.val = true then (k.pageRead off).toNat else 0)) ∧
    (∀ v, ∃ t, exec (.pageWindowAccess τ c off (some v)) s = .next t ∧
      (held → CoreBecomes s t τ c.val (k.pageWrite off v) ∧
        (off < 0x8000 ∨ (k.slot0 = none ∧ k.slot1 = none) → (t.core c.val).pageRead off = v)) ∧
      (¬held → t = s.at τ)))

/-- R26-R28, R38, R99, R102, R104, R125, R362: VAON waking and being lost, the switched rails becoming good and being lost, S0 and
S1 with their PF0 vector 1, the training that S1's end begins where it is owed.
What rests on the model's own reading: notes/assumptions/11.md, notes/assumptions/12.md, notes/assumptions/13.md,
notes/assumptions/14.md, notes/assumptions/81.md. -/
def Obligations.RailsAndStart : Prop :=
  ∀ (s : State) (τ : Instant),
    let now := s.at τ
    let b := fun r : Rail => BitVec.ofNat 8 (2 ^ Rail.bit r)
    (s.rails.vaon = false → exec (.vaonWake τ) s =
      .next { now with rails := { s.rails with vaon := true, lost := 0 }, bup := { st := .running } }) ∧
    (s.rails.vaon = true → exec (.vaonWake τ) s = .next now) ∧
    exec (.vaonLost τ) s = .next { State.reset with
      clock := now.clock, free := s.free, pending := s.pending, out := { s.out with pba := [] },
      rails := { perstN := s.rails.perstN, refclk := s.rails.refclk } } ∧
    (∀ r, s.rails.vaon = true → ∃ t, exec (.railGood τ r) s = .next t ∧ t.rails.good = s.rails.good ||| b r ∧
      (s.rails.good ≠ 0xFF → t.rails.good = 0xFF → t.rails.allGoodAt = now.clock) ∧
      { t with clock := s.clock, rails := s.rails } = s) ∧
    (∀ r, s.rails.vaon = true → s.rails.good &&& b r ≠ 0 →
      (s.killed = true → exec (.railLoss τ r) s = .next { now with rails := { s.rails with good := s.rails.good &&& ~~~b r } }) ∧
      (s.killed = false → ∃ t : State, exec (.railLoss τ r) s = .next t ∧ t.rails.good = s.rails.good &&& ~~~b r ∧
        t.rails.lost = s.rails.lost ||| b r ∧ AlertCause.rail ∈ t.sb.alerts ∧ t.bup = { st := .running, caps := [] } ∧
        OnlySlices s t t.rails.good ∧ t.parts = [] ∧ t.frame = none ∧ t.keys = [] ∧ t.regions = [] ∧ t.fuse = s.fuse ∧ t.trip = s.trip ∧
        t.srep = s.srep ∧ t.digest = s.digest ∧ t.pending = s.pending ∧
        (r ≠ .vio → t.flt = s.flt) ∧ (r = .vio → t.flt.slots = []))) ∧
    (∀ r, s.rails.good &&& b r = 0 → exec (.railLoss τ r) s = .next now) ∧
    (s.rails.vaon = true → s.rails.good = 0xFF → s.killed = false → s.bup.st = .running → s.bup.step = 0 →
      exec (.s0Complete τ true) s = .next (({ now with
        rails := { s.rails with refclk := true }, bup := { s.bup with st := .running, step := 1, nxt := 1 } }).signal 0 1)) ∧
    (s.rails.good ≠ 0xFF → ∀ clk, exec (.s0Complete τ clk) s = .next { now with rails := { s.rails with refclk := clk } }) ∧
    (s.bup.st = .running → s.bup.step = 1 →
      exec (.s1FuseRead τ none none) s = .next (({ now with
        bup := { s.bup with st := .failed, code := 0x20, detail := [] } }).signal 0 1) ∧
      (∀ f : FuseMap, ∀ first second, first = some f ∨ (first = none ∧ second = some f) →
        ∃ t, exec (.s1FuseRead τ first second) s = .next t ∧ t.fuse = some f ∧ t.bup.st = .done ∧ t.bup.step = 1 ∧
          t.bup.nxt = 2 ∧ t.pwr.opLimit = (if f.variant = .dk36 then 950 else 1200) ∧
          (s.vecMasked 0 1 = false → (0, 1) ∈ t.out.msix) ∧ (s.vecMasked 0 1 = true → (0, 1) ∈ t.out.pba) ∧
          t.link = { s.link with training := s.link.training || s.link.owed, owed := false } ∧
          (s.bup.cmdErr = 0 → s.bup.seq = 0 → s.bup.code = 0 → s.bup.degraded = false → t.bupStat = 0xA120)))

/-- R38, R67-R70, R74, R90, R92, R93, R124, R362: PERST_N, link training (owed until S1 is done), hot reset, PF FLR, VF FLR, the
changes of the virtual functions, the IDE streams, and what configuration space declares.
What rests on the model's own reading: notes/assumptions/31.md, notes/assumptions/32.md, notes/assumptions/33.md,
notes/assumptions/77.md. -/
def Obligations.HostLink : Prop :=
  ∀ (s : State) (τ : Instant),
    let now := s.at τ
    (∃ t, exec (.perstNAssert τ) s = .next t ∧ t.rails = { s.rails with perstN := false } ∧
      (s.rails.vaon = true → s.dead = false → t.bup = { st := .running, caps := [] } ∧ OnlySlices s t s.rails.good ∧
        t.parts = [] ∧ t.frame = none ∧ t.link = {} ∧ t.mbx = {} ∧ t.fuse = s.fuse ∧ t.digest = s.digest ∧ t.srep = s.srep ∧ t.trip = s.trip ∧
        t.sb = s.sb ∧ (s.rails.good.getLsbD 7 = true → t.flt = s.flt)) ∧
      (s.dead = true → { t with clock := s.clock, rails := s.rails } = s)) ∧
    (s.powered = true → s.fused = true → exec (.perstNDeassert τ) s = .next
      { now with rails := { s.rails with perstN := true }, link := { s.link with training := true } }) ∧
    (s.rails.vaon = true → s.powered = false ∨ s.fused = false → exec (.perstNDeassert τ) s = .next
      { now with rails := { s.rails with perstN := true }, link := { s.link with owed := true } }) ∧
    (s.powered = true → s.fused = true → s.rails.perstN = true → s.link.up = false →
      s.rails.allGoodAt + 100000000 ≤ now.clock →
      exec (.linkTrainTimeout τ) s = .next { now with link := { s.link with training := true } }) ∧
    (s.rails.perstN = false ∨ now.clock < s.rails.allGoodAt + 100000000 → exec (.linkTrainTimeout τ) s = .next now) ∧
    (∀ speed width, s.link.training = true → ∃ t, exec (.pcieLinkUp τ speed width) s = .next t ∧
      t.link = { s.link with up := true, training := false, speed := speed, width := width } ∧
      { t with clock := s.clock, link := s.link, parts := s.parts, rings := s.rings, out := s.out, evc := s.evc,
               flt := s.flt } = s) ∧
    (∀ speed width, s.link.training = false → exec (.pcieLinkUp τ speed width) s = .next now) ∧
    (s.powered = true → s.fused = true →
      let common := fun (t : State) =>
        (∀ n < 32, (t.part n).st = if (s.part n).st = .active then .held else (s.part n).st) ∧
        (∀ n < 32, ∀ r ∈ s.partRings n, (t.ring r).stopped = (s.ring r).enabled) ∧
        t.mbx = { s.mbx with tag := 0, opcode := 0, args := [] } ∧
        (s.committing = false → t.stage = { s.stage with bytes := [], chunks := [], drop := false }) ∧
        (s.committing = true → t.stage = { s.stage with drop := true }) ∧
        { t with clock := s.clock, link := s.link, flt := s.flt, stage := s.stage, mbx := s.mbx, parts := s.parts,
                 rings := s.rings, fab := s.fab, evc := s.evc, out := s.out } = s
      (∃ t, exec (.hotReset τ) s = .next t ∧ common t ∧
        t.link = { training := true, owed := s.link.owed, speed := s.link.speed, width := s.link.width, lastReset := 1, los := s.link.los }) ∧
      (∃ t, exec (.pfFlr τ) s = .next t ∧ common t ∧ t.link =
        { up := s.link.up, training := s.link.training, owed := s.link.owed, speed := s.link.speed, width := s.link.width,
          lastReset := 2, los := s.link.los }) ∧
      (∀ n : PartId, ∃ t, exec (.vfFlr τ n) s = .next t ∧ (t.part n.val).launches = [] ∧ (t.part n.val).comps = [] ∧
        (t.part n.val).rma.events = [] ∧ (∀ r ∈ s.partRings n.val, t.ring r = {}) ∧
        t.link.bme = s.link.bme &&& ~~~(BitVec.ofNat 32 (2 ^ n.val)) ∧ (t.part n.val).st = (s.part n.val).st ∧
        (t.part n.val).image = (s.part n.val).image ∧ t.regions = s.regions ∧ t.frame = s.frame)) ∧
    (∀ (k : Fin 33) on bme, ∃ t, exec (.vfEnableChange τ k on bme) s = .next t ∧
      t.link = { s.link with numVfs := k.val, vfEnable := on, bme := bme } ∧
      { t with clock := s.clock, link := s.link, parts := s.parts, rings := s.rings, out := s.out, evc := s.evc,
               flt := s.flt } = s) ∧
    (∀ (failed : BitVec 5) (n : Fin 5) key,
      let ide := s.link.ide &&& ~~~failed
      let bit := BitVec.ofNat 5 (2 ^ n.val)
      let is := fun m x => exec (.doeSpdmMessage τ ⟨failed, m⟩) s = .next { now with link := x }
      is .other { s.link with ide := ide } ∧
      is (.keyProg n key) { s.link with ide := ide, ideKeys := AMap.put [] s.link.ideKeys n.val key } ∧
      (AMap.get [] s.link.ideKeys n.val ≠ [] → is (.keySetGo n) { s.link with ide := ide ||| bit }) ∧
      (AMap.get [] s.link.ideKeys n.val = [] → is (.keySetGo n) { s.link with ide := ide }) ∧
      is (.keySetStop n) { s.link with ide := ide &&& ~~~bit, ideKeys := AMap.put [] s.link.ideKeys n.val [] }) ∧
    (∀ f, (s.config f).classCode = 0x120000 ∧ (s.config f).maxPayload = 512 ∧ (s.config f).maxReadRequest = 4096 ∧
      (s.config f).tagBits = 14 ∧ (s.config f).ats = false ∧ (s.config f).pri = false ∧ (s.config f).pasid = false ∧
      (s.config f).tdisp = false) ∧
    (s.config .pf).device = s.hubId.setWidth 16 ∧ (s.config .pf).totalVfs = 32 ∧ (s.config .pf).firstVfOffset = 1 ∧
    (s.config .pf).vfStride = 1

/-! ## Images and the mailbox (ch. 03, 05, 06) -/

/-- R75-R81, R90, R96, R97, R101, R146-R148, R197, R211: a mailbox row composes the registers and writes MBX_COMMIT: ignored with
OVERRUN while a command runs, refused for its tag, answered again for a recorded tag, refused in Tadpole but for NOP;
MBX_COMMAND_END publishes and ends the Molts of the command; the staging window takes writes unless a commit runs, and is cleared
when a judged commit ends or one that a reset over the link has met.
What rests on the model's own reading: notes/assumptions/20.md, notes/assumptions/21.md. -/
def Obligations.MailboxProtocol : Prop :=
  (∀ (s : State) (τ : Instant) (m : MbxCmd) (load : LoadOutcome) (ack : List TowerId) (c : Instr) (op : Nat),
    (c, op) ∈ [(Instr.mbxNop τ m, 0), (.frameCommit τ m load ack, 0x10), (.partCommit τ m load ack, 0x11),
      (.moltRelease τ m, 0x12), (.stageDiscard τ m, 0x13), (.partRearm τ m, 0x20), (.setPowerLimit τ m, 0x30),
      (.tmxUnlock τ m, 0x40)] →
    let b := (s.at τ).compose op m
    b.mbx.tag = m.tag ∧ b.mbx.opcode = BitVec.ofNat 32 op ∧ (∀ k < 8, AMap.get 0 b.mbx.args k = m.args.getD k 0) ∧
    (s.mbx.run.isSome = true → exec c s = .next { b with mbx := { b.mbx with overrun := true } }) ∧
    (s.mbx.run = none → m.commit ≠ m.tag ∨ m.commit = 0 →
      exec c s = .next (({ b with mbx := { b.mbx with done := true, code := 2, repeated := false } }).signal 0 0)) ∧
    (s.mbx.run = none → m.commit = m.tag → m.tag ≠ 0 → ∀ code res,
      s.mbx.record.find? (fun r => decide (r.1 = m.tag)) = some (m.tag, code, res) →
      exec c s = .next (({ b with mbx := { b.mbx with doneTag := m.tag, results := res, done := true, code := code,
                                                       repeated := true } }).signal 0 0)) ∧
    (s.takes m → s.tadpole = true → op ≠ 0 → exec c s = .next (((s.at τ).given op m).runs op m 5 [])) ∧
    (s.takes m → op = 0 → exec c s = .next (((s.at τ).given op m).runs op m 0 []))) ∧
  (∀ (s : State) (τ : Instant),
    let now := s.at τ
    (s.mbx.run = none → exec (.mbxCommandEnd τ) s = .next now) ∧
    (∀ r, s.mbx.run = some r → r.parked.isSome = true → exec (.mbxCommandEnd τ) s = .next now) ∧
    (∀ r, s.mbx.run = some r → r.parked = none →
      let results := (r.results ++ [0, 0, 0, 0]).take 4
      let cleared := s.stage.drop = true ∨ (r.opcode = 0x10 ∨ r.opcode = 0x11) ∧ (r.code = 0 ∨ r.code = 6)
      ∃ t, exec (.mbxCommandEnd τ) s = .next t ∧
        t.mbx = { s.mbx with run := none, done := true, code := r.code, doneTag := r.tag, results := results,
                             record := ((r.tag, r.code, results) :: s.mbx.record).take 64 } ∧
        t.out = (s.signal 0 0).out ∧ (cleared → t.stage = { s.stage with bytes := [], chunks := [], drop := false }) ∧
        (¬cleared → t.stage = s.stage) ∧
        (∀ n, (t.part n).molting = false ∧ { t.part n with molting := (s.part n).molting, barred := (s.part n).barred } = s.part n ∧
          ((s.part n).st = .active → (t.part n).barred = false)) ∧
        (∀ i, (s.key i).st = .discarding → (t.key i).st = .empty ∧ (t.key i).key = 0) ∧
        (∀ i, (s.key i).st ≠ .discarding → t.key i = s.key i) ∧
        { t with clock := s.clock, mbx := s.mbx, stage := s.stage, parts := s.parts, keys := s.keys, out := s.out, evc := s.evc,
                 flt := s.flt } = s) ∧
    (∀ off data, off < 0x10000000 → data ≠ [] → s.committing = true →
      exec (.stagingWrite τ off data) s = .next { now with stage := { s.stage with late := true } }) ∧
    (∀ off data, 0x10000000 ≤ off → exec (.stagingWrite τ off data) s = .next now) ∧
    (∀ off data, data ≠ [] → off + data.length ≤ 0x10000000 → s.committing = false →
      ∃ t, exec (.stagingWrite τ off data) s = .next t ∧
        (∀ x, Memory.read t.stage.bytes x =
          if off ≤ x ∧ x < off + data.length then data.getD (x - off) 0 else Memory.read s.stage.bytes x) ∧
        (∀ k, k ∈ t.stage.chunks ↔ k ∈ s.stage.chunks ∨ off / 65536 ≤ k ∧ k ≤ (off + data.length - 1) / 65536) ∧
        t.stage.late = s.stage.late ∧ { t with clock := s.clock, stage := s.stage } = s))

/-- R150-R168, R194, R197, R620: FRAME_COMMIT and PART_COMMIT. The first stage to object refuses the image, and nothing changes but
the mailbox and the IMG_ and ADM_ registers; an image that passes all loads or ends in a load fault; a PART_COMMIT whose regions are still being overwritten waits at the end of stage 5, and
COMMIT_RESUME takes it on.
What rests on the model's own reading: notes/assumptions/20.md, notes/assumptions/22.md, notes/assumptions/24.md,
notes/assumptions/25.md, notes/assumptions/28.md, notes/assumptions/29.md. -/
def Obligations.Commits : Prop :=
  (∀ (s : State) (τ : Instant) (m : MbxCmd) (load : LoadOutcome) (ack : List TowerId), s.takes m → s.tadpole = false →
    let now := s.at τ
    let len := m.arg 1
    (let c := Instr.frameCommit τ m load ack
     (len = 0 ∨ 0x10000000 < len → exec c s = .next ((now.given 0x10 m).runs 0x10 m 4 [])) ∧
     (len ≠ 0 → len ≤ 0x10000000 →
      let refused := fun k e => CommitRefused now 0x10 0 k m e (exec c s)
      (∀ e, stage1 s.stage true 0 len = .inr e → refused 1 e) ∧
      (∀ img rs, stage1 s.stage true 0 len = .inl (img, rs) →
        let f := toFrame img rs
        (∀ e, stage2 s.digest img rs = some e → refused 2 e) ∧
        (stage2 s.digest img rs = none →
          (∀ e, stage3Frame s.dk36 img rs = some e → refused 3 e) ∧
          (stage3Frame s.dk36 img rs = none →
            (∀ e, stage4Frame now f = some e → refused 4 e) ∧
            (stage4Frame now f = none →
              (∀ e, fitFrame now rs = some e → refused 5 e) ∧
              (fitFrame now rs = none → ∃ t, exec c s = .next t ∧ CommitEnded now t 0x10 0 m true ∧ t.frame = some f ∧
                t.keys = s.keys ∧ t.test = s.test ∧ t.link = s.link ∧ t.stage = s.stage ∧
                ((s.frame.getD {}).policy = f.policy →
                  (∀ n < 32, t.part n = f.stateOf n (s.part n)) ∧ t.cores = s.cores ∧ t.tim = s.tim)))))))) ∧
    (let c := Instr.partCommit τ m load ack
     let n := m.arg 0
     (31 < n ∨ 1 < m.arg 2 → exec c s = .next ((now.given 0x11 m).runs 0x11 m 3 [])) ∧
     (n ≤ 31 → m.arg 2 ≤ 1 → len = 0 ∨ 0x10000000 < len → exec c s = .next ((now.given 0x11 m).runs 0x11 m 4 [])) ∧
     (n ≤ 31 → m.arg 2 ≤ 1 → len ≠ 0 → len ≤ 0x10000000 → s.test.unlocked = true →
      exec c s = .next ((now.given 0x11 m).runs 0x11 m 5 [])) ∧
     (n ≤ 31 → m.arg 2 ≤ 1 → len ≠ 0 → len ≤ 0x10000000 → s.test.unlocked = false →
      let refused := fun k e => CommitRefused now 0x11 n k m e (exec c s)
      let keep := decide (m.arg 2 = 1)
      (∀ e, stage1 s.stage false n len = .inr e → refused 1 e) ∧
      (∀ img rs, stage1 s.stage false n len = .inl (img, rs) →
        let i := toPartImage img rs
        (∀ e, stage2 s.digest img rs = some e → refused 2 e) ∧
        (stage2 s.digest img rs = none →
          (∀ e, stage3Part n (s.spanIds n) img rs = some e → refused 3 e) ∧
          (stage3Part n (s.spanIds n) img rs = none →
            (∀ e, stage4Part now n i = some e → refused 4 e) ∧
            (stage4Part now n i = none →
              (∀ e, admission now n i = .inr e → refused 5 e) ∧
              (∀ l, admission now n i = .inl l →
                (s.overwriting n = true → ∃ t, exec c s = .next t ∧
                  t.mbx.run = some { tag := m.tag, opcode := 0x11,
                                     parked := some { part := n, keep := keep, image := i } } ∧
                  t.img.status = BitVec.ofNat 32 (0x11000500 + 2 ^ 16 * n) ∧
                  { t with clock := s.clock, free := s.free, mbx := s.mbx, img := s.img } = s) ∧
                (s.overwriting n = false → ∃ t, exec c s = .next t ∧ t.stage = s.stage ∧
                  (load = .ok → CommitEnded now t 0x11 n m true ∧ ImageStands s t n keep i) ∧
                  (load = .drbg → keep = true → (s.image n).isSome = true →
                    CommitEnded now t 0x11 n m true ∧ ImageStands s t n keep i) ∧
                  (load = .fault → CommitEnded now t 0x11 n m false ∧ LoadFaulted s t n i) ∧
                  (load = .drbg → keep = false ∨ (s.image n).isSome = false →
                    CommitEnded now t 0x11 n m false ∧ LoadFaulted s t n i ∧ t.drbgOk = false)))))))))) ∧
  (∀ (s : State) (τ : Instant) (load : LoadOutcome) (ack : List TowerId),
    let c := Instr.commitResume τ load ack
    (s.mbx.run = none → exec c s = .next (s.at τ)) ∧
    (∀ r, s.mbx.run = some r → r.parked = none → exec c s = .next (s.at τ)) ∧
    (∀ r p, s.mbx.run = some r → r.parked = some p →
      (s.overwriting p.part = true → exec c s = .next (s.at τ)) ∧
      (s.overwriting p.part = false →
        (load = .ok → ∃ t d, exec c s = .next t ∧ ImageStands s t p.part p.keep p.image ∧
          t.mbx = { s.mbx with run := some { r with parked := none, code := 0,
                                                    results := [0, 0xFFFFFFFF, s.stagedId, d] } }) ∧
        (load = .fault → ∃ t d, exec c s = .next t ∧ LoadFaulted s t p.part p.image ∧
          t.mbx = { s.mbx with run := some { r with parked := none, code := 6,
                                                    results := [0x50, 0xFFFFFFFF, s.stagedId, d] } }))) ∧
    (∀ n : PartId, exec (.regionOverwriteEnd τ n) s = .next ((s.at τ).setPart n.val { s.part n.val with ovw := [] })))

/-- R147, R150, R157-R161, R211, R458, R556, R598, R606, R607: MOLT_RELEASE, STAGE_DISCARD, PART_REARM, SET_POWER_LIMIT and TMX_UNLOCK
once accepted.
What rests on the model's own reading: notes/assumptions/20.md, notes/assumptions/21.md, notes/assumptions/26.md. -/
def Obligations.MailboxEffects : Prop :=
  ∀ (s : State) (τ : Instant) (m : MbxCmd), s.takes m → s.tadpole = false →
    let b := fun op => (s.at τ).given op m
    let n := m.arg 0
    exec (.stageDiscard τ m) s = .next (({ b 0x13 with
      stage := { s.stage with bytes := [], chunks := [], drop := false },
      img := { s.img with status := 0x13001700, offset := 0xFFFFFFFF } }).runs 0x13 m 0 []) ∧
    (31 < n → exec (.moltRelease τ m) s = .next ((b 0x12).runs 0x12 m 3 []) ∧
      exec (.partRearm τ m) s = .next ((b 0x20).runs 0x20 m 3 [])) ∧
    (n ≤ 31 → ∃ t d, exec (.moltRelease τ m) s = .next t ∧ t.mbx = ((b 0x12).runs 0x12 m 0 [0, 0, 0, d]).mbx ∧
      t.img.status = BitVec.ofNat 32 (0x12001700 + 2 ^ 16 * n) ∧ t.img.offset = 0xFFFFFFFF ∧
      (s.image n = none → { t with clock := s.clock, free := s.free, mbx := s.mbx, img := s.img } = s) ∧
      ((s.image n).isSome = true → (t.part n).image = none ∧ (t.part n).st = .empty ∧ (t.part n).ledger = [] ∧
        (t.part n).ovw = (s.part n).ovw ++ s.partRegions n ∧
        (∀ c ∈ s.partCores n, (t.core c).mode = .off ∧ (t.core c).code = [] ∧ (t.core c).near = [] ∧ (t.core c).slice = [] ∧
          (t.core c).slot0 = none ∧ (t.core c).slot1 = none ∧ (t.core c).eps = []) ∧
        (∀ r ∈ s.partRegions n, t.region r.index = {} ∧ (t.key r.index).st = .discarding) ∧
        (t.part n).molting = true ∧ (∀ i ∈ s.partLamps n, t.lamp i = {}) ∧ t.frame = s.frame)) ∧
    (n ≤ 31 → (s.part n).st ≠ .held → exec (.partRearm τ m) s = .next ((b 0x20).runs 0x20 m 5 [])) ∧
    (n ≤ 31 → (s.part n).st = .held → ∃ t k, exec (.partRearm τ m) s = .next t ∧
      t.mbx = ((b 0x20).runs 0x20 m 0 [k]).mbx ∧ (t.part n).st = .active ∧ (t.part n).image = s.image n ∧
      (∀ r ∈ s.partRings n, (t.ring r).stopped = false) ∧ t.cores = s.cores ∧ t.regions = s.regions) ∧
    (let w := n / 25 * 25
     let ok := decide (n < 65536) && s.limitFits w
     let t := if ok then { b 0x30 with pwr := { s.pwr with opLimit := w } } else b 0x30
     exec (.setPowerLimit τ m) s = .next (t.runs 0x30 m (if ok then 0 else 3)
      [BitVec.ofNat 32 t.limit, BitVec.ofNat 32 t.pwr.opLimit])) ∧
    (let rest := (List.range 7).all (fun i => decide (m.arg (i + 1) = 0))
     (1 < n ∨ rest = false → exec (.tmxUnlock τ m) s = .next ((b 0x40).runs 0x40 m 3 [])) ∧
     (n = 0 → rest = true → ∃ t, exec (.tmxUnlock τ m) s = .next t ∧ t.test.unlocked = false ∧
      t.mbx = ((b 0x40).runs 0x40 m 0 []).mbx ∧ (∀ k < 2, (AMap.get 0 t.test.ins k).getLsbD 31 = false) ∧
      { t with clock := s.clock, mbx := s.mbx, test := s.test } = s) ∧
     (n = 1 → rest = true →
      let may := s.fuse.any (fun f => decide (f.tmxLevel.toNat = 1)) && (List.range 32).all (fun k =>
        (s.image k).isNone && (s.part k).ovw.isEmpty)
      (may = true → exec (.tmxUnlock τ m) s =
        .next (({ b 0x40 with test := { s.test with unlocked := true } }).runs 0x40 m 0 [])) ∧
      (may = false → exec (.tmxUnlock τ m) s = .next ((b 0x40).runs 0x40 m 5 []))))

/-! ## Bring-up (ch. 04) -/

/-- R122, R123: a command of bring-up with the last accepted SEQ changes nothing, one with SEQ 0 is BAD_SEQ, and the first case
of R123's list that holds refuses one and leaves all but CMD_ERR as it was. -/
def Obligations.BringUpRefusals : Prop :=
  ∀ (s : State) (τ : Instant) (seq : Byte) (step : BitVec 4),
    let now := s.at τ
    let st := step.toNat
    let cmds := [(Instr.bupRun τ seq step, 0), (.bupRetry τ seq step, 1), (.bupDegrade τ seq step, 2), (.bupSkip τ seq step, 3)]
    let err := fun (e : Nat) => (.next { now with bup := { s.bup with cmdErr := e } } : Result)
    (∀ c a, (c, a) ∈ cmds →
      (seq = 0 → s.bup.seq ≠ 0 → exec c s = err 6) ∧
      (seq ≠ 0 → seq.toNat = s.bup.seq → exec c s = .next now) ∧
      (seq ≠ 0 → seq.toNat ≠ s.bup.seq →
        (9 < st ∨ st < 2 → exec c s = err 2) ∧
        (2 ≤ st → st ≤ 9 →
          (s.bup.st = .running → exec c s = err 3) ∧
          (s.bup.st ≠ .running →
            (a = 0 → st < s.bup.nxt → exec c s = err 4) ∧
            (a ≠ 0 ∨ s.bup.nxt ≤ st → st ≠ s.bup.nxt → exec c s = err 1) ∧
            (st = s.bup.nxt →
              ((a = 2 ∧ 5 < st) ∨ (a = 3 ∧ st ≠ 7) → exec c s = err 7) ∧
              (a = 1 ∨ (a = 2 ∧ st ≤ 5) → s.bup.st ≠ .failed ∨ s.bup.step ≠ st → exec c s = err 8))))))

/-- R100, R114, R115, R117-R119: the commands of bring-up once accepted: what RUN, RETRY, SKIP and DEGRADE do, within
BUP_FUSE_POLICY; soft-repair entries take writes only in Tadpole. SEQ 0 is refused before the test for a repeated SEQ (the
model's choice, DEDUCED, notes/assumptions/34.md). -/
def Obligations.BringUpCommands : Prop :=
  ∀ (s : State) (τ : Instant) (seq : Byte) (step : BitVec 4),
    let now := s.at τ
    let st := step.toNat
    let err := fun (e : Nat) => (.next { now with bup := { s.bup with cmdErr := e } } : Result)
    let taken := fun (t : State) => t.bup.seq = seq.toNat ∧ t.bup.cmdErr = 0 ∧ t.bup.step = st
    let pol := ((s.fuse.map FuseMap.policy).getD 0).toNat
    let degraded := fun (t : State) => exec (.bupDegrade τ seq step) s = .next t ∧ taken t ∧ t.bup.st = .done ∧
      t.bup.nxt = st + 1 ∧ t.bup.code = 0 ∧ t.bup.degraded = true ∧ t.out = (s.signal 0 1).out ∧
      { t with clock := s.clock, bup := s.bup, out := s.out } = s
    (seq = 0 → s.bup.seq = 0 → ∀ c ∈ [Instr.bupRun τ seq step, .bupRetry τ seq step, .bupDegrade τ seq step, .bupSkip τ seq step],
      exec c s = err 6) ∧
    (seq ≠ 0 → seq.toNat ≠ s.bup.seq → 2 ≤ st → st ≤ 9 → s.bup.st ≠ .running → st = s.bup.nxt →
      let begun := (.next { now with bup :=
        { s.bup with seq := seq.toNat, cmdErr := 0, step := st, st := .running, code := 0 } } : Result)
      exec (.bupRun τ seq step) s = begun ∧
      (s.bup.st = .failed → s.bup.step = st → exec (.bupRetry τ seq step) s = begun) ∧
      (st = 7 → exec (.bupSkip τ seq step) s = .next (({ now with bup :=
        { s.bup with seq := seq.toNat, cmdErr := 0, step := 7, st := .done, code := 0, detail := [], nxt := 8 } }).signal 0 1)) ∧
      (s.bup.st = .failed → s.bup.step = st →
        (st = 2 →
          let hub := s.bup.report.hubModulesFailed.dedup
          let ring := s.bup.report.ringModulesFailed.dedup
          let off := (List.range 4).filter (fun n => badClass (s.cap n) || badVersion (s.cap n) ||
            decide (hub.countP (fun i => decide (i / 4 = n)) = 4))
          (bits pol 13 11 < hub.length + ring.length ∨ (off ≠ [] ∧ bit pol 14 = false) →
            exec (.bupDegrade τ seq step) s = err 5) ∧
          (hub.length + ring.length ≤ bits pol 13 11 → (off = [] ∨ bit pol 14 = true) → ∃ t, degraded t ∧
            t.bup.towersOff = off ∧
            (∀ n < 4, AMap.get 0 t.bup.hubLost n = hub.countP (fun i => decide (i / 4 = n)) ∧
              AMap.get 0 t.bup.ringLost n = ring.countP (fun i => decide (i / 2 = n))))) ∧
        (st = 3 ∨ st = 4 →
          let g := s.bup.groupsOff ||| s.lostGroups
          let per := fun n => (List.range 16).countP (fun i => g.getLsbD (16 * n + i))
          ((∃ n < 4, bits pol 3 0 < per n) ∨ bits pol 7 4 < per 0 + per 1 + per 2 + per 3 →
            exec (.bupDegrade τ seq step) s = err 5) ∧
          ((∀ n < 4, per n ≤ bits pol 3 0) → per 0 + per 1 + per 2 + per 3 ≤ bits pol 7 4 →
            ∃ t, degraded t ∧ t.bup.groupsOff = g)) ∧
        (st = 5 →
          let off := (s.bup.report.badStacks.map (fun x => x.1.val)).dedup
          (bits pol 10 8 < off.length → exec (.bupDegrade τ seq step) s = err 5) ∧
          (off.length ≤ bits pol 10 8 → ∃ t, degraded t ∧ t.bup.stacksOff = off)))) ∧
    (∀ hi v, s.tadpole = false → exec (.softRepairWrite τ hi v) s = .next now) ∧
    (∀ v, s.tadpole = true → exec (.softRepairWrite τ false v) s = .next (now.keepLo pairSrep v) ∧
      exec (.softRepairWrite τ true v) s = .next { now with
        srep := AMap.put 0 s.srep (s.bup.srepIdx.toNat % 64) ((v &&& 0xF7FF8000) ++ s.loOf pairSrep) })

/-- R101-R103, R105-R113, R117-R121, R125, R556, R562, R563: how each step of bring-up ends: its code, what it has found and repaired
(S4 with the spare rows and columns of a slice bank, S5 with the rows that the repair entries name), and PF0 vector 1.
What rests on the model's own reading: notes/assumptions/35.md, notes/assumptions/36.md, notes/assumptions/78.md,
notes/assumptions/84.md. -/
def Obligations.BringUpSteps : Prop :=
  ∀ (s : State) (τ : Instant) (r : StepReport),
    let now := s.at τ
    let c := Instr.bupStepEnd τ r
    let ends := fun (t : State) (code : Nat) => exec c s = .next t ∧ t.bup.code = code ∧ t.bup.step = s.bup.step ∧
      t.bup.st = (if code = 0 then .done else .failed) ∧ t.bup.nxt = (if code = 0 then s.bup.step + 1 else s.bup.nxt) ∧
      (s.vecMasked 0 1 = false → t.out.msix.getLast? = some (0, 1)) ∧ (s.vecMasked 0 1 = true → (0, 1) ∈ t.out.pba) ∧
      t.bup.seq = s.bup.seq ∧ t.bup.cmdErr = s.bup.cmdErr
    let counted := fun (t : State) (kind : Nat) => ∃ a b, t.bup.srepUsed = s.bup.srepUsed + a ∧ t.bup.srepBad = s.bup.srepBad + b ∧
      a + b = (s.srepOf kind).length
    let only := fun (t : State) => { t with clock := s.clock, bup := s.bup, out := s.out } = s
    (s.bup.st ≠ .running → exec c s = .next now) ∧
    (s.bup.st = .running →
      (s.bup.step = 2 →
        let any := fun (f : W64 → Bool) => (List.range 4).any (fun n => f (r.caps.getD n 0))
        let code := if r.hubModulesFailed ≠ [] ∨ r.ringModulesFailed ≠ [] then 0x30
          else if any (fun w => decide (bits w.toNat 7 0 < 1)) then 0x31
          else if any (fun w => decide (bits w.toNat 15 8 ≠ 1)) then 0x32 else 0
        ∃ t, ends t code ∧ only t ∧ t.bup.report = r ∧ ∀ n < 4, t.cap n = r.caps.getD n 0) ∧
      (s.bup.step = 3 →
        ∃ t, ends t (if t.groupsCovered then 0 else 0x40) ∧ only t ∧ (t.groupsCovered = true → counted t 1) ∧
          ∀ (w : Fin 4) (y : Fin 16) (x : Fin 17), (t.badCols w.val y.val).getLsbD x.val = true ↔
            (s.badCols w.val y.val).getLsbD x.val = true ∨ ⟨w, y, x⟩ ∈ r.badSites ∨
            ∃ e ∈ s.srepOf 1, s.srepFits e = true ∧ srepUnit e % 4 = w.val ∧ srepRow e = y.val ∧ srepCol e = x.val) ∧
      (s.bup.step = 4 →
        let given := (s.repairsOf 2).foldl (fun l e => (takeSpare l (sliceRowOf e)).getD l) s.bup.sliceReps
        let found := repairSlices given r.sliceFaults
        let within := fun (l : List SliceRepair) => ∀ site layer bank column,
          l.countP (fun x => decide (x.site = site) && decide (x.layer = layer) && decide (x.bank = bank) && decide (x.column = column))
            ≤ if column then 2 else 16
        ∃ t, ends t (if t.groupsCovered = true ∧ ∀ x ∈ found.2, t.shortRow x.tower.val x.row.val = false then 0 else 0x50) ∧
          (t.bup.code = 0 → counted t 2) ∧ t.bup.sliceReps = found.1 ∧ (within s.bup.sliceReps → within t.bup.sliceReps) ∧
          (∀ d, t.core d = { s.core d with slice := [], marks := [] }) ∧
          { t with clock := s.clock, bup := s.bup, cores := s.cores, out := s.out } = s ∧
          ∀ (w : Fin 4) (y : Fin 16) (x : Fin 17), (t.badCols w.val y.val).getLsbD x.val = true ↔
            (s.badCols w.val y.val).getLsbD x.val = true ∨ ⟨w, y, x⟩ ∈ found.2) ∧
      (s.bup.step = 5 →
        let reps := (s.repairsOf 3).map stackRowOf
        let left := r.badRows.filter (fun x => !reps.contains x)
        let bad := r.badStacks ++ left.map (fun x => (x.stack, StackFail.test))
        let has := fun f : StackFail => bad.any (fun x => decide (x.2 = f))
        let code := if has .train then 0x60 else if has .test then 0x61 else if has .capacity then 0x62 else 0
        ∃ t, ends t code ∧ only t ∧ t.bup.report = { r with badStacks := bad } ∧ t.bup.stackReps = reps ∧
          (code = 0 → counted t 3)) ∧
      (s.bup.step = 6 →
        (∀ n l, r.silentRegulators = n :: l → ∃ t, ends t 0x70 ∧ only t ∧ t.pwr = s.pwr) ∧
        (r.silentRegulators = [] → ∃ t, ends t 0 ∧ t.pwr.armed = true ∧ t.pwr.sbLimit = none ∧
          t.pwr.opLimit = s.pwr.sbLimit.getD s.pwr.opLimit ∧ t.cores = s.cores ∧ t.frame = s.frame ∧
          ∀ x ∈ r.badSensors, s.sensorMapped x.1 = false → x.2 ≠ .none → x.1 < 560 → (t.sensor x.1).fault ≠ .none)) ∧
      (s.bup.step = 7 → ∃ t, ends t 0 ∧ t.cores = s.cores ∧ t.parts = s.parts ∧
        (∀ p ∈ r.portsUp, s.hasPort p.val = true → (t.port p.val).enable = true ∧ (t.port p.val).link = .up) ∧
        (∀ p, (∀ q ∈ r.portsUp, q.val ≠ p) → t.port p = s.port p) ∧
        (r.portsUp = [] → only t)) ∧
      (s.bup.step = 8 →
        (r.oscillatorOk = false → ∃ t, ends t 0x90 ∧ only t) ∧
        (r.oscillatorOk = true → ∃ t, ends t 0 ∧ t.tim.st = .free ∧ t.mono = 0 ∧
          (s.tim.hold = none → t.now = 0) ∧ t.cores = s.cores ∧
          t.frame = s.frame)) ∧
      (s.bup.step = 9 →
        let d := (List.range 12).flatMap (fun i => leBytes 4 (AMap.get 0 s.bup.keydig i).toNat)
        let zero := d.all (fun b => decide (b = 0))
        (r.entropyOk = false → ∃ t, ends t 0xA2 ∧ only t ∧ t.digest = s.digest) ∧
        (r.entropyOk = true → s.digest = none → zero = true → ∃ t, ends t 0xA0 ∧ only t) ∧
        (r.entropyOk = true → (s.digest.isSome = true ∨ zero = false) → ∃ t, ends t 0 ∧ t.tadpole = false ∧ t.drbgOk = true ∧
          t.digest = some (s.digest.getD d) ∧ t.bup.keyPresent = true ∧ t.bup.keyMatch = decide (d = s.digest.getD d) ∧
          { t with clock := s.clock, bup := s.bup, digest := s.digest, drbgOk := s.drbgOk, out := s.out } = s)))

/-! ## The sideband (ch. 03) -/

/-- R82-R87, R89, R104, R556, R570: the sideband answers whenever VAON is good: the common command codes, the reading commands, the
repeat of a sequence byte, the limit, the lamps, the alerts and the emergency power-down.
What rests on the model's own reading: notes/assumptions/37.md, notes/assumptions/38.md, notes/assumptions/39.md,
notes/assumptions/40.md. -/
def Obligations.Sideband : Prop :=
  (∀ (s : State) (τ : Instant),
    let now := s.at τ
    let sb := fun (x : Machine.Sideband) => (.next { now with sb := x } : Result)
    let ccc := [Instr.getpid τ, .getbcr τ, .getdcr τ, .getstatus τ, .getmxds τ]
    let reads := [Instr.getId ⟨τ, 1⟩, .getState τ, .getTemp τ, .getPower τ, .getLimits τ, .getTripCause τ]
    (s.rails.vaon = true →
      (∀ a, s.sb.addr = none → exec (.entdaa τ a) s = sb { s.sb with addr := some a } ∧
        exec (.setdasa τ 0x5C a) s = sb { s.sb with addr := some a } ∧
        ∀ x : BitVec 7, x ≠ 0x5C → exec (.setdasa τ x a) s = .next now) ∧
      exec (.rstdaa τ) s = sb { s.sb with addr := none } ∧
      exec (.enec τ) s = sb { s.sb with ibi := true } ∧ exec (.disec τ) s = sb { s.sb with ibi := false }) ∧
    (s.rails.vaon = false ∨ s.sb.addr = none → (∀ c ∈ ccc ++ reads, exec c s = .next now) ∧
      (∀ a n, exec (.getTelemetry τ a n) s = .next now) ∧ (∀ l, exec (.getLamp τ l) s = .next now) ∧
      (∀ code, exec (.getId ⟨τ, code⟩) s = .next now) ∧
      (∀ k, exec (.clearAlert τ k) s = .next now) ∧
      ∀ q (v : BitVec 16) b0 b1 b2, ∀ c ∈ [Instr.sbSetPowerLimit τ q v, .setLamp τ q b0 b1 b2, .emergencyArm τ q b0,
        .emergencyOff τ q b0, .emergencyRelease τ q b0], exec c s = .next now) ∧
    (s.sbOn = true →
      let ans := fun (k : Nat) (fs : List SbField) => (.next (now.answers k fs) : Result)
      let hottest := fun (lo n : Nat) (x : Int) => (∀ d, lo ≤ d → d < lo + n → s.dieReading d ≤ x) ∧
        ∃ d, lo ≤ d ∧ d < lo + n ∧ s.dieReading d = x
      (∀ c ∈ ccc, ∃ t f, exec c s = .next t ∧ t.sb = { s.sb with status := 0, resp := [f] } ∧
        { t with clock := s.clock, free := s.free, sb := s.sb } = s) ∧
      (∀ code : Byte, code.toNat ∉ [0x01, 0x02, 0x10, 0x11, 0x12, 0x20, 0x21, 0x30, 0x31, 0x40, 0x41, 0x50, 0x51, 0x52] →
        exec (.getId ⟨τ, code⟩) s = ans 1 []) ∧
      exec (.getId ⟨τ, 1⟩) s = ans 0 [⟨32, s.hubId.toNat⟩, ⟨32, 0x4201⟩, ⟨64, s.unitId.toNat⟩] ∧
      exec (.getState τ) s = ans 0 [f8 s.bup.step, f8 (if s.tadpole then 1 else 0),
        f8 (s.parts.filter (fun (p : Nat × Part) => p.2.image.isSome)).length, f8 s.bup.code] ∧
      ((∀ d < 29, s.diePowered d = true) → ∃ a b c, hottest 0 4 a ∧ hottest 4 16 b ∧ hottest 20 8 c ∧
        exec (.getTemp τ) s = ans 0 [f16 a, f16 b, f16 c, f16 (s.dieReading 28)]) ∧
      ((∃ d < 29, s.diePowered d = false) → exec (.getTemp τ) s = ans 3 []) ∧
      exec (.getPower τ) s = (if s.rails.good.getLsbD 7 then ans 0 [f16 s.pwr.now, f16 s.limit] else ans 3 []) ∧
      exec (.getLimits τ) s = ans 0 [f16 (if s.dk36 then 950 else 1200), f16 (if s.dk36 then 1250 else 1600), f16 s.floorSum] ∧
      (∀ first : BitVec 16, exec (.getTelemetry τ first 0) s = ans 0 []) ∧
      (∀ (first : BitVec 16) (n : Byte), n ≠ 0 →
        (560 < first.toNat + n.toNat → exec (.getTelemetry τ first n) s = ans 2 []) ∧
        (first.toNat + n.toNat ≤ 560 →
          let xs := (List.range n.toNat).map (fun i => first.toNat + i)
          ((∃ x ∈ xs, s.diePowered (sensorDie x) = false) → exec (.getTelemetry τ first n) s = ans 3 []) ∧
          ((∀ x ∈ xs, s.diePowered (sensorDie x) = true) →
            exec (.getTelemetry τ first n) s = ans 0 (xs.map (fun x => f16 (s.sensor x).reading))))) ∧
      (∀ l : Byte, let x := s.lamp l.toNat
        let cfg := (x.pending.getD x.cfg).toNat
        (11 < l.toNat → exec (.getLamp τ l) s = ans 2 []) ∧
        (l.toNat ≤ 11 → s.rails.good.getLsbD 7 = false → exec (.getLamp τ l) s = ans 3 []) ∧
        (l.toNat ≤ 11 → s.rails.good.getLsbD 7 = true → exec (.getLamp τ l) s =
          ans 0 [f8 (l.toNat + 16 * (bits cfg 8 0 / 256)), f8 (bits cfg 8 0), f8 (bits cfg 23 16), f8 x.status])) ∧
      (∃ em, exec (.getTripCause τ) s = ans 0 [⟨32, s.trip.cause.toNat⟩, f8 s.rails.lost.toNat, em]) ∧
      (∀ mask : Byte, ∃ t left shown, exec (.clearAlert τ mask) s = .next t ∧
        t.sb = { s.sb with alerts := left, status := 0, resp := [shown] } ∧ { t with clock := s.clock, sb := s.sb } = s ∧
        ∀ a, a ∈ left ↔ a ∈ s.sb.alerts ∧
          (mask.getLsbD (Config.alertBit (AlertCause.num a)).val = true → s.alertEnded a = false)))) ∧
  (∀ (s : State) (τ : Instant) (seq : Byte), s.sbOn = true →
    let now := s.at τ
    let fresh := fun (code : Nat) => ∀ r, AMap.get none s.sb.last code = some r → r.seq ≠ seq
    let out := fun (code : Nat) (x : State) (k : Nat) (fs : List SbField) => (.next { x with sb :=
      { x.sb with status := k, resp := fs, last := AMap.put none x.sb.last code (some { seq := seq, status := k, fields := fs }) } } :
        Result)
    (∀ (v : BitVec 16) b0 b1 b2 c code, (c, code) ∈ [(Instr.sbSetPowerLimit τ seq v, 0x20), (.setLamp τ seq b0 b1 b2, 0x30),
        (.emergencyArm τ seq b0, 0x50), (.emergencyOff τ seq b0, 0x51), (.emergencyRelease τ seq b0, 0x52)] →
      ∀ r, AMap.get none s.sb.last code = some r → r.seq = seq → exec c s = .next (now.answers (r.status + 128) r.fields)) ∧
    (fresh 0x20 → ∀ v : BitVec 16,
      let w := v.toNat / 25 * 25
      let fits := (if s.dk36 then 725 else 900) ≤ w ∧ w ≤ (if s.dk36 then 1250 else 1600)
      (¬fits → exec (.sbSetPowerLimit τ seq v) s = out 0x20 now 2 []) ∧
      (fits → s.pwr.armed = true →
        let x := { now with pwr := { s.pwr with opLimit := w } }
        exec (.sbSetPowerLimit τ seq v) s = out 0x20 x 0 [f16 x.limit]) ∧
      (fits → s.pwr.armed = false →
        exec (.sbSetPowerLimit τ seq v) s = out 0x20 { now with pwr := { s.pwr with sbLimit := some w } } 0 [f16 w])) ∧
    (fresh 0x30 → ∀ b0 b1 b2 : Byte,
      let i := b0.toNat % 16
      let duty := 256 * (b0.toNat / 16 % 2) + b1.toNat
      let bad := 256 < duty ∨ b2.toNat < 20 ∨ 200 < b2.toNat ∨ 11 < i ∨ b0.toNat / 32 ≠ 0
      let x := s.lamp i
      (bad → exec (.setLamp τ seq b0 b1 b2) s = out 0x30 now 2 []) ∧
      (¬bad → s.rails.good.getLsbD 7 = false → exec (.setLamp τ seq b0 b1 b2) s = out 0x30 now 3 []) ∧
      (¬bad → s.rails.good.getLsbD 7 = true → (s.lampOwner i).isSome = true →
        exec (.setLamp τ seq b0 b1 b2) s = out 0x30 now 4 []) ∧
      (¬bad → s.rails.good.getLsbD 7 = true → s.lampOwner i = none →
        ∃ cfg : W32, exec (.setLamp τ seq b0 b1 b2) s = out 0x30 (now.setLamp i { x with pending := some cfg }) 0 [] ∧
          bits cfg.toNat 8 0 = duty ∧ bits cfg.toNat 23 16 = b2.toNat ∧ cfg.getLsbD 31 = true ∧
          bits cfg.toNat 25 24 = bits (x.pending.getD x.cfg).toNat 25 24)) ∧
    (fresh 0x50 → exec (.emergencyArm τ seq 0xA5) s = out 0x50 { now with sb := { s.sb with armedAt := some now.clock } } 0 [] ∧
      ∀ b : Byte, b ≠ 0xA5 → exec (.emergencyArm τ seq b) s = out 0x50 now 2 []) ∧
    (fresh 0x51 →
      let armed := ∃ a, s.sb.armedAt = some a ∧ now.clock ≤ a + 10000000
      (∀ b : Byte, b ≠ 0x5A → exec (.emergencyOff τ seq b) s = out 0x51 now 2 []) ∧
      (¬armed → exec (.emergencyOff τ seq 0x5A) s = out 0x51 now 5 []) ∧
      (armed → ∃ t, exec (.emergencyOff τ seq 0x5A) s = .next t ∧ t.trip.emHold = true ∧ t.rails.good = 0 ∧
        t.rails.lost = s.rails.lost ∧ t.killed = true ∧ AlertCause.emergency ∈ t.sb.alerts ∧ t.sb.armedAt = s.sb.armedAt ∧
        t.sb.status = 0 ∧ AMap.get none t.sb.last 0x51 = some { seq := seq, status := 0, fields := [] } ∧
        t.keys = [] ∧ t.regions = [] ∧ t.cores = [] ∧ t.parts = [] ∧ t.frame = none ∧ t.bup = { st := .running, caps := [] } ∧
        t.fuse = s.fuse ∧ t.digest = s.digest ∧ t.srep = s.srep ∧ t.pending = s.pending ∧ t.trip.hold = s.trip.hold ∧
        (s.trip.cause.getLsbD 31 = false → t.trip.cause = 0xB0000000) ∧
        (s.trip.cause.getLsbD 31 = true → t.trip.cause = s.trip.cause))) ∧
    (fresh 0x52 → exec (.emergencyRelease τ seq 0x5A) s =
        out 0x52 { now with trip := { s.trip with emHold := false, pin := s.trip.pin && s.trip.hold } } 0 [] ∧
      ∀ b : Byte, b ≠ 0x5A → exec (.emergencyRelease τ seq b) s = out 0x52 now 2 []))

/-! ## Power, heat and tempo (ch. 02, 19) -/

/-- R32, R33, R212, R566-R571: the trip chain: a trip sensor at its threshold or a failed self-check trips it, what a trip takes and
what stays, THERM_TRIP_N and PWR_KILL_N, the first cause kept, the 10 s of the re-arm timer, and the cause cleared.
What rests on the model's own reading: notes/assumptions/73.md. -/
def Obligations.TripChain : Prop :=
  ∀ (s : State) (τ : Instant),
    let now := s.at τ
    let x0 := s.trip
    let cool := fun (rs : AMap (BitVec 16)) => ∀ y < 58, s.tripMapped y = true ∨
      (y ∉ x0.broken ∧ (AMap.get (0 : BitVec 16) rs y).toInt < rearmAt y)
    let measured := fun (c : Instr) (y : Nat) (reading : BitVec 16) => ∃ t, exec c s = .next t ∧
      let rs := AMap.put (0 : BitVec 16) x0.readings y reading
      t.trip.readings = rs ∧ { t.trip with readings := x0.readings, since := x0.since } = x0 ∧
      (x0.hold = true → cool rs → t.trip.since = some (x0.since.getD now.clock)) ∧
      (x0.hold = false ∨ ¬cool rs → t.trip.since = none) ∧ { t with clock := s.clock, trip := x0 } = s
    let trips := fun (c : Instr) (kind y : Nat) (reading : BitVec 16) => ∃ t, exec c s = .next t ∧ t.trip.hold = true ∧
      t.trip.emHold = x0.emHold ∧ t.trip.since = none ∧
      t.trip.cause = (if x0.cause.getLsbD 31 then x0.cause
        else BitVec.ofNat 32 (2 ^ 31 + kind * 2 ^ 28 + y * 2 ^ 16 + reading.toNat)) ∧
      (x0.hold = true → t.trip.count = x0.count ∧ { t with clock := s.clock, trip := x0 } = s) ∧
      (x0.hold = false → t.trip.count = min 0xFFFF (x0.count + 1) ∧ t.trip.pin = true ∧ AlertCause.trip ∈ t.sb.alerts ∧ t.rails.good = 0 ∧
        t.rails.lost = s.rails.lost ∧ t.killed = true ∧ t.keys = [] ∧ t.regions = [] ∧ t.cores = [] ∧ t.parts = [] ∧
        t.frame = none ∧ t.flt = {} ∧ t.bup = { st := .running, caps := [] } ∧ t.fuse = s.fuse ∧ t.digest = s.digest ∧
        t.srep = s.srep ∧ t.pwr.sbLimit = s.pwr.sbLimit ∧ t.pending = s.pending)
    (∀ (y : Fin 58) reading,
      (s.rails.vaon = false ∨ s.tripMapped y.val = true → exec (.tripTemp τ y reading) s = .next now ∧
        exec (.tripSelfCheck τ (some y) reading) s = .next now) ∧
      (s.rails.vaon = true → s.tripMapped y.val = false →
        (reading.toInt < tripAt y.val → measured (.tripTemp τ y reading) y.val reading) ∧
        (tripAt y.val ≤ reading.toInt → trips (.tripTemp τ y reading) 1 y.val reading) ∧
        trips (.tripSelfCheck τ (some y) reading) 2 y.val reading) ∧
      (s.rails.vaon = true → measured (.rearmThresholdCrossing τ y reading) y.val reading) ∧
      (s.rails.vaon = false → exec (.rearmThresholdCrossing τ y reading) s = .next now)) ∧
    (∀ reading, exec (.tripSelfCheck τ none reading) s = .next now) ∧
    (∀ t0, x0.hold = true → x0.since = some t0 → t0 + 10000000000 ≤ now.clock →
      exec (.tripRearmExpiry τ) s =
        .next { now with trip := { x0 with hold := false, since := none, pin := x0.pin && x0.emHold } }) ∧
    (x0.hold = false ∨ x0.since = none → exec (.tripRearmExpiry τ) s = .next now) ∧
    (∀ t0, x0.since = some t0 → now.clock < t0 + 10000000000 → exec (.tripRearmExpiry τ) s = .next now) ∧
    exec (.tripCauseClear τ) s = .next { now with trip := { x0 with cause := 0 } }

/-- R50, R360, R366, R367, R406, R555-R564, R572: the power loop, the thermal round, a sensor's sample with its self-check, the
ceilings that follow it at once, and the relaxing of a band.
What rests on the model's own reading: notes/assumptions/72.md. -/
def Obligations.PowerAndHeat : Prop :=
  ∀ (s : State) (τ : Instant),
    let now := s.at τ
    let p := s.pwr
    let onlyPwr := fun (t : State) => { t with clock := s.clock, pwr := p, out := s.out, evc := s.evc, flt := s.flt } = s
    (p.armed = false ∨ s.powered = false → (∀ a u, exec (.powerLoopTick τ a u) s = .next now) ∧
      exec (.thermalRound τ) s = .next now) ∧
    (p.armed = true → s.powered = true →
      (∀ avg u, ∃ t, exec (.powerLoopTick τ avg u) s = .next t ∧ onlyPwr t ∧ t.pwr.now = avg ∧ t.pwr.energy = p.energy + avg ∧
        t.pwr.steps = p.steps ∧ t.pwr.opLimit = p.opLimit ∧
        let moves := fun (goal : Nat → Nat) (can : Nat → Prop) => ∀ n < 4,
          (p.vrFault.getLsbD n = false → can n →
            (u.getD n 0 < 3 → t.vcore n = goal n ∧ t.pwr.vrFault.getLsbD n = false) ∧
            (3 ≤ u.getD n 0 → t.vcore n = s.vcore n ∧ t.pwr.vrFault.getLsbD n = true ∧ t.pwr.event.getLsbD 5 = true)) ∧
          (p.vrFault.getLsbD n = true ∨ ¬can n → t.vcore n = s.vcore n ∧ t.pwr.vrFault.getLsbD n = p.vrFault.getLsbD n)
        let low := fun n => (if s.floored n then 620 else 550)
        (s.limit < avg → moves (fun n => max (low n) (s.vcore n - 10)) (fun n => low n < s.vcore n) ∧
          ((∀ n < 4, p.vrFault.getLsbD n = true ∨ s.vcore n ≤ low n) → t.pwr.event.getLsbD 4 = true)) ∧
        (avg + 25 ≤ s.limit → s.anyBand 1 = false →
          moves (fun n => min 900 (s.vcore n + 5)) (fun n => s.vcore n < 900)) ∧
        (avg ≤ s.limit → s.limit < avg + 25 ∨ s.anyBand 1 = true → t.pwr.vcore = p.vcore ∧ t.pwr.vrFault = p.vrFault)) ∧
      (s.anyBand 2 = true → s.limit = s.floorSum → exec (.thermalRound τ) s = .next now) ∧
      (s.anyBand 2 = true → s.limit ≠ s.floorSum → ∃ t, exec (.thermalRound τ) s = .next t ∧ onlyPwr t ∧
        t.pwr = { p with steps := p.steps + 1, stepsAt := now.clock, throttles := min 0xFFFFFFFF (p.throttles + 1),
                         event := p.event ||| 2 }) ∧
      (s.anyBand 2 = false →
        let rested := 0 < p.steps ∧ (∃ t0, p.coolSince = some t0 ∧ t0 + 100000000 ≤ now.clock) ∧ p.stepsAt + 100000000 ≤ now.clock
        (¬rested → exec (.thermalRound τ) s = .next now) ∧
        (rested → ∃ t, exec (.thermalRound τ) s = .next t ∧ onlyPwr t ∧
          t.pwr = { p with steps := p.steps - 1, stepsAt := now.clock, event := p.event ||| 4 }))) ∧
    (∀ (x : Fin 560) (reading : BitVec 16) (check : SensorFault),
      let c := Instr.sensorSample τ x reading check
      (s.powered = false ∨ s.sensorMapped x.val = true ∨ (s.sensor x.val).fault ≠ .none → exec c s = .next now) ∧
      (s.powered = true → s.sensorMapped x.val = false → (s.sensor x.val).fault = .none →
        let y := (s.sensor x.val).sampled reading.toInt
        let f : SensorFault := if check = .isOpen ∨ check = .short then check
          else if reading.toInt < -320 ∨ 1200 < reading.toInt then .range else if y.stuck then .stuck else .none
        let ceiling : BandOf → Bool := fun b => match b with
          | .ceiling _ _ => true
          | _ => false
        ∃ t, exec c s = .next t ∧ (∀ z, z ≠ x.val → { t.sensor z with moved := (s.sensor z).moved } = s.sensor z ∧
            (z ∉ sensorsOf (sensorDie x.val) → t.sensor z = s.sensor z)) ∧ t.cores = s.cores ∧ t.frame = s.frame ∧
          t.rings = s.rings ∧ t.keys = s.keys ∧ t.regions = s.regions ∧ t.tim = s.tim ∧ t.fab = s.fab ∧
          (f = .none → t.sensor x.val = y ∧ y.reading = reading.toInt ∧ t.flt = s.flt) ∧
          (f ≠ .none → t.sensor x.val = { s.sensor x.val with fault := f } ∧ t.pwr.event.getLsbD 3 = true ∧
            (s.vecMasked 0 3 = false → ∃ l, t.out.msix = s.out.msix ++ (0, 3) :: l) ∧ (s.vecMasked 0 3 = true → (0, 3) ∈ t.out.pba) ∧
            ∃ r, t.flt = { s.flt with waiting := s.flt.waiting ++ [r] } ∧ r.kind = 7 ∧ r.code = SensorFault.code f ∧
              r.loc = BitVec.ofNat 32 x.val) ∧
          (∀ b, t.bandNow b = if BandOfDie b = sensorDie x.val ∧ ceiling b = true then
              max (s.bandNow b) (bandIn (bandBounds b) (t.dieCounted (sensorDie x.val))) else s.bandNow b) ∧
          (t.anyBand 1 = true → t.pwr.coolSince = none) ∧
          (t.anyBand 1 = false → t.pwr.coolSince = some (p.coolSince.getD now.clock)) ∧
          (t.anyBand 3 = true → s.anyBand 3 = false → t.pwr.event.getLsbD 0 = true ∧ AlertCause.temperature ∈ t.sb.alerts))) ∧
    (∀ b, let x := bandBelow (bandBounds b) (now.hottestRecent (BandOfDie b))
      exec (.bandRelaxExpiry τ b) s = .next (if x < s.bandNow b then now.setBand x b else now))

/-- R55, R56, R59-R63, R65: a tempo window ends once its length has passed; a pace token gives a pinned core its budgets, and only
work below guard that has not used the last one slips and keeps it.
What rests on the model's own reading: notes/assumptions/74.md. -/
def Obligations.TempoAndPace : Prop :=
  ∀ (s : State) (τ : Instant),
    let now := s.at τ
    (∀ (c : CoreId) tempo,
      let k := s.core c.val
      let due := max k.tmonAt s.rails.allGoodAt + 1000 * 10 ^ bits k.tmonCfg.toNat 1 0 ≤ now.clock
      (s.powered = false ∨ s.coreUp c.val = false ∨ ¬due → exec (.tmonWindowEnd τ c tempo) s = .next now) ∧
      (s.powered = true → s.coreUp c.val = true → due → ∃ t, exec (.tmonWindowEnd τ c tempo) s = .next t ∧
        (t.core c.val = { k with tempo := tempo, tmonAt := now.clock, tmonValid := true, tmonCount := (k.tmonCount + 1) % 256,
                                 tmonMin := if tempo.toNat < k.tmonMin.toNat then tempo else k.tmonMin,
                                 tmonLow := k.tmonLow || decide (tempo.toNat < bits k.tmonCfg.toNat 27 16) }) ∧
        (∀ d, d ≠ c.val → t.core d = s.core d) ∧ { t with clock := s.clock, cores := s.cores, parts := s.parts } = s) ∧
      exec (.tmonMinClear τ c) s = .next (now.setCore c.val { s.core c.val with tmonLow := false, tmonMin := 0xFFF })) ∧
    (∀ w : TowerId,
      (s.tim.st = .off → exec (.paceToken τ w) s = .next now) ∧
      (s.tim.st ≠ .off → ∃ t, exec (.paceToken τ w) s = .next t ∧ s.flt.grew t.flt ∧
        { t with clock := s.clock, cores := s.cores, flt := s.flt } = s ∧
        ∀ d, (d / 256 ≠ w.val ∨ s.pinned d = false → t.core d = s.core d) ∧
          (d / 256 = w.val → s.pinned d = true →
            let k := s.core d
            let slow := k.tmonValid && decide (k.tempo.toNat < 1050)
            let b := slow && (k.stripRuns || k.run.arr.out.isSome) && decide (0 < k.budgetBeats)
            let i := slow && decide (k.mode = .running) && decide (0 < k.budgetIssues)
            let e := slow && k.run.str.lanes.any (fun x => x.2.any k.laneWorks) && decide (0 < k.budgetStream)
            { t.core d with evc := [] } = { k with
              evc := [], budgetBeats := 128 + (if b then min 128 k.budgetBeats else 0), budgetSend := 16384,
              budgetIssues := 256 + (if i then min 256 k.budgetIssues else 0),
              budgetStream := 16384 + (if e then min 16384 k.budgetStream else 0),
              run := { k.run with arr := { k.run.arr with begun := k.run.arr.begun || k.stripRuns } },
              slips := if b || i || e then { pf := min 0xFFFF (k.slips.pf + 1), vf := min 0xFFFF (k.slips.vf + 1) }
                       else k.slips })))

/-! ## The block as a machine -/

/-- A step carries out the command at the front of the queue on the state with the queue's rest; with nothing waiting the block
idles (the model's choice: notes/assumptions/2.md). -/
def Obligations.QueueStep : Prop :=
  (∀ (c : Instr) (s : State), step { s with pending := c :: s.pending } = exec c s) ∧
  (∀ (c : Instr) (q : List Instr) (s : State), s.pending = c :: q → step s = exec c { s with pending := q }) ∧
  (∀ s : State, s.pending = [] → step s = .next s)

/-- Every command answers a next state; none touches the commands that wait, and the clock never runs back (DESIGN CHOICE,
notes/assumptions/1.md: the clock is the latest instant that a command named). -/
def Obligations.CommandsAnswer : Prop :=
  ∀ (c : Instr) (s : State), ∃ t, exec c s = .next t ∧ t.pending = s.pending ∧ s.clock ≤ t.clock

/-- The values that the register tables give for reset: R62, R65, R366, R404, R426, R460, R501, R573, R574, R577, R596 and others, at
their places in the state after reset.
What rests on the model's own reading: notes/assumptions/9.md. -/
def Obligations.ResetValues : Prop :=
  let s := State.reset
  s.pending = [] ∧ s.rails.vaon = false ∧ s.bup.nxt = 0 ∧ s.tadpole = true ∧ s.mbx.done = false ∧ s.mbx.run = none ∧
    s.frame = none ∧ (∀ n, (s.part n).st = .absent ∧ (s.part n).image = none) ∧
    (∀ c, (s.core c).mode = .off ∧ (s.core c).tmonCfg = 0x041A0001 ∧ (s.core c).tmonMin = 0xFFF ∧ (s.core c).tmonLow = false ∧
      (s.core c).stallLimit = 0x3E8 ∧ (s.core c).fltValid = false) ∧
    (∀ n, (s.tower n).slcCfg = 0x418 ∧ (s.tower n).farEnable = true) ∧ (∀ k, (s.stack k).cfg = 0x18) ∧
    (∀ k, (s.key k).st = .empty) ∧
    (∀ r, (s.ring r).cfg = 0 ∧ (s.ring r).enabled = false ∧ (s.ring r).lserial = 0xFFFFFFFF) ∧
    (∀ i, (s.lamp i).cfg = 0x01640000 ∧ (s.lamp i).pending = none) ∧ (∀ n, s.vcore n = 750) ∧
    s.fab.event = 0 ∧ s.tim.event = 0 ∧ s.pwr.event = 0 ∧ s.pwr.steps = 0 ∧ s.tim.st = .off ∧ s.mono = 0 ∧
    s.test.unlocked = false ∧ s.flt.slots = [] ∧ s.sb.alerts = []

/-- The state after reset meets the invariant. -/
def Obligations.ResetIsSound : Prop :=
  State.reset.Sound

/-- R100-R103, R122, R146, R568, R570, R606, R607: every step keeps the invariant, from every state that meets it: bring-up's steps run in
order and TADPOLE ends only after S9, the re-arm timer runs only while the trip holds, test access is open only out of Tadpole on
a device fused for it, and the staging window keeps its form and lies within 256 MiB. -/
def Obligations.StepKeepsSound : Prop :=
  ∀ s t : State, s.Sound → step s = .next t → t.Sound
end

