-- ==== Sys2Proof/Laws/Tables.lean ====
section
/-!
SUPPORT. Laws of tables and memories: a read after a write, and that every operation keeps the canonical form.
-/
namespace Sys2Proof.Machine

variable {α : Type}

theorem AMap.get_insert (d : α) (m : AMap α) (i : Nat) (v : α) (h : ∀ p ∈ m, p.1 ≠ i) (j : Nat) :
    AMap.get d (AMap.insert m i v) j = if j = i then v else AMap.get d m j := by
  induction m with
  | nil => simp [AMap.insert, AMap.get]
  | cons p m ih =>
    obtain ⟨k, w⟩ := p
    have hk : k ≠ i := h (k, w) (by simp)
    have ih := ih (fun p hp => h p (by simp [hp]))
    simp only [AMap.insert]
    split
    · simp [AMap.get]
    · simp only [AMap.get, ih]
      by_cases hj : j = k
      · subst hj; simp [hk]
      · simp [hj]

theorem AMap.get_filter_ne (d : α) (m : AMap α) (i j : Nat) :
    AMap.get d (m.filter (fun (p : Nat × α) => decide (p.1 ≠ i))) j = if j = i then d else AMap.get d m j := by
  induction m with
  | nil => simp [AMap.get]
  | cons p m ih =>
    obtain ⟨k, w⟩ := p
    by_cases hk : k = i
    · subst hk
      simp only [List.filter_cons, ne_eq, not_true_eq_false, decide_false, Bool.false_eq_true, ↓reduceIte, ih, AMap.get]
      by_cases hj : j = k <;> simp [hj]
    · simp only [List.filter_cons, ne_eq, hk, not_false_eq_true, decide_true, ↓reduceIte, AMap.get, ih]
      by_cases hj : j = k
      · subst hj; simp [hk]
      · simp [hj]

/-- A read after a write: the value written there, every other number as before. -/
theorem AMap.get_put [DecidableEq α] (d : α) (m : AMap α) (i : Nat) (v : α) (j : Nat) :
    AMap.get d (AMap.put d m i v) j = if j = i then v else AMap.get d m j := by
  simp only [AMap.put]
  split
  · next hv => rw [AMap.get_filter_ne, hv]
  · rw [AMap.get_insert d _ i v (by simp), AMap.get_filter_ne]
    by_cases hj : j = i <;> simp [hj]

@[simp] theorem AMap.get_put_same [DecidableEq α] (d : α) (m : AMap α) (i : Nat) (v : α) :
    AMap.get d (AMap.put d m i v) i = v := by simp [AMap.get_put]

theorem AMap.get_put_other [DecidableEq α] (d : α) (m : AMap α) {i j : Nat} (v : α) (h : j ≠ i) :
    AMap.get d (AMap.put d m i v) j = AMap.get d m j := by simp [AMap.get_put, h]

/-! ## The canonical form -/

theorem AMap.wfFrom_mono [DecidableEq α] (d : α) {a b : Nat} (m : AMap α) (h : b ≤ a) :
    AMap.wfFrom d a m = true → AMap.wfFrom d b m = true := by
  cases m with
  | nil => simp [AMap.wfFrom]
  | cons p m =>
    obtain ⟨k, v⟩ := p
    simp only [AMap.wfFrom, Bool.and_eq_true, decide_eq_true_eq]
    rintro ⟨⟨h1, h2⟩, h3⟩
    exact ⟨⟨Nat.le_trans h h1, h2⟩, h3⟩

/-- Leaving entries out keeps the canonical form. -/
theorem AMap.wfFrom_filter [DecidableEq α] (d : α) (f : Nat × α → Bool) (m : AMap α) (lo : Nat) :
    AMap.wfFrom d lo m = true → AMap.wfFrom d lo (m.filter f) = true := by
  induction m generalizing lo with
  | nil => simp [AMap.wfFrom]
  | cons p m ih =>
    obtain ⟨k, v⟩ := p
    simp only [AMap.wfFrom, Bool.and_eq_true, decide_eq_true_eq]
    rintro ⟨⟨h1, h2⟩, h3⟩
    by_cases hf : f (k, v) = true
    · simp only [List.filter_cons, hf, ↓reduceIte, AMap.wfFrom, Bool.and_eq_true, decide_eq_true_eq]
      exact ⟨⟨h1, h2⟩, ih _ h3⟩
    · simp only [List.filter_cons, hf, Bool.false_eq_true, ↓reduceIte]
      exact AMap.wfFrom_mono d _ (by omega) (ih _ h3)

theorem AMap.wfFrom_insert [DecidableEq α] (d : α) (m : AMap α) (i : Nat) (v : α) (hv : v ≠ d) (h : ∀ p ∈ m, p.1 ≠ i) (lo : Nat)
    (hlo : lo ≤ i) : AMap.wfFrom d lo m = true → AMap.wfFrom d lo (AMap.insert m i v) = true := by
  induction m generalizing lo with
  | nil => simp [AMap.insert, AMap.wfFrom, hv, hlo]
  | cons p m ih =>
    obtain ⟨k, w⟩ := p
    have hk : k ≠ i := h (k, w) (by simp)
    simp only [AMap.wfFrom, Bool.and_eq_true, decide_eq_true_eq, AMap.insert]
    rintro ⟨⟨h1, h2⟩, h3⟩
    split
    · next hik => simp [AMap.wfFrom, hv, hlo, h2, h3]; omega
    · next hik =>
      simp only [AMap.wfFrom, Bool.and_eq_true, decide_eq_true_eq]
      exact ⟨⟨h1, h2⟩, ih (fun p hp => h p (by simp [hp])) _ (by omega) h3⟩

/-- A write keeps the canonical form. -/
theorem AMap.wf_put [DecidableEq α] (d : α) (m : AMap α) (i : Nat) (v : α) (h : AMap.wf d m = true) :
    AMap.wf d (AMap.put d m i v) = true := by
  simp only [AMap.wf, AMap.put] at *
  split
  · exact AMap.wfFrom_filter d _ m 0 h
  · next hv => exact AMap.wfFrom_insert d _ i v hv (by simp) 0 (by omega) (AMap.wfFrom_filter d _ m 0 h)

theorem AMap.wf_filter [DecidableEq α] (d : α) (f : Nat × α → Bool) (m : AMap α) (h : AMap.wf d m = true) :
    AMap.wf d (m.filter f) = true := AMap.wfFrom_filter d f m 0 h

/-! ## Memories -/

/-- A byte read after a byte is stored. -/
theorem Memory.read_write (m : Memory) (a : Nat) (b : Byte) (x : Nat) :
    Memory.read (Memory.write m a b) x = if x = a then b else Memory.read m x := AMap.get_put _ _ _ _ _

/-- Bytes read after bytes are stored: those stored, every other byte as before. -/
theorem Memory.read_writeN (m : Memory) (a : Nat) (bs : Bytes) (x : Nat) :
    Memory.read (Memory.writeN m a bs) x = if a ≤ x ∧ x < a + bs.length then bs.getD (x - a) 0 else Memory.read m x := by
  induction bs generalizing m a with
  | nil => simp only [Memory.writeN, List.length_nil, Nat.add_zero]; rw [if_neg]; omega
  | cons b bs ih =>
    simp only [Memory.writeN, ih, Memory.read_write, List.length_cons]
    by_cases h1 : a + 1 ≤ x ∧ x < a + 1 + bs.length
    · rw [if_pos h1, if_pos (by omega)]
      obtain ⟨k, hk⟩ : ∃ k, x - a = k + 1 := ⟨x - a - 1, by omega⟩
      have : x - (a + 1) = k := by omega
      simp [hk, this]
    · rw [if_neg h1]
      by_cases h2 : x = a
      · subst h2; simp
      · rw [if_neg h2, if_neg (by omega)]

theorem Memory.wf_write (m : Memory) (a : Nat) (b : Byte) (h : Memory.wf m = true) : Memory.wf (Memory.write m a b) = true :=
  AMap.wf_put _ _ _ _ h

theorem Memory.wf_writeN (m : Memory) (a : Nat) (bs : Bytes) (h : Memory.wf m = true) : Memory.wf (Memory.writeN m a bs) = true := by
  induction bs generalizing m a with
  | nil => exact h
  | cons b bs ih => exact ih _ _ (Memory.wf_write m a b h)

theorem Memory.wf_within (m : Memory) (lo hi : Nat) (h : Memory.wf m = true) : Memory.wf (Memory.within m lo hi) = true :=
  AMap.wf_filter _ _ _ h

theorem Memory.wf_without (m : Memory) (lo hi : Nat) (h : Memory.wf m = true) : Memory.wf (Memory.without m lo hi) = true :=
  AMap.wf_filter _ _ _ h

end Sys2Proof.Machine
end

