-- ==== Sys2Proof/Laws/Held.lean ====
section
/-!
SUPPORT. What almost every operation leaves as it is: the queue, the clock, the rails, the always-on domain, bring-up, the
staging window, test access and link recalibration, taken together as `State.held`.
-/
namespace Sys2Proof.Machine
set_option linter.unusedSimpArgs false
set_option linter.unnecessarySeqFocus false
set_option linter.unusedTactic false
set_option linter.unreachableTactic false

/-- The part of the state that only few commands touch. -/
def State.held (s : State) :=
  (s.pending, s.clock, s.rails, s.fuse, s.digest, s.srep, s.trip, s.bup, s.stage, s.test.unlocked, s.recals)

@[simp] theorem State.held_mk (fclock ffree fpending fout frails ffuse fdigest fsrep fsb ftrip fbup flink fmbx fstage fimg fframe fparts ftagErr ftagErrLast fdrbgOk fdrbg fkeys fwindow fwindows fcores ftowers fnbStacks fnbus fregions frings fpfQueSel fpfBadDb fpools fpoolErr fturn ffab ftim fpwr fevc fsnap fflt flamps frecals ftest) : State.held ⟨fclock, ffree, fpending, fout, frails, ffuse, fdigest, fsrep, fsb, ftrip, fbup, flink, fmbx, fstage, fimg, fframe, fparts, ftagErr, ftagErrLast, fdrbgOk, fdrbg, fkeys, fwindow, fwindows, fcores, ftowers, fnbStacks, fnbus, fregions, frings, fpfQueSel, fpfBadDb, fpools, fpoolErr, fturn, ffab, ftim, fpwr, fevc, fsnap, fflt, flamps, frecals, ftest⟩ = (fpending, fclock, frails, ffuse, fdigest, fsrep, ftrip, fbup, fstage, ftest.unlocked, frecals) := rfl

@[simp] theorem State.held_eta (s : State) : (s.pending, s.clock, s.rails, s.fuse, s.digest, s.srep, s.trip, s.bup, s.stage, s.test.unlocked, s.recals) = s.held := rfl

/-- A fold keeps what its steps keep. -/
theorem State.each_held {α : Type} (s : State) (l : List α) (f : State → α → State) (h : ∀ t x, (f t x).held = t.held) :
    (s.each l f).held = s.held := by
  induction l generalizing s with
  | nil => rfl
  | cons x l ih => exact (ih (f s x)).trans (h s x)

theorem foldl_held {α : Type} (s : State) (l : List α) (f : State → α → State) (h : ∀ t x, (f t x).held = t.held) :
    (l.foldl f s).held = s.held := State.each_held s l f h


@[simp] theorem State.setCore_held (s : State) (c : Nat) (x : Core) :
    (State.setCore s c x).held = s.held := by
  unfold State.setCore
  try dsimp only
  (repeat' split) <;> simp [State.each_held, foldl_held, apply_ite State.held]

@[simp] theorem State.setPart_held (s : State) (n : Nat) (x : Part) :
    (State.setPart s n x).held = s.held := by
  unfold State.setPart
  try dsimp only
  (repeat' split) <;> simp [State.each_held, foldl_held, apply_ite State.held]

@[simp] theorem State.setTower_held (s : State) (n : Nat) (x : Tower) :
    (State.setTower s n x).held = s.held := by
  unfold State.setTower
  try dsimp only
  (repeat' split) <;> simp [State.each_held, foldl_held, apply_ite State.held]

@[simp] theorem State.setStack_held (s : State) (k : Nat) (x : Stack) :
    (State.setStack s k x).held = s.held := by
  unfold State.setStack
  try dsimp only
  (repeat' split) <;> simp [State.each_held, foldl_held, apply_ite State.held]

@[simp] theorem State.setNbu_held (s : State) (i : Nat) (x : Nbu) :
    (State.setNbu s i x).held = s.held := by
  unfold State.setNbu
  try dsimp only
  (repeat' split) <;> simp [State.each_held, foldl_held, apply_ite State.held]

@[simp] theorem State.setRegion_held (s : State) (i : Nat) (x : Region) :
    (State.setRegion s i x).held = s.held := by
  unfold State.setRegion
  try dsimp only
  (repeat' split) <;> simp [State.each_held, foldl_held, apply_ite State.held]

@[simp] theorem State.setRing_held (s : State) (r : Nat) (x : Ring) :
    (State.setRing s r x).held = s.held := by
  unfold State.setRing
  try dsimp only
  (repeat' split) <;> simp [State.each_held, foldl_held, apply_ite State.held]

@[simp] theorem State.setPool_held (s : State) (p : Nat) (x : Pool) :
    (State.setPool s p x).held = s.held := by
  unfold State.setPool
  try dsimp only
  (repeat' split) <;> simp [State.each_held, foldl_held, apply_ite State.held]

@[simp] theorem State.setLamp_held (s : State) (n : Nat) (x : Lamp) :
    (State.setLamp s n x).held = s.held := by
  unfold State.setLamp
  try dsimp only
  (repeat' split) <;> simp [State.each_held, foldl_held, apply_ite State.held]

@[simp] theorem State.setKey_held (s : State) (k : Nat) (x : KeySlot) :
    (State.setKey s k x).held = s.held := by
  unfold State.setKey
  try dsimp only
  (repeat' split) <;> simp [State.each_held, foldl_held, apply_ite State.held]

@[simp] theorem State.setPort_held (s : State) (p : Nat) (x : Port) :
    (State.setPort s p x).held = s.held := by
  unfold State.setPort
  try dsimp only
  (repeat' split) <;> simp [State.each_held, foldl_held, apply_ite State.held]

@[simp] theorem State.modCore_held (s : State) (c : Nat) (f : Core → Core) :
    (State.modCore s c f).held = s.held := by
  unfold State.modCore
  try dsimp only
  (repeat' split) <;> simp [State.each_held, foldl_held, apply_ite State.held]

@[simp] theorem State.modPart_held (s : State) (n : Nat) (f : Part → Part) :
    (State.modPart s n f).held = s.held := by
  unfold State.modPart
  try dsimp only
  (repeat' split) <;> simp [State.each_held, foldl_held, apply_ite State.held]

@[simp] theorem State.modTower_held (s : State) (n : Nat) (f : Tower → Tower) :
    (State.modTower s n f).held = s.held := by
  unfold State.modTower
  try dsimp only
  (repeat' split) <;> simp [State.each_held, foldl_held, apply_ite State.held]

@[simp] theorem State.modStack_held (s : State) (k : Nat) (f : Stack → Stack) :
    (State.modStack s k f).held = s.held := by
  unfold State.modStack
  try dsimp only
  (repeat' split) <;> simp [State.each_held, foldl_held, apply_ite State.held]

@[simp] theorem State.modNbu_held (s : State) (i : Nat) (f : Nbu → Nbu) :
    (State.modNbu s i f).held = s.held := by
  unfold State.modNbu
  try dsimp only
  (repeat' split) <;> simp [State.each_held, foldl_held, apply_ite State.held]

@[simp] theorem State.modRegion_held (s : State) (i : Nat) (f : Region → Region) :
    (State.modRegion s i f).held = s.held := by
  unfold State.modRegion
  try dsimp only
  (repeat' split) <;> simp [State.each_held, foldl_held, apply_ite State.held]

@[simp] theorem State.modRing_held (s : State) (r : Nat) (f : Ring → Ring) :
    (State.modRing s r f).held = s.held := by
  unfold State.modRing
  try dsimp only
  (repeat' split) <;> simp [State.each_held, foldl_held, apply_ite State.held]

@[simp] theorem State.modPool_held (s : State) (p : Nat) (f : Pool → Pool) :
    (State.modPool s p f).held = s.held := by
  unfold State.modPool
  try dsimp only
  (repeat' split) <;> simp [State.each_held, foldl_held, apply_ite State.held]

@[simp] theorem State.modPort_held (s : State) (p : Nat) (f : Port → Port) :
    (State.modPort s p f).held = s.held := by
  unfold State.modPort
  try dsimp only
  (repeat' split) <;> simp [State.each_held, foldl_held, apply_ite State.held]

@[simp] theorem State.modRun_held (s : State) (c : Nat) (f : CoreRun → CoreRun) :
    (State.modRun s c f).held = s.held := by
  unfold State.modRun
  try dsimp only
  (repeat' split) <;> simp [State.each_held, foldl_held, apply_ite State.held]

@[simp] theorem State.modArr_held (s : State) (c : Nat) (f : Arr → Arr) :
    (State.modArr s c f).held = s.held := by
  unfold State.modArr
  try dsimp only
  (repeat' split) <;> simp [State.each_held, foldl_held, apply_ite State.held]

@[simp] theorem State.modStr_held (s : State) (c : Nat) (f : Str → Str) :
    (State.modStr s c f).held = s.held := by
  unfold State.modStr
  try dsimp only
  (repeat' split) <;> simp [State.each_held, foldl_held, apply_ite State.held]

@[simp] theorem State.modSfu_held (s : State) (c : Nat) (f : SfuRun → SfuRun) :
    (State.modSfu s c f).held = s.held := by
  unfold State.modSfu
  try dsimp only
  (repeat' split) <;> simp [State.each_held, foldl_held, apply_ite State.held]

@[simp] theorem State.drawn_held (s : State) :
    (State.drawn s).held = s.held := by
  unfold State.drawn
  try dsimp only
  (repeat' split) <;> simp [State.each_held, foldl_held, apply_ite State.held]

@[simp] theorem State.signal_held (s : State) (fn vec : Nat) :
    (State.signal s fn vec).held = s.held := by
  unfold State.signal
  try dsimp only
  (repeat' split) <;> simp [State.each_held, foldl_held, apply_ite State.held]

@[simp] theorem State.fabEvent_held (s : State) (b : Nat) :
    (State.fabEvent s b).held = s.held := by
  unfold State.fabEvent
  try dsimp only
  (repeat' split) <;> simp [State.each_held, foldl_held, apply_ite State.held]

@[simp] theorem State.timEvent_held (s : State) (b : Nat) :
    (State.timEvent s b).held = s.held := by
  unfold State.timEvent
  try dsimp only
  (repeat' split) <;> simp [State.each_held, foldl_held, apply_ite State.held]

@[simp] theorem State.thmEvent_held (s : State) (b : Nat) :
    (State.thmEvent s b).held = s.held := by
  unfold State.thmEvent
  try dsimp only
  (repeat' split) <;> simp [State.each_held, foldl_held, apply_ite State.held]

@[simp] theorem State.reads_held (s : State) (bs : Bytes) :
    (State.reads s bs).held = s.held := by
  unfold State.reads
  try dsimp only
  (repeat' split) <;> simp [State.each_held, foldl_held, apply_ite State.held]

@[simp] theorem State.readsWord_held (s : State) (w : W32) :
    (State.readsWord s w).held = s.held := by
  unfold State.readsWord
  try dsimp only
  (repeat' split) <;> simp [State.each_held, foldl_held, apply_ite State.held]

@[simp] theorem State.alert_held (s : State) (a : AlertCause) :
    (State.alert s a).held = s.held := by
  unfold State.alert
  try dsimp only
  (repeat' split) <;> simp [State.each_held, foldl_held, apply_ite State.held]

@[simp] theorem State.report_held (s : State) (r : FltRec) :
    (State.report s r).held = s.held := by
  unfold State.report
  try dsimp only
  (repeat' split) <;> simp [State.each_held, foldl_held, apply_ite State.held]

@[simp] theorem State.reportAll_held (s : State) (rs : List FltRec) :
    (State.reportAll s rs).held = s.held := by
  unfold State.reportAll
  try dsimp only
  (repeat' split) <;> simp [State.each_held, foldl_held, apply_ite State.held]

@[simp] theorem State.countCore_held (s : State) (c src n : Nat) :
    (State.countCore s c src n).held = s.held := by
  unfold State.countCore
  try dsimp only
  (repeat' split) <;> simp [State.each_held, foldl_held, apply_ite State.held]

@[simp] theorem State.countTower_held (s : State) (w src n : Nat) (tag : Option Nat) :
    (State.countTower s w src n tag).held = s.held := by
  unfold State.countTower
  try dsimp only
  (repeat' split) <;> simp [State.each_held, foldl_held, apply_ite State.held]

@[simp] theorem State.countHub_held (s : State) (src n : Nat) (tag : Option Nat) :
    (State.countHub s src n tag).held = s.held := by
  unfold State.countHub
  try dsimp only
  (repeat' split) <;> simp [State.each_held, foldl_held, apply_ite State.held]

@[simp] theorem State.noteUse_held (s : State) (c : Nat) (ds : List Nat) :
    (State.noteUse s c ds).held = s.held := by
  unfold State.noteUse
  try dsimp only
  (repeat' split) <;> simp [State.each_held, foldl_held, apply_ite State.held]

@[simp] theorem State.unreached_held (s : State) (n : Nat) :
    (State.unreached s n).held = s.held := by
  unfold State.unreached
  try dsimp only
  (repeat' split) <;> simp [State.each_held, foldl_held, apply_ite State.held]

@[simp] theorem State.pcieIn_held (s : State) (n len : Nat) :
    (State.pcieIn s n len).held = s.held := by
  unfold State.pcieIn
  try dsimp only
  (repeat' split) <;> simp [State.each_held, foldl_held, apply_ite State.held]

@[simp] theorem State.pcieOut_held (s : State) (n len : Nat) :
    (State.pcieOut s n len).held = s.held := by
  unfold State.pcieOut
  try dsimp only
  (repeat' split) <;> simp [State.each_held, foldl_held, apply_ite State.held]

@[simp] theorem State.dmaWrite_held (s : State) (n a : Nat) (bs : Bytes) :
    (State.dmaWrite s n a bs).held = s.held := by
  unfold State.dmaWrite
  try dsimp only
  (repeat' split) <;> simp [State.each_held, foldl_held, apply_ite State.held]

@[simp] theorem State.setBand_held (s : State) (b : Nat) (z : BandOf) :
    (State.setBand s b z).held = s.held := by
  unfold State.setBand
  try dsimp only
  (repeat' split) <;> simp [State.each_held, foldl_held, apply_ite State.held]

@[simp] theorem State.raiseBand_held (s : State) (b : BandOf) :
    (State.raiseBand s b).held = s.held := by
  unfold State.raiseBand
  try dsimp only
  (repeat' split) <;> simp [State.each_held, foldl_held, apply_ite State.held]

@[simp] theorem State.emit_held (s : State) (p : Nat) (frame : Bytes) :
    (State.emit s p frame).held = s.held := by
  unfold State.emit
  try dsimp only
  (repeat' split) <;> simp [State.each_held, foldl_held, apply_ite State.held]

@[simp] theorem State.sendOn_held (s : State) (p : Nat) (h : Bft) (count : Nat) :
    (State.sendOn s p h count).held = s.held := by
  unfold State.sendOn
  try dsimp only
  (repeat' split) <;> simp [State.each_held, foldl_held, apply_ite State.held]

@[simp] theorem State.sendRouted_held (s : State) (h : Bft) :
    (State.sendRouted s h).held = s.held := by
  unfold State.sendRouted
  try dsimp only
  (repeat' split) <;> simp [State.each_held, foldl_held, apply_ite State.held]

@[simp] theorem State.sendOwn_held (s : State) (port : Option Nat) (h : Bft) :
    (State.sendOwn s port h).held = s.held := by
  unfold State.sendOwn
  try dsimp only
  (repeat' split) <;> simp [State.each_held, foldl_held, apply_ite State.held]

@[simp] theorem State.sendStream_held (s : State) (dst type spanId stream part cls : Nat) (port : Option Nat) (payload : Bytes) :
    (State.sendStream s dst type spanId stream part cls port payload).held = s.held := by
  unfold State.sendStream
  try dsimp only
  (repeat' split) <;> simp [State.each_held, foldl_held, apply_ite State.held]

@[simp] theorem State.dropStreams_held (s : State) (peer type spanId : Nat) (streams : List Nat) :
    (State.dropStreams s peer type spanId streams).held = s.held := by
  unfold State.dropStreams
  try dsimp only
  (repeat' split) <;> simp [State.each_held, foldl_held, apply_ite State.held]

@[simp] theorem State.dropSpanStreams_held (s : State) (spanId : Nat) :
    (State.dropSpanStreams s spanId).held = s.held := by
  unfold State.dropSpanStreams
  try dsimp only
  (repeat' split) <;> simp [State.each_held, foldl_held, apply_ite State.held]

@[simp] theorem State.dropAcked_held (s : State) (dst type spanId stream ack : Nat) :
    (State.dropAcked s dst type spanId stream ack).held = s.held := by
  unfold State.dropAcked
  try dsimp only
  (repeat' split) <;> simp [State.each_held, foldl_held, apply_ite State.held]

@[simp] theorem State.sendAck_held (s : State) (dst spanId ack : Nat) :
    (State.sendAck s dst spanId ack).held = s.held := by
  unfold State.sendAck
  try dsimp only
  (repeat' split) <;> simp [State.each_held, foldl_held, apply_ite State.held]

@[simp] theorem State.sendSpan_held (s : State) (n dst : Nat) (op : SpanOp) :
    (State.sendSpan s n dst op).held = s.held := by
  unfold State.sendSpan
  try dsimp only
  (repeat' split) <;> simp [State.each_held, foldl_held, apply_ite State.held]

@[simp] theorem State.sendRmaPlain_held (s : State) (n dst partTo mine theirs op seq cls : Nat) (x : RmaPkt) :
    (State.sendRmaPlain s n dst partTo mine theirs op seq cls x).held = s.held := by
  unfold State.sendRmaPlain
  try dsimp only
  (repeat' split) <;> simp [State.each_held, foldl_held, apply_ite State.held]

@[simp] theorem State.putRecord_held (s : State) (n r len : Nat) (mk : Bool → Bytes) :
    (State.putRecord s n r len mk).held = s.held := by
  unfold State.putRecord
  try dsimp only
  (repeat' split) <;> simp [State.each_held, foldl_held, apply_ite State.held]

@[simp] theorem writeComps_held (n : Nat) (l : List Comp) (b : List Nat) (s : State) :
    (writeComps n l b s).1.held = s.held := by
  induction l generalizing b s with
  | nil => rfl
  | cons c l ih =>
    unfold writeComps
    split
    · rw [ih]; simp
    · exact ih _ _

@[simp] theorem writeEvents_held (n : Nat) (l : List Evt) (b : List Nat) (s : State) :
    (writeEvents n l b s).1.held = s.held := by
  induction l generalizing b s with
  | nil => rfl
  | cons c l ih =>
    unfold writeEvents
    split
    · rw [ih]; simp
    · exact ih _ _

@[simp] theorem State.flush_held (s : State) (n : Nat) :
    (State.flush s n).held = s.held := by
  unfold State.flush
  dsimp only
  rw [State.modPart_held, writeEvents_held, State.modPart_held, writeComps_held]

@[simp] theorem State.complete_held (s : State) (n : Nat) (c : Comp) :
    (State.complete s n c).held = s.held := by
  unfold State.complete
  try dsimp only
  (repeat' split) <;> simp [State.each_held, foldl_held, apply_ite State.held]

@[simp] theorem State.event_held (s : State) (n : Nat) (e : Evt) :
    (State.event s n e).held = s.held := by
  unfold State.event
  try dsimp only
  (repeat' split) <;> simp [State.each_held, foldl_held, apply_ite State.held]

@[simp] theorem State.setEp_held (s : State) (c e : Nat) (x : Ep) :
    (State.setEp s c e x).held = s.held := by
  unfold State.setEp
  try dsimp only
  (repeat' split) <;> simp [State.each_held, foldl_held, apply_ite State.held]

@[simp] theorem State.modLaunch_held (s : State) (n id : Nat) (f : Launch → Launch) :
    (State.modLaunch s n id f).held = s.held := by
  unfold State.modLaunch
  try dsimp only
  (repeat' split) <;> simp [State.each_held, foldl_held, apply_ite State.held]

@[simp] theorem State.coreEnds_held (s : State) (n c id outcome : Nat) (run : CoreRun) :
    (State.coreEnds s n c id outcome run).held = s.held := by
  unfold State.coreEnds
  try dsimp only
  (repeat' split) <;> simp [State.each_held, foldl_held, apply_ite State.held]

@[simp] theorem State.unsent_held (s : State) (c : Nat) :
    (State.unsent s c).held = s.held := by
  unfold State.unsent
  try dsimp only
  (repeat' split) <;> simp [State.each_held, foldl_held, apply_ite State.held]

@[simp] theorem State.abortCore_held (s : State) (n id last c : Nat) :
    (State.abortCore s n id last c).held = s.held := by
  unfold State.abortCore
  try dsimp only
  (repeat' split) <;> simp [State.each_held, foldl_held, apply_ite State.held]

@[simp] theorem State.abortLaunch_held (s : State) (n id last : Nat) :
    (State.abortLaunch s n id last).held = s.held := by
  unfold State.abortLaunch
  try dsimp only
  (repeat' split) <;> simp [State.each_held, foldl_held, apply_ite State.held]

@[simp] theorem State.fault_held (s : State) (c : Nat) (precise : Bool) (cause detail pc : Nat) (addr : W64) :
    (State.fault s c precise cause detail pc addr).held = s.held := by
  unfold State.fault
  try dsimp only
  (repeat' split) <;> simp [State.each_held, foldl_held, apply_ite State.held]

@[simp] theorem State.precise_held (s : State) (c cause detail : Nat) (addr : W64) :
    (State.precise s c cause detail addr).held = s.held := by
  unfold State.precise
  try dsimp only
  (repeat' split) <;> simp [State.each_held, foldl_held, apply_ite State.held]

@[simp] theorem State.imprecise_held (s : State) (c cause detail : Nat) (addr : W64) :
    (State.imprecise s c cause detail addr).held = s.held := by
  unfold State.imprecise
  try dsimp only
  (repeat' split) <;> simp [State.each_held, foldl_held, apply_ite State.held]

@[simp] theorem State.channelFault_held (s : State) (c e st : Nat) :
    (State.channelFault s c e st).held = s.held := by
  unfold State.channelFault
  try dsimp only
  (repeat' split) <;> simp [State.each_held, foldl_held, apply_ite State.held]

@[simp] theorem State.applyItem_held (s : State) (c e : Nat) (x : Item) :
    (State.applyItem s c e x).held = s.held := by
  unfold State.applyItem
  try dsimp only
  (repeat' split) <;> simp [State.each_held, foldl_held, apply_ite State.held]

@[simp] theorem State.receiveItem_held (s : State) (c e : Nat) (x : Item) :
    (State.receiveItem s c e x).held = s.held := by
  unfold State.receiveItem
  try dsimp only
  (repeat' split) <;> simp [State.each_held, foldl_held, apply_ite State.held]

@[simp] theorem State.resetEp_held (s : State) (c : Nat) (epoch : BitVec 16) (e : Nat) :
    (State.resetEp s c epoch e).held = s.held := by
  unfold State.resetEp
  try dsimp only
  (repeat' split) <;> simp [State.each_held, foldl_held, apply_ite State.held]

@[simp] theorem State.beginCore_held (s : State) (n c : Nat) (l : Launch) :
    (State.beginCore s n c l).held = s.held := by
  unfold State.beginCore
  try dsimp only
  (repeat' split) <;> simp [State.each_held, foldl_held, apply_ite State.held]

@[simp] theorem State.watchLate_held (s : State) :
    (State.watchLate s).held = s.held := by
  unfold State.watchLate
  try dsimp only
  (repeat' split) <;> simp [State.each_held, foldl_held, apply_ite State.held]

@[simp] theorem State.countLate_held (s : State) (n g ns : Nat) (causes : BitVec 6) :
    (State.countLate s n g ns causes).held = s.held := by
  unfold State.countLate
  try dsimp only
  (repeat' split) <;> simp [State.each_held, foldl_held, apply_ite State.held]

@[simp] theorem State.endLaunch_held (s : State) (n : Nat) (l : Launch) (status detail : Nat) :
    (State.endLaunch s n l status detail).held = s.held := by
  unfold State.endLaunch
  try dsimp only
  (repeat' split) <;> simp [State.each_held, foldl_held, apply_ite State.held]

@[simp] theorem State.setReg_held (s : State) (c r : Nat) (v : W64) :
    (State.setReg s c r v).held = s.held := by
  unfold State.setReg
  try dsimp only
  (repeat' split) <;> simp [State.each_held, foldl_held, apply_ite State.held]

@[simp] theorem State.setVreg_held (s : State) (c r : Nat) (v : V1024) :
    (State.setVreg s c r v).held = s.held := by
  unfold State.setVreg
  try dsimp only
  (repeat' split) <;> simp [State.each_held, foldl_held, apply_ite State.held]

@[simp] theorem State.setPc_held (s : State) (c pc : Nat) :
    (State.setPc s c pc).held = s.held := by
  unfold State.setPc
  try dsimp only
  (repeat' split) <;> simp [State.each_held, foldl_held, apply_ite State.held]

@[simp] theorem State.nearStore_held (s : State) (c a : Nat) (bs : Bytes) :
    (State.nearStore s c a bs).held = s.held := by
  unfold State.nearStore
  try dsimp only
  (repeat' split) <;> simp [State.each_held, foldl_held, apply_ite State.held]

@[simp] theorem State.noteNear_held (s : State) (c : Nat) (e : Ecc) :
    (State.noteNear s c e).held = s.held := by
  unfold State.noteNear
  try dsimp only
  (repeat' split) <;> simp [State.each_held, foldl_held, apply_ite State.held]

@[simp] theorem State.endWait_held (s : State) (c : Nat) :
    (State.endWait s c).held = s.held := by
  unfold State.endWait
  try dsimp only
  (repeat' split) <;> simp [State.each_held, foldl_held, apply_ite State.held]

@[simp] theorem State.beginWait_held (s : State) (c : Nat) (w : WaitKind) :
    (State.beginWait s c w).held = s.held := by
  unfold State.beginWait
  try dsimp only
  (repeat' split) <;> simp [State.each_held, foldl_held, apply_ite State.held]

@[simp] theorem State.counted_held (s : State) (i : Issue) :
    (State.counted s i).held = s.held := by
  unfold State.counted
  try dsimp only
  (repeat' split) <;> simp [State.each_held, foldl_held, apply_ite State.held]

@[simp] theorem State.raise_held (s : State) (c : Nat) (f : Flags) :
    (State.raise s c f).held = s.held := by
  unfold State.raise
  try dsimp only
  (repeat' split) <;> simp [State.each_held, foldl_held, apply_ite State.held]

@[simp] theorem State.setFlights_held (s : State) (n ch : Nat) (l : List Flight) :
    (State.setFlights s n ch l).held = s.held := by
  unfold State.setFlights
  try dsimp only
  (repeat' split) <;> simp [State.each_held, foldl_held, apply_ite State.held]

@[simp] theorem State.sendData_held (s : State) (n : Nat) (r : ChanRec) (memberIdx : Nat) (port : Option Nat) (x : Item) :
    (State.sendData s n r memberIdx port x).held = s.held := by
  unfold State.sendData
  try dsimp only
  (repeat' split) <;> simp [State.each_held, foldl_held, apply_ite State.held]

@[simp] theorem State.sendItem_held (s : State) (n : Nat) (r : ChanRec) (x : Item) :
    (State.sendItem s n r x).held = s.held := by
  unfold State.sendItem
  try dsimp only
  (repeat' split) <;> simp [State.each_held, foldl_held, apply_ite State.held]

@[simp] theorem State.send_held (s : State) (c e a len : Nat) :
    (State.send s c e a len).held = s.held := by
  unfold State.send
  try dsimp only
  (repeat' split) <;> simp [State.each_held, foldl_held, apply_ite State.held]

@[simp] theorem State.deliver_held (s : State) (n c e : Nat) (x : Item) :
    (State.deliver s n c e x).held = s.held := by
  unfold State.deliver
  extract_lets p l due s'
  have h : ∀ u, s' = some u → u.held = s.held := by
    intro u hu
    simp only [s'] at hu
    (repeat' split at hu) <;> first | (injection hu with hu; subst hu; simp; done) | cases hu
  cases hs : s' with
  | none => rfl
  | some u => simp [h u hs]

@[simp] theorem State.noteSliceCe_held (s : State) (c a : Nat) :
    (State.noteSliceCe s c a).held = s.held := by
  unfold State.noteSliceCe
  try dsimp only
  (repeat' split) <;> simp [State.each_held, foldl_held, apply_ite State.held]

@[simp] theorem State.noteSliceUe_held (s : State) (c a low : Nat) :
    (State.noteSliceUe s c a low).held = s.held := by
  unfold State.noteSliceUe
  try dsimp only
  (repeat' split) <;> simp [State.each_held, foldl_held, apply_ite State.held]

@[simp] theorem State.markSlice_held (s : State) (c w m : Nat) :
    (State.markSlice s c w m).held = s.held := by
  unfold State.markSlice
  try dsimp only
  (repeat' split) <;> simp [State.each_held, foldl_held, apply_ite State.held]

@[simp] theorem State.noteSliceWord_held (s : State) (c w found : Nat) :
    (State.noteSliceWord s c w found).held = s.held := by
  unfold State.noteSliceWord
  try dsimp only
  (repeat' split) <;> simp [State.each_held, foldl_held, apply_ite State.held]

@[simp] theorem State.sliceReads_held (s : State) (c : Nat) (runs : List (Nat × Nat)) (ups : List (Nat × Ecc)) (violation : Bool) :
    (State.sliceReads s c runs ups violation).2.2.held = s.held := by
  unfold State.sliceReads
  try dsimp only
  (repeat' split) <;> simp [State.each_held, foldl_held, apply_ite State.held]

@[simp] theorem State.sliceRead_held (s : State) (c a len : Nat) (ups : List (Nat × Ecc)) (violation : Bool) :
    (State.sliceRead s c a len ups violation).2.2.held = s.held := by
  unfold State.sliceRead; simp

@[simp] theorem State.sliceWrite_held (s : State) (c : Nat) (runs : List (Nat × Bytes)) (ups : List (Nat × Ecc)) (violation : Bool) :
    (State.sliceWrite s c runs ups violation).2.held = s.held := by
  unfold State.sliceWrite
  try dsimp only
  (repeat' split) <;> simp [State.each_held, foldl_held, apply_ite State.held]

@[simp] theorem State.sliceFault_held (s : State) (c : Nat) (f : Option (Nat × Nat)) :
    (State.sliceFault s c f).held = s.held := by
  unfold State.sliceFault
  try dsimp only
  (repeat' split) <;> simp [State.each_held, foldl_held, apply_ite State.held]

@[simp] theorem State.refreshLayer_held (s : State) (c : Nat) (layer : Fin 4) (n : Nat) :
    (State.refreshLayer s c layer n).held = s.held := by
  unfold State.refreshLayer
  try dsimp only
  (repeat' split) <;> simp [State.each_held, foldl_held, apply_ite State.held]

@[simp] theorem State.refuseTag_held (s : State) (n r core off : Nat) :
    (State.refuseTag s n r core off).held = s.held := by
  unfold State.refuseTag
  try dsimp only
  (repeat' split) <;> simp [State.each_held, foldl_held, apply_ite State.held]

@[simp] theorem State.countStack_held (s : State) (n r off len base : Nat) :
    (State.countStack s n r off len base).held = s.held := by
  unfold State.countStack
  try dsimp only
  (repeat' split) <;> simp [State.each_held, foldl_held, apply_ite State.held]

@[simp] theorem State.farDrop_held (s : State) (r lo hi : Nat) :
    (State.farDrop s r lo hi).held = s.held := by
  unfold State.farDrop
  try dsimp only
  (repeat' split) <;> simp [State.each_held, foldl_held, apply_ite State.held]

@[simp] theorem State.farDropRegion_held (s : State) (r : Nat) :
    (State.farDropRegion s r).held = s.held := by
  unfold State.farDropRegion
  try dsimp only
  (repeat' split) <;> simp [State.each_held, foldl_held, apply_ite State.held]

@[simp] theorem State.regionStore_held (s : State) (n r off : Nat) (bs : Bytes) :
    (State.regionStore s n r off bs).held = s.held := by
  unfold State.regionStore
  try dsimp only
  (repeat' split) <;> simp [State.each_held, foldl_held, apply_ite State.held]

@[simp] theorem State.noteWord_held (s : State) (r w : Nat) (e : Ecc) :
    (State.noteWord s r w e).held = s.held := by
  unfold State.noteWord
  try dsimp only
  (repeat' split) <;> simp [State.each_held, foldl_held, apply_ite State.held]

@[simp] theorem State.noteWords_held (s : State) (r : Nat) (upsets : List (Nat × Ecc)) (ws : List Nat) :
    (State.noteWords s r upsets ws).held = s.held := by
  unfold State.noteWords
  try dsimp only
  (repeat' split) <;> simp [State.each_held, foldl_held, apply_ite State.held]

@[simp] theorem State.regionLoad_held (s : State) (n r off len : Nat) (upsets : List (Nat × Ecc)) :
    (State.regionLoad s n r off len upsets).2.2.held = s.held := by
  unfold State.regionLoad
  try dsimp only
  (repeat' split) <;> simp [State.each_held, foldl_held, apply_ite State.held]

@[simp] theorem State.farHit_held (s : State) (w n : Nat) :
    (State.farHit s w n).held = s.held := by
  unfold State.farHit
  try dsimp only
  (repeat' split) <;> simp [State.each_held, foldl_held, apply_ite State.held]

@[simp] theorem State.farMiss_held (s : State) (w n : Nat) (line : Option FarLine) :
    (State.farMiss s w n line).held = s.held := by
  unfold State.farMiss
  try dsimp only
  (repeat' split) <;> simp [State.each_held, foldl_held, apply_ite State.held]

@[simp] theorem State.coreLoads_held (s : State) (n r c : Nat) (x : RegionRec) (runs : List (Nat × Nat)) (ups : List (Nat × Ecc)) :
    (State.coreLoads s n r c x runs ups).2.2.held = s.held := by
  unfold State.coreLoads
  try dsimp only
  (repeat' split) <;> simp [State.each_held, foldl_held, apply_ite State.held]

@[simp] theorem State.refusedRead_held (s : State) (n r core off len : Nat) :
    (State.refusedRead s n r core off len).2.held = s.held := by
  unfold State.refusedRead
  try dsimp only
  (repeat' split) <;> simp [State.each_held, foldl_held, apply_ite State.held]

@[simp] theorem State.regionRead_held (s : State) (n r off len : Nat) (ups : List (Nat × Ecc)) :
    (State.regionRead s n r off len ups).2.2.2.held = s.held := by
  unfold State.regionRead
  try dsimp only
  (repeat' split) <;> simp [State.each_held, foldl_held, apply_ite State.held]

@[simp] theorem State.coreReads_held (s : State) (n r c : Nat) (runs : List (Nat × Nat)) (ups : List (Nat × Ecc)) :
    (State.coreReads s n r c runs ups).2.2.2.held = s.held := by
  unfold State.coreReads
  try dsimp only
  (repeat' split) <;> simp [State.each_held, foldl_held, apply_ite State.held]

@[simp] theorem State.regionWrite_held (s : State) (n r off core : Nat) (bs : Bytes) :
    (State.regionWrite s n r off core bs).held = s.held := by
  unfold State.regionWrite
  try dsimp only
  (repeat' split) <;> simp [State.each_held, foldl_held, apply_ite State.held]

@[simp] theorem State.coreWrites_held (s : State) (n r off c : Nat) (bs : Bytes) :
    (State.coreWrites s n r off c bs).held = s.held := by
  unfold State.coreWrites
  try dsimp only
  (repeat' split) <;> simp [State.each_held, foldl_held, apply_ite State.held]

@[simp] theorem State.setStackOwed_held (s : State) (k pc n : Nat) :
    (State.setStackOwed s k pc n).held = s.held := by
  unfold State.setStackOwed
  try dsimp only
  (repeat' split) <;> simp [State.each_held, foldl_held, apply_ite State.held]

@[simp] theorem State.refreshChan_held (s : State) (k : StackId) (pc : Nat) :
    (State.refreshChan s k pc).held = s.held := by
  unfold State.refreshChan
  try dsimp only
  (repeat' split) <;> simp [State.each_held, foldl_held, apply_ite State.held]

theorem State.nbuPush_held {s t : State} {k p r c : Nat} {b : Bytes} (h : s.nbuPush k p r c b = some t) : t.held = s.held := by
  unfold State.nbuPush at h
  dsimp only at h
  split at h
  · injection h with h; subst h; rfl
  · split at h
    · injection h with h; subst h; simp
    · split at h
      · cases h
      · injection h with h; subst h; simp

@[simp] theorem State.nbuResults_held (s : State) (k p r c entries : Nat) :
    (State.nbuResults s k p r c entries).2.2.held = s.held := by
  unfold State.nbuResults
  try dsimp only
  (repeat' split) <;> simp [State.each_held, foldl_held, apply_ite State.held]

@[simp] theorem State.bankReads_held (s : State) (n k p : Nat) (r : RegionRec) (ups : List (Nat × Ecc)) (l : List Nat) :
    (s.bankReads n k p r ups l).2.2.held = s.held := by
  induction l generalizing s with
  | nil => rfl
  | cons x l ih =>
    unfold State.bankReads
    dsimp only
    (repeat' split) <;> simp [ih]

@[simp] theorem State.bankSteps_held (s : State) (n k p : Nat) (r : RegionRec) (ups : List (Nat × Ecc)) (l : List (List Nat)) :
    (s.bankSteps n k p r ups l).2.2.held = s.held := by
  induction l generalizing s with
  | nil => rfl
  | cons x l ih =>
    unfold State.bankSteps
    dsimp only
    (repeat' split) <;> simp [ih]

@[simp] theorem State.nbuStep_held (s : State) (k p op : Nat) (ups : List (Nat × Ecc)) :
    (State.nbuStep s k p op ups).held = s.held := by
  unfold State.nbuStep
  try dsimp only
  (repeat' split) <;> simp [State.each_held, foldl_held, apply_ite State.held]

@[simp] theorem State.writeLine_held (s : State) (c : Nat) (x : InletSt) (l line : Nat) :
    (State.writeLine s c x l line).held = s.held := by
  unfold State.writeLine
  try dsimp only
  (repeat' split) <;> simp [State.each_held, foldl_held, apply_ite State.held]

@[simp] theorem State.setInlet_held (s : State) (c : Nat) (n : Inlet) (x : InletSt) :
    (State.setInlet s c n x).held = s.held := by
  unfold State.setInlet
  try dsimp only
  (repeat' split) <;> simp [State.each_held, foldl_held, apply_ite State.held]

@[simp] theorem State.resetInlet_held (s : State) (c : Nat) (n : Inlet) :
    (State.resetInlet s c n).held = s.held := by
  unfold State.resetInlet
  try dsimp only
  (repeat' split) <;> simp [State.each_held, foldl_held, apply_ite State.held]

@[simp] theorem State.ask_held (s : State) (c : Nat) (n : Inlet) :
    (State.ask s c n).held = s.held := by
  unfold State.ask
  try dsimp only
  (repeat' split) <;> simp [State.each_held, foldl_held, apply_ite State.held]

@[simp] theorem State.askBoth_held (s : State) (c : Nat) :
    (State.askBoth s c).held = s.held := by
  unfold State.askBoth
  try dsimp only
  (repeat' split) <;> simp [State.each_held, foldl_held, apply_ite State.held]

@[simp] theorem State.vecResult_held (s : State) (i : Issue) (f : Nat) (l : List (Nat × Flags)) :
    (State.vecResult s i f l).held = s.held := by
  unfold State.vecResult
  try dsimp only
  (repeat' split) <;> simp [State.each_held, foldl_held, apply_ite State.held]

@[simp] theorem State.sfuFault_held (s : State) (c unit reason : Nat) :
    (State.sfuFault s c unit reason).held = s.held := by
  unfold State.sfuFault
  try dsimp only
  (repeat' split) <;> simp [State.each_held, foldl_held, apply_ite State.held]

@[simp] theorem State.sfuPush_held (s : State) (c : Nat) (o : SfuOp) :
    (State.sfuPush s c o).held = s.held := by
  unfold State.sfuPush
  try dsimp only
  (repeat' split) <;> simp [State.each_held, foldl_held, apply_ite State.held]

@[simp] theorem State.sfuEnd_held (s : State) (c : Nat) (o : SfuOp) :
    (State.sfuEnd s c o).held = s.held := by
  unfold State.sfuEnd
  try dsimp only
  (repeat' split) <;> simp [State.each_held, foldl_held, apply_ite State.held]

@[simp] theorem State.loadTable_held (s : State) (c t a : Nat) :
    (State.loadTable s c t a).held = s.held := by
  unfold State.loadTable
  try dsimp only
  (repeat' split) <;> simp [State.each_held, foldl_held, apply_ite State.held]

theorem State.rowStat_held {s t : State} {c i : Nat} {r : Rstat} {row x : List Nat} (h : s.rowStat c r i row = some (x, t)) :
    t.held = s.held := by
  unfold State.rowStat at h
  dsimp only at h
  split at h
  · split at h
    · cases h
    · injection h with h; injection h with _ h; subst h; simp
  · injection h with h; injection h with _ h; subst h; simp

@[simp] theorem State.arrPush_held (s : State) (c : Nat) (o : ArrOp) :
    (State.arrPush s c o).held = s.held := by
  unfold State.arrPush
  try dsimp only
  (repeat' split) <;> simp [State.each_held, foldl_held, apply_ite State.held]

@[simp] theorem State.arrFault_held (s : State) (c detail : Nat) :
    (State.arrFault s c detail).held = s.held := by
  unfold State.arrFault
  try dsimp only
  (repeat' split) <;> simp [State.each_held, foldl_held, apply_ite State.held]

@[simp] theorem State.startOut_held (s : State) (c : Nat) (o : ArrOp) :
    (State.startOut s c o).held = s.held := by
  unfold State.startOut
  try dsimp only
  (repeat' split) <;> simp [State.each_held, foldl_held, apply_ite State.held]

@[simp] theorem State.arrTake_held (s : State) (c : Nat) (o : ArrOp) :
    (State.arrTake s c o).held = s.held := by
  unfold State.arrTake
  try dsimp only
  (repeat' split) <;> simp [State.each_held, foldl_held, apply_ite State.held]

@[simp] theorem State.commitPass_held (s : State) (c : Nat) (short : Bool) (real : Nat) :
    (State.commitPass s c short real).held = s.held := by
  unfold State.commitPass
  try dsimp only
  (repeat' split) <;> simp [State.each_held, foldl_held, apply_ite State.held]

@[simp] theorem State.endStrip_held (s : State) (c : Nat) (g : ArrCfg) :
    (State.endStrip s c g).held = s.held := by
  unfold State.endStrip
  try dsimp only
  (repeat' split) <;> simp [State.each_held, foldl_held, apply_ite State.held]

@[simp] theorem State.writeRow_held (s : State) (c addr size i : Nat) (row : List (Nat × Flags)) :
    (State.writeRow s c addr size i row).held = s.held := by
  unfold State.writeRow
  try dsimp only
  (repeat' split) <;> simp [State.each_held, foldl_held, apply_ite State.held]

@[simp] theorem State.writeRows_held (c a f z : Nat) (rs : Option Rstat) (src k i : Nat) (s : State) :
    (State.writeRows c a f z rs src k i s).held = s.held := by
  induction k generalizing i s with
  | zero => rfl
  | succ k ih =>
    unfold State.writeRows
    dsimp only
    split
    · rw [ih]; simp
    · split
      · simp
      · rename_i h
        rw [ih]; simp [State.rowStat_held h]

@[simp] theorem State.sqPush_held (s : State) (c : Nat) (ws : List W64) :
    (State.sqPush s c ws).held = s.held := by
  unfold State.sqPush
  try dsimp only
  (repeat' split) <;> simp [State.each_held, foldl_held, apply_ite State.held]

@[simp] theorem State.poisonEnd_held (s : State) (c : Nat) (n : Option Inlet) :
    (State.poisonEnd s c n).held = s.held := by
  unfold State.poisonEnd
  try dsimp only
  (repeat' split) <;> simp [State.each_held, foldl_held, apply_ite State.held]

@[simp] theorem State.strFault_held (s : State) (c pos : Nat) (n : Option Inlet) (reason : Nat) :
    (State.strFault s c pos n reason).held = s.held := by
  unfold State.strFault
  try dsimp only
  (repeat' split) <;> simp [State.each_held, foldl_held, apply_ite State.held]

@[simp] theorem State.srcFault_held (s : State) (c pos : Nat) (n : Option Inlet) (f : SrcFault) :
    (s.srcFault c pos n f).held = s.held := by
  cases f <;> simp [State.srcFault]

@[simp] theorem State.startDesc_held (s : State) (c l pos : Nat) (ws : List W64) :
    (State.startDesc s c l pos ws).held = s.held := by
  unfold State.startDesc
  try dsimp only
  (repeat' split) <;> simp [State.each_held, foldl_held, apply_ite State.held]

@[simp] theorem State.srcBytes_held (s : State) (c : Nat) (d : Desc) (e : Checks) (runs : List (Nat × Nat)) :
    (State.srcBytes s c d e runs).2.2.held = s.held := by
  unfold State.srcBytes
  try dsimp only
  (repeat' split) <;> simp [State.each_held, foldl_held, apply_ite State.held]

@[simp] theorem State.srcCodes_held (s : State) (c : Nat) (d : Desc) (e : Checks) (qs : List Codes) (scales : List (Nat × Nat)) :
    (State.srcCodes s c d e qs scales).2.2.2.held = s.held := by
  unfold State.srcCodes
  try dsimp only
  (repeat' split) <;> simp [State.each_held, foldl_held, apply_ite State.held]

@[simp] theorem State.dstWrite_held (s : State) (c : Nat) (d : Desc) (e : Checks) (runs : List (Nat × Bytes)) :
    (State.dstWrite s c d e runs).2.held = s.held := by
  unfold State.dstWrite
  try dsimp only
  (repeat' split) <;> simp [State.each_held, foldl_held, apply_ite State.held]

@[simp] theorem State.wrote_held (s : State) (c n : Nat) :
    (State.wrote s c n).held = s.held := by
  unfold State.wrote
  try dsimp only
  (repeat' split) <;> simp [State.each_held, foldl_held, apply_ite State.held]

@[simp] theorem State.laneDone_held (s : State) (c l : Nat) (x : Lane) (finished : Bool) :
    (State.laneDone s c l x finished).held = s.held := by
  unfold State.laneDone
  try dsimp only
  (repeat' split) <;> simp [State.each_held, foldl_held, apply_ite State.held]

@[simp] theorem State.packedBurst_held (s : State) (c l : Nat) (x : Lane) (d : Desc) (e : Checks) :
    (State.packedBurst s c l x d e).held = s.held := by
  unfold State.packedBurst
  try dsimp only
  (repeat' split) <;> simp [State.each_held, foldl_held, apply_ite State.held]

@[simp] theorem State.nbuBurst_held (s : State) (c l : Nat) (x : Lane) (d : Desc) (e : Checks) :
    (State.nbuBurst s c l x d e).held = s.held := by
  unfold State.nbuBurst
  dsimp only
  split
  · simp
  · split
    · rfl
    · rename_i h; simp [State.nbuPush_held h]

@[simp] theorem State.lineBurst_held (s : State) (c l : Nat) (x : Lane) (d : Desc) (n : Inlet) (e : Checks) :
    (State.lineBurst s c l x d n e).held = s.held := by
  unfold State.lineBurst
  try dsimp only
  (repeat' split) <;> simp [State.each_held, foldl_held, apply_ite State.held]

@[simp] theorem State.dropLeftover_held (s : State) (c : Nat) :
    (State.dropLeftover s c).held = s.held := by
  unfold State.dropLeftover
  try dsimp only
  (repeat' split) <;> simp [State.each_held, foldl_held, apply_ite State.held]

@[simp] theorem State.laneFault_held (s : State) (c pos reason : Nat) :
    (State.laneFault s c pos reason).held = s.held := by
  unfold State.laneFault
  try dsimp only
  (repeat' split) <;> simp [State.each_held, foldl_held, apply_ite State.held]

@[simp] theorem State.coreRequest_held (s : State) (c pos : Nat) (r : NbReq) :
    (State.coreRequest s c pos r).held = s.held := by
  unfold State.coreRequest
  try dsimp only
  (repeat' split) <;> simp [State.each_held, foldl_held, apply_ite State.held]

@[simp] theorem State.hubRequest_held (s : State) (n : Nat) (r : NbReq) :
    (State.hubRequest s n r).held = s.held := by
  unfold State.hubRequest
  try dsimp only
  (repeat' split) <;> simp [State.each_held, foldl_held, apply_ite State.held]

@[simp] theorem State.putConditions_held (s : State) (c rd : Nat) :
    (State.putConditions s c rd).held = s.held := by
  unfold State.putConditions
  try dsimp only
  (repeat' split) <;> simp [State.each_held, foldl_held, apply_ite State.held]

@[simp] theorem State.startWait_held (s : State) (c rd : Nat) (units : BitVec 16) (eps : W64) (limit : Option Nat) :
    (State.startWait s c rd units eps limit).held = s.held := by
  unfold State.startWait
  try dsimp only
  (repeat' split) <;> simp [State.each_held, foldl_held, apply_ite State.held]

@[simp] theorem State.enableRing_held (s : State) (r : Nat) (q : Ring) :
    (State.enableRing s r q).held = s.held := by
  unfold State.enableRing
  try dsimp only
  (repeat' split) <;> simp [State.each_held, foldl_held, apply_ite State.held]

@[simp] theorem State.writeQueCfg_held (s : State) (f : Fn) (r : Nat) (v : W32) :
    (State.writeQueCfg s f r v).held = s.held := by
  unfold State.writeQueCfg
  try dsimp only
  (repeat' split) <;> simp [State.each_held, foldl_held, apply_ite State.held]

@[simp] theorem State.stopRings_held (s : State) (n : Nat) :
    (State.stopRings s n).held = s.held := by
  unfold State.stopRings
  try dsimp only
  (repeat' split) <;> simp [State.each_held, foldl_held, apply_ite State.held]

@[simp] theorem State.resetRings_held (s : State) (n : Nat) :
    (State.resetRings s n).held = s.held := by
  unfold State.resetRings
  try dsimp only
  (repeat' split) <;> simp [State.each_held, foldl_held, apply_ite State.held]

@[simp] theorem restartRing_held (x : State × Nat) (r : Nat) : (restartRing x r).1.held = x.1.held := by
  unfold restartRing
  dsimp only
  (repeat' split) <;> simp

/-- The state part of rings restarted one after another. -/
theorem restartRings_fold_held (l : List Nat) (x : State × Nat) : (l.foldl restartRing x).1.held = x.1.held := by
  induction l generalizing x with
  | nil => rfl
  | cons r l ih => exact (ih _).trans (restartRing_held x r)

@[simp] theorem State.restartRings_held (s : State) (n : Nat) :
    (State.restartRings s n).1.held = s.held := restartRings_fold_held _ _

@[simp] theorem State.badDoorbell_held (s : State) (n : Option Nat) :
    (State.badDoorbell s n).held = s.held := by
  unfold State.badDoorbell
  try dsimp only
  (repeat' split) <;> simp [State.each_held, foldl_held, apply_ite State.held]

@[simp] theorem State.doorbell_held (s : State) (f : Fn) (ring kind : Nat) (v : W32) :
    (State.doorbell s f ring kind v).held = s.held := by
  unfold State.doorbell
  try dsimp only
  (repeat' split) <;> simp [State.each_held, foldl_held, apply_ite State.held]

@[simp] theorem State.refuseRecord_held (s : State) (n r : Nat) (q : Ring) (b : Bytes) (status detail : Nat) :
    (State.refuseRecord s n r q b status detail).held = s.held := by
  unfold State.refuseRecord
  try dsimp only
  (repeat' split) <;> simp [State.each_held, foldl_held, apply_ite State.held]

@[simp] theorem State.rejectRecord_held (s : State) (n r : Nat) (q : Ring) (b : Bytes) (status detail : Nat) :
    (State.rejectRecord s n r q b status detail).held = s.held := by
  unfold State.rejectRecord
  try dsimp only
  (repeat' split) <;> simp [State.each_held, foldl_held, apply_ite State.held]

@[simp] theorem State.queueLaunch_held (s : State) (n a : Nat) (i : PartImage) (g : GraphRec) (cring : Nat) (b block : Bytes) :
    (State.queueLaunch s n a i g cring b block).held = s.held := by
  unfold State.queueLaunch
  try dsimp only
  (repeat' split) <;> simp [State.each_held, foldl_held, apply_ite State.held]

@[simp] theorem State.takeRecord_held (s : State) (n r a : Nat) (b : Bytes) (block : Option Bytes) :
    (State.takeRecord s n r a b block).held = s.held := by
  unfold State.takeRecord
  try dsimp only
  (repeat' split) <;> simp [State.each_held, foldl_held, apply_ite State.held]

@[simp] theorem State.beginPending_held (s : State) (n c : Nat) :
    (State.beginPending s n c).held = s.held := by
  unfold State.beginPending
  try dsimp only
  (repeat' split) <;> simp [State.each_held, foldl_held, apply_ite State.held]

@[simp] theorem State.forwardLaunch_held (s : State) (n : Nat) (r : SpanRec) (l : Launch) :
    (State.forwardLaunch s n r l).held = s.held := by
  unfold State.forwardLaunch
  try dsimp only
  (repeat' split) <;> simp [State.each_held, foldl_held, apply_ite State.held]

@[simp] theorem State.startLaunch_held (s : State) (n : Nat) (i : PartImage) (l : Launch) :
    (State.startLaunch s n i l).held = s.held := by
  unfold State.startLaunch
  try dsimp only
  (repeat' split) <;> simp [State.each_held, foldl_held, apply_ite State.held]

@[simp] theorem State.abortMembers_held (s : State) (n : Nat) (l : Launch) :
    (State.abortMembers s n l).held = s.held := by
  unfold State.abortMembers
  try dsimp only
  (repeat' split) <;> simp [State.each_held, foldl_held, apply_ite State.held]

@[simp] theorem State.finishLaunch_held (s : State) (n : Nat) (l : Launch) :
    (State.finishLaunch s n l).held = s.held := by
  unfold State.finishLaunch
  try dsimp only
  (repeat' split) <;> simp [State.each_held, foldl_held, apply_ite State.held]

@[simp] theorem State.setConn_held (s : State) (n c : Nat) (x : Conn) :
    (State.setConn s n c x).held = s.held := by
  unfold State.setConn
  try dsimp only
  (repeat' split) <;> simp [State.each_held, foldl_held, apply_ite State.held]

@[simp] theorem State.modConn_held (s : State) (n c : Nat) (f : Conn → Conn) :
    (State.modConn s n c f).held = s.held := by
  unfold State.modConn
  try dsimp only
  (repeat' split) <;> simp [State.each_held, foldl_held, apply_ite State.held]

@[simp] theorem State.modRma_held (s : State) (n : Nat) (f : Rma → Rma) :
    (State.modRma s n f).held = s.held := by
  unfold State.modRma
  try dsimp only
  (repeat' split) <;> simp [State.each_held, foldl_held, apply_ite State.held]

@[simp] theorem State.sendCredit_held (s : State) (n c : Nat) :
    (State.sendCredit s n c).held = s.held := by
  unfold State.sendCredit
  try dsimp only
  (repeat' split) <;> simp [State.each_held, foldl_held, apply_ite State.held]

@[simp] theorem State.creditIfDue_held (s : State) (n c : Nat) :
    (State.creditIfDue s n c).held = s.held := by
  unfold State.creditIfDue
  try dsimp only
  (repeat' split) <;> simp [State.each_held, foldl_held, apply_ite State.held]

@[simp] theorem State.creditBuf_held (s : State) (n c b : Nat) :
    (State.creditBuf s n c b).held = s.held := by
  unfold State.creditBuf
  try dsimp only
  (repeat' split) <;> simp [State.each_held, foldl_held, apply_ite State.held]

@[simp] theorem State.releaseBufs_held (s : State) (n c : Nat) :
    (State.releaseBufs s n c).held = s.held := by
  unfold State.releaseBufs
  try dsimp only
  (repeat' split) <;> simp [State.each_held, foldl_held, apply_ite State.held]

@[simp] theorem State.grantTo_held (s : State) (p b : Nat) (w : Waiter) :
    (State.grantTo s p b w).held = s.held := by
  unfold State.grantTo
  try dsimp only
  (repeat' split) <;> simp [State.each_held, foldl_held, apply_ite State.held]

@[simp] theorem State.poolReturn_held (s : State) (p b : Nat) :
    (State.poolReturn s p b).held = s.held := by
  unfold State.poolReturn
  try dsimp only
  (repeat' split) <;> simp [State.each_held, foldl_held, apply_ite State.held]

theorem State.poolTakeOne_held {s t : State} {p b : Nat} (h : s.poolTakeOne p = some (b, t)) : t.held = s.held := by
  unfold State.poolTakeOne at h
  dsimp only at h
  split at h
  · cases h
  · injection h with h; injection h with _ h; subst h; simp

@[simp] theorem State.poolAsk_held (s : State) (p n c : Nat) :
    (State.poolAsk s p n c).held = s.held := by
  unfold State.poolAsk
  split
  · rename_i h
    split at h
    · cases h
    · simp [State.poolTakeOne_held h]
  · split <;> simp

@[simp] theorem State.askOwed_held (s : State) (n c : Nat) :
    (State.askOwed s n c).held = s.held := by
  unfold State.askOwed
  try dsimp only
  (repeat' split) <;> simp [State.each_held, foldl_held, apply_ite State.held]

@[simp] theorem State.freePools_held (s : State) (n : Nat) (molt : Bool) :
    (State.freePools s n molt).held = s.held := by
  unfold State.freePools
  apply State.each_held
  intro t x
  dsimp only
  split
  · rw [State.each_held]
    · simp
    · intro t w
      (repeat' split) <;> simp
  · simp

@[simp] theorem State.poolTake_held (s : State) (f : Fn) (p : Nat) :
    (State.poolTake s f p).held = s.held := by
  cases hp : s.poolTakeOne p with
  | some x =>
    obtain ⟨b, t⟩ := x
    unfold State.poolTake
    simp only [hp]
    (repeat' split) <;> simp [State.poolTakeOne_held hp]
  | none =>
    unfold State.poolTake
    simp only [hp]
    (repeat' split) <;> simp

@[simp] theorem State.poolPut_held (s : State) (f : Fn) (p : Nat) (v : W32) :
    (State.poolPut s f p v).held = s.held := by
  unfold State.poolPut
  try dsimp only
  (repeat' split) <;> simp [State.each_held, foldl_held, apply_ite State.held]

@[simp] theorem State.eventOn_held (s : State) (n q : Nat) (e : Evt) :
    (State.eventOn s n q e).held = s.held := by
  unfold State.eventOn
  try dsimp only
  (repeat' split) <;> simp [State.each_held, foldl_held, apply_ite State.held]

@[simp] theorem State.doneEvent_held (s : State) (n c kind : Nat) (serial : W32) (status : Nat) (value : W64) (silent : Bool) :
    (State.doneEvent s n c kind serial status value silent).held = s.held := by
  unfold State.doneEvent
  try dsimp only
  (repeat' split) <;> simp [State.each_held, foldl_held, apply_ite State.held]

@[simp] theorem State.freeConn_held (s : State) (n c : Nat) :
    (State.freeConn s n c).held = s.held := by
  unfold State.freeConn
  try dsimp only
  (repeat' split) <;> simp [State.each_held, foldl_held, apply_ite State.held]

@[simp] theorem State.goneWorks_held (s : State) (n c : Nat) (x : Conn) :
    (State.goneWorks s n c x).held = s.held := by
  unfold State.goneWorks
  try dsimp only
  (repeat' split) <;> simp [State.each_held, foldl_held, apply_ite State.held]

@[simp] theorem State.loseConn_held (s : State) (n c : Nat) :
    (State.loseConn s n c).held = s.held := by
  unfold State.loseConn
  try dsimp only
  (repeat' split) <;> simp [State.each_held, foldl_held, apply_ite State.held]

@[simp] theorem State.closeAll_held (s : State) (n : Nat) (events : Bool) :
    (State.closeAll s n events).held = s.held := by
  unfold State.closeAll
  try dsimp only
  (repeat' split) <;> simp [State.each_held, foldl_held, apply_ite State.held]

@[simp] theorem State.loseAddress_held (s : State) (a : Nat) :
    (State.loseAddress s a).held = s.held := by
  unfold State.loseAddress
  try dsimp only
  (repeat' split) <;> simp [State.each_held, foldl_held, apply_ite State.held]

@[simp] theorem State.sendReq_held (s : State) (n c : Nat) (o : OutPkt) :
    (State.sendReq s n c o).held = s.held := by
  unfold State.sendReq
  try dsimp only
  (repeat' split) <;> simp [State.each_held, foldl_held, apply_ite State.held]

@[simp] theorem State.pump_held (n c k : Nat) (s : State) : (State.pump n c k s).held = s.held := by
  induction k generalizing s with
  | zero => rfl
  | succ k ih =>
    unfold State.pump
    dsimp only
    split
    · rfl
    · split
      · rw [ih]; simp
      · rfl

@[simp] theorem State.closeIfDone_held (s : State) (n c : Nat) :
    (State.closeIfDone s n c).held = s.held := by
  unfold State.closeIfDone
  try dsimp only
  (repeat' split) <;> simp [State.each_held, foldl_held, apply_ite State.held]

@[simp] theorem State.pieceDone_held (s : State) (n c id status : Nat) (value : W64) :
    (State.pieceDone s n c id status value).held = s.held := by
  unfold State.pieceDone
  try dsimp only
  (repeat' split) <;> simp [State.each_held, foldl_held, apply_ite State.held]

@[simp] theorem State.rmaAcked_held (s : State) (n c ack : Nat) :
    (State.rmaAcked s n c ack).held = s.held := by
  unfold State.rmaAcked
  extract_lets x s1 d s2 s3
  have h : s3.held = s.held := by
    refine (State.each_held _ _ _ ?_).trans ?_
    · intro t q; split <;> simp
    · simp [s2, s1]
  split <;> simp [h]

@[simp] theorem State.issueWork_held (s : State) (n c : Nat) (w : Work) (os : List OutPkt) :
    (State.issueWork s n c w os).held = s.held := by
  unfold State.issueWork
  extract_lets x w s
  rw [State.pump_held]; simp [s]

@[simp] theorem State.workSource_held (s : State) (n : Nat) (b source : Bytes) :
    (State.workSource s n b source).2.2.held = s.held := by
  unfold State.workSource
  try dsimp only
  (repeat' split) <;> simp [State.each_held, foldl_held, apply_ite State.held]

@[simp] theorem State.sendConnect_held (s : State) (n c : Nat) :
    (State.sendConnect s n c).held = s.held := by
  unfold State.sendConnect
  try dsimp only
  (repeat' split) <;> simp [State.each_held, foldl_held, apply_ite State.held]

@[simp] theorem State.runWork_held (s : State) (n : Nat) (b source : Bytes) :
    (State.runWork s n b source).held = s.held := by
  unfold State.runWork
  try dsimp only
  (repeat' split) <;> simp [State.each_held, foldl_held, apply_ite State.held]

@[simp] theorem State.takeWork_held (s : State) (n r op : Nat) (b source : Bytes) :
    (State.takeWork s n r op b source).held = s.held := by
  unfold State.takeWork
  try dsimp only
  (repeat' split) <;> simp [State.each_held, foldl_held, apply_ite State.held]

@[simp] theorem State.sendAccept_held (s : State) (n c : Nat) :
    (State.sendAccept s n c).held = s.held := by
  unfold State.sendAccept
  try dsimp only
  (repeat' split) <;> simp [State.each_held, foldl_held, apply_ite State.held]

@[simp] theorem State.inConnect_held (s : State) (x : RmaPkt) :
    (State.inConnect s x).held = s.held := by
  unfold State.inConnect
  dsimp only
  split
  · simp
  · split
    · split
      · rw [State.eventOn_held, State.sendAccept_held, State.modConn_held, foldl_held]
        · simp
        · intro t x
          split
          · rename_i h
            split at h
            · cases h
            · simp [State.poolTakeOne_held h]
          · simp
      · simp
    · simp

theorem State.takeRma_held (s : State) (x : RmaPkt) (f : State → State) (h : ∀ t, (f t).held = t.held) :
    (State.takeRma s x f).held = s.held := by
  unfold State.takeRma
  split
  · rfl
  · exact h s

@[simp] theorem State.inAccept_held (s : State) (x : RmaPkt) :
    (State.inAccept s x).held = s.held := by
  unfold State.inAccept
  try dsimp only
  (repeat' split) <;> simp [State.each_held, foldl_held, apply_ite State.held]

@[simp] theorem State.inRefuse_held (s : State) (x : RmaPkt) :
    (State.inRefuse s x).held = s.held := by
  unfold State.inRefuse
  try dsimp only
  (repeat' split) <;> simp [State.each_held, foldl_held, apply_ite State.held]

@[simp] theorem State.inGone_held (s : State) (x : RmaPkt) :
    (State.inGone s x).held = s.held := by
  unfold State.inGone
  try dsimp only
  (repeat' split) <;> simp [State.each_held, foldl_held, apply_ite State.held]

@[simp] theorem State.inCredit_held (s : State) (x : RmaPkt) :
    (State.inCredit s x).held = s.held := by
  unfold State.inCredit
  dsimp only
  split
  · rw [State.pump_held, State.modConn_held, State.rmaAcked_held, State.countHub_held]
  · rw [State.countHub_held]

@[simp] theorem State.answered_held (s : State) (n c : Nat) (q : SentPkt) (x : RmaPkt) :
    (State.answered s n c q x).held = s.held := by
  unfold State.answered
  try dsimp only
  (repeat' split) <;> simp [State.each_held, foldl_held, apply_ite State.held]

@[simp] theorem State.inResponse_held (s : State) (x : RmaPkt) :
    (State.inResponse s x).held = s.held := by
  unfold State.inResponse
  try dsimp only
  (repeat' split) <;> simp [State.each_held, foldl_held, apply_ite State.held]

@[simp] theorem State.reply_held (s : State) (n c : Nat) (x : RmaPkt) (status : Nat) (value : W64) (data : Bytes) :
    (State.reply s n c x status value data).held = s.held := by
  unfold State.reply
  try dsimp only
  (repeat' split) <;> simp [State.each_held, foldl_held, apply_ite State.held]

@[simp] theorem State.regrant_held (s : State) (n c units : Nat) :
    (State.regrant s n c units).held = s.held := by
  unfold State.regrant
  try dsimp only
  (repeat' split) <;> simp [State.each_held, foldl_held, apply_ite State.held]

@[simp] theorem State.reask_held (s : State) (n c : Nat) :
    (State.reask s n c).held = s.held := by
  unfold State.reask
  try dsimp only
  (repeat' split) <;> simp [State.each_held, foldl_held, apply_ite State.held]

@[simp] theorem State.refuseAccess_held (s : State) (n c : Nat) (x : RmaPkt) :
    (State.refuseAccess s n c x).held = s.held := by
  unfold State.refuseAccess
  try dsimp only
  (repeat' split) <;> simp [State.each_held, foldl_held, apply_ite State.held]

@[simp] theorem State.windowWrite_held (s : State) (n c : Nat) (x : RmaPkt) :
    (State.windowWrite s n c x).1.held = s.held := by
  unfold State.windowWrite
  try dsimp only
  (repeat' split) <;> simp [State.each_held, foldl_held, apply_ite State.held]

@[simp] theorem State.popBuf_held (s : State) (n c : Nat) :
    (State.popBuf s n c).2.held = s.held := by
  unfold State.popBuf
  try dsimp only
  (repeat' split) <;> simp [State.each_held, foldl_held, apply_ite State.held]

@[simp] theorem State.applyFlag_held (s : State) (n c : Nat) (f : HeldFlag) :
    (State.applyFlag s n c f).held = s.held := by
  unfold State.applyFlag
  try dsimp only
  (repeat' split) <;> simp [State.each_held, foldl_held, apply_ite State.held]

@[simp] theorem State.drainFlags_held (n c k : Nat) (s : State) : (State.drainFlags n c k s).held = s.held := by
  induction k generalizing s with
  | zero => rfl
  | succ k ih =>
    unfold State.drainFlags
    dsimp only
    split
    · rfl
    · rw [ih]; simp

@[simp] theorem State.rmaAck_held (s : State) (n c : Nat) :
    (State.rmaAck s n c).held = s.held := by
  unfold State.rmaAck
  try dsimp only
  (repeat' split) <;> simp [State.each_held, foldl_held, apply_ite State.held]

@[simp] theorem State.answerGone_held (s : State) (x : RmaPkt) :
    (State.answerGone s x).held = s.held := by
  unfold State.answerGone
  try dsimp only
  (repeat' split) <;> simp [State.each_held, foldl_held, apply_ite State.held]

theorem State.inWindow_held (s : State) (n c seq : Nat) (apply again : State → Nat → Nat → State)
    (h : ∀ t n c, (apply t n c).held = t.held) (h' : ∀ t n c, (again t n c).held = t.held) :
    (State.inWindow s n c seq apply again).held = s.held := by
  unfold State.inWindow
  dsimp only
  split
  · rfl
  · simp [h']
  · split
    · rw [State.drainFlags_held, h]
      simp
    · rw [State.rmaAck_held, State.drainFlags_held, h]
      simp

theorem State.inbound_held (s : State) (x : RmaPkt) (apply again : State → Nat → Nat → State)
    (h : ∀ t n c, (apply t n c).held = t.held) (h' : ∀ t n c, (again t n c).held = t.held) :
    (s.inbound x apply again).held = s.held := by
  unfold State.inbound
  dsimp only
  split
  · simp
  · split
    · split <;> simp
    · split
      · simp
      · simp [State.inWindow_held _ _ _ _ _ _ h h']

@[simp] theorem noAgain_held (s : State) (a b : Nat) :
    (noAgain s a b).held = s.held := rfl

@[simp] theorem State.inWrite_held (s : State) (x : RmaPkt) : (s.inWrite x).held = s.held :=
  State.inbound_held _ _ _ _ (fun _ _ _ => by simp) (fun _ _ _ => rfl)

@[simp] theorem State.inFlag_held (s : State) (x : RmaPkt) : (s.inFlag x).held = s.held :=
  State.inbound_held _ _ _ _ (fun _ _ _ => by simp) (fun _ _ _ => rfl)

@[simp] theorem State.serveRead_held (s : State) (n c : Nat) (x : RmaPkt) (upsets : List (Nat × Ecc)) :
    (State.serveRead s n c x upsets).held = s.held := by
  unfold State.serveRead
  try dsimp only
  (repeat' split) <;> simp [State.each_held, foldl_held, apply_ite State.held]

@[simp] theorem State.inRead_held (s : State) (x : RmaPkt) (upsets : List (Nat × Ecc)) : (s.inRead x upsets).held = s.held :=
  State.inbound_held _ _ _ _ (fun _ _ _ => by simp) (fun _ _ _ => by simp)

@[simp] theorem State.serveAtomic_held (s : State) (n c : Nat) (x : RmaPkt) (upsets : List (Nat × Ecc)) (f : W64 → Option W64) :
    (State.serveAtomic s n c x upsets f).held = s.held := by
  unfold State.serveAtomic
  try dsimp only
  (repeat' split) <;> simp [State.each_held, foldl_held, apply_ite State.held]

@[simp] theorem State.atomicAgain_held (s : State) (n c : Nat) (x : RmaPkt) :
    (State.atomicAgain s n c x).held = s.held := by
  unfold State.atomicAgain
  try dsimp only
  (repeat' split) <;> simp [State.each_held, foldl_held, apply_ite State.held]

@[simp] theorem State.inAtomic_held (s : State) (x : RmaPkt) (upsets : List (Nat × Ecc)) (f : W64 → Option W64) : (s.inAtomic x upsets f).held = s.held :=
  State.inbound_held _ _ _ _ (fun _ _ _ => by simp) (fun _ _ _ => by simp)

@[simp] theorem State.serveSend_held (s : State) (n c : Nat) (x : RmaPkt) :
    (State.serveSend s n c x).held = s.held := by
  unfold State.serveSend
  try dsimp only
  (repeat' split) <;> simp [State.each_held, foldl_held, apply_ite State.held]

@[simp] theorem State.inSend_held (s : State) (x : RmaPkt) : (s.inSend x).held = s.held :=
  State.inbound_held _ _ _ _ (fun _ _ _ => by simp) (fun _ _ _ => rfl)

@[simp] theorem State.inClose_held (s : State) (n c : Nat) :
    (State.inClose s n c).held = s.held := by
  unfold State.inClose
  try dsimp only
  (repeat' split) <;> simp [State.each_held, foldl_held, apply_ite State.held]

@[simp] theorem State.inRma_held (s : State) (op : Nat) (x : RmaPkt) (upsets : List (Nat × Ecc)) :
    (State.inRma s op x upsets).held = s.held := by
  unfold State.inRma
  split
  all_goals first
    | (simp; done)
    | exact State.inbound_held _ _ _ _ (fun _ _ _ => by simp) (fun _ _ _ => rfl)

@[simp] theorem State.creditTimer_held (s : State) :
    (State.creditTimer s).held = s.held := by
  unfold State.creditTimer
  try dsimp only
  (repeat' split) <;> simp [State.each_held, foldl_held, apply_ite State.held]

@[simp] theorem State.connectResend_held (s : State) (n c : Nat) :
    (State.connectResend s n c).held = s.held := by
  unfold State.connectResend
  try dsimp only
  (repeat' split) <;> simp [State.each_held, foldl_held, apply_ite State.held]

@[simp] theorem State.responseTimeout_held (s : State) (n c seq : Nat) :
    (State.responseTimeout s n c seq).held = s.held := by
  unfold State.responseTimeout
  try dsimp only
  (repeat' split) <;> simp [State.each_held, foldl_held, apply_ite State.held]

@[simp] theorem State.abortSources_held (s : State) (n : Nat) :
    (State.abortSources s n).held = s.held := by
  unfold State.abortSources
  try dsimp only
  (repeat' split) <;> simp [State.each_held, foldl_held, apply_ite State.held]

@[simp] theorem State.rearmCredits_held (s : State) (n : Nat) :
    (State.rearmCredits s n).held = s.held := by
  unfold State.rearmCredits
  try dsimp only
  (repeat' split) <;> simp [State.each_held, foldl_held, apply_ite State.held]

@[simp] theorem State.refuseMember_held (s : State) (src : Nat) :
    (State.refuseMember s src).held = s.held := by
  unfold State.refuseMember
  try dsimp only
  (repeat' split) <;> simp [State.each_held, foldl_held, apply_ite State.held]

@[simp] theorem State.modSpan_held (s : State) (n : Nat) (f : Span → Span) :
    (State.modSpan s n f).held = s.held := by
  unfold State.modSpan
  try dsimp only
  (repeat' split) <;> simp [State.each_held, foldl_held, apply_ite State.held]

@[simp] theorem State.dropLeaving_held (s : State) (n : Nat) (f : ChanRec → Bool) :
    (State.dropLeaving s n f).held = s.held := by
  unfold State.dropLeaving
  try dsimp only
  (repeat' split) <;> simp [State.each_held, foldl_held, apply_ite State.held]

@[simp] theorem State.restartSpan_held (s : State) (n spanId : Nat) :
    (State.restartSpan s n spanId).held = s.held := by
  unfold State.restartSpan
  try dsimp only
  (repeat' split) <;> simp [State.each_held, foldl_held, apply_ite State.held]

@[simp] theorem State.peerLost_held (s : State) (n idx : Nat) :
    (State.peerLost s n idx).held = s.held := by
  unfold State.peerLost
  try dsimp only
  (repeat' split) <;> simp [State.each_held, foldl_held, apply_ite State.held]

@[simp] theorem State.managerLoses_held (s : State) (n idx reason : Nat) :
    (State.managerLoses s n idx reason).held = s.held := by
  unfold State.managerLoses
  try dsimp only
  (repeat' split) <;> simp [State.each_held, foldl_held, apply_ite State.held]

@[simp] theorem State.workerLoses_held (s : State) (n reason : Nat) (r : SpanRec) :
    (State.workerLoses s n reason r).held = s.held := by
  unfold State.workerLoses
  try dsimp only
  (repeat' split) <;> simp [State.each_held, foldl_held, apply_ite State.held]

@[simp] theorem State.loseMember_held (s : State) (n idx reason : Nat) :
    (State.loseMember s n idx reason).held = s.held := by
  unfold State.loseMember
  try dsimp only
  (repeat' split) <;> simp [State.each_held, foldl_held, apply_ite State.held]

@[simp] theorem State.loseSelf_held (s : State) (n : Nat) (r : SpanRec) :
    (State.loseSelf s n r).held = s.held := by
  unfold State.loseSelf
  try dsimp only
  (repeat' split) <;> simp [State.each_held, foldl_held, apply_ite State.held]

@[simp] theorem State.loseOwn_held (s : State) (a : Nat) :
    (State.loseOwn s a).held = s.held := by
  unfold State.loseOwn
  apply State.each_held
  intro t n
  split
  · split <;> simp
  · rfl

@[simp] theorem State.loseMembersAt_held (s : State) (a reason : Nat) :
    (State.loseMembersAt s a reason).held = s.held := by
  unfold State.loseMembersAt
  apply State.each_held
  intro t n
  split <;> simp

@[simp] theorem State.sendJoin_held (s : State) (n : Nat) :
    (State.sendJoin s n).held = s.held := by
  unfold State.sendJoin
  try dsimp only
  (repeat' split) <;> simp [State.each_held, foldl_held, apply_ite State.held]

@[simp] theorem State.readyIfJoined_held (s : State) (n : Nat) (r : SpanRec) :
    (State.readyIfJoined s n r).held = s.held := by
  unfold State.readyIfJoined
  try dsimp only
  (repeat' split) <;> simp [State.each_held, foldl_held, apply_ite State.held]

@[simp] theorem State.onJoin_held (s : State) (n : Nat) (r : SpanRec) (idx : Nat) (digest : W32) (self hops : Nat) (cap : W64) :
    (State.onJoin s n r idx digest self hops cap).held = s.held := by
  unfold State.onJoin
  try dsimp only
  (repeat' split) <;> simp [State.each_held, foldl_held, apply_ite State.held]

@[simp] theorem State.onReady_held (s : State) (n : Nat) (r : SpanRec) (idx : Nat) (digest : W32) (gen : BitVec 16) :
    (State.onReady s n r idx digest gen).held = s.held := by
  unfold State.onReady
  try dsimp only
  (repeat' split) <;> simp [State.each_held, foldl_held, apply_ite State.held]

@[simp] theorem State.onReject_held (s : State) (n : Nat) (r : SpanRec) (idx : Nat) (reason : Byte) :
    (State.onReject s n r idx reason).held = s.held := by
  unfold State.onReject
  try dsimp only
  (repeat' split) <;> simp [State.each_held, foldl_held, apply_ite State.held]

@[simp] theorem State.onLaunch_held (s : State) (n : Nat) (r : SpanRec) (idx graph : Nat) (epoch : BitVec 16) (serial : W32) (timed : Bool) (start : W64) (params : List (Nat × W64)) :
    (State.onLaunch s n r idx graph epoch serial timed start params).held = s.held := by
  unfold State.onLaunch
  try dsimp only
  (repeat' split) <;> simp [State.each_held, foldl_held, apply_ite State.held]

@[simp] theorem State.onDone_held (s : State) (n : Nat) (r : SpanRec) (idx graph : Nat) (epoch : BitVec 16) (status cause : Byte) (beats : W64) (preempt : Byte) :
    (State.onDone s n r idx graph epoch status cause beats preempt).held = s.held := by
  unfold State.onDone
  try dsimp only
  (repeat' split) <;> simp [State.each_held, foldl_held, apply_ite State.held]

@[simp] theorem State.onAbort_held (s : State) (n : Nat) (r : SpanRec) (idx graph : Nat) (epoch : BitVec 16) :
    (State.onAbort s n r idx graph epoch).held = s.held := by
  unfold State.onAbort
  try dsimp only
  (repeat' split) <;> simp [State.each_held, foldl_held, apply_ite State.held]

@[simp] theorem State.onSpan_held (s : State) (n : Nat) (r : SpanRec) (idx : Nat) (cap : W64) (z : SpanOp) :
    (State.onSpan s n r idx cap z).held = s.held := by
  unfold State.onSpan
  try dsimp only
  (repeat' split) <;> simp [State.each_held, foldl_held, apply_ite State.held]

@[simp] theorem State.acked_held (s : State) (d t p q a : Nat) : (s.acked d t p q a).held = s.held := by
  unfold State.acked
  split
  · rfl
  · dsimp only
    split <;> simp

@[simp] theorem State.takeAck_held (s : State) (h : Bft) (acks : Option (Nat × Nat)) :
    (State.takeAck s h acks).held = s.held := by
  unfold State.takeAck
  dsimp only
  (repeat' split) <;> simp

@[simp] theorem State.applyData_held (s : State) (n p : Nat) (h : Bft) (cls : Nat) (x : Option Item) :
    (State.applyData s n p h cls x).held = s.held := by
  unfold State.applyData
  try dsimp only
  (repeat' split) <;> simp [State.each_held, foldl_held, apply_ite State.held]

@[simp] theorem State.applyCargo_held (s : State) (n p : Nat) (r : SpanRec) (idx : Nat) (h : Bft) (z : Cargo) :
    (State.applyCargo s n p r idx h z).held = s.held := by
  unfold State.applyCargo
  try dsimp only
  (repeat' split) <;> simp [State.each_held, foldl_held, apply_ite State.held]

@[simp] theorem State.setRx_held (s : State) (y : RxStream) :
    (State.setRx s y).held = s.held := by
  unfold State.setRx
  try dsimp only
  (repeat' split) <;> simp [State.each_held, foldl_held, apply_ite State.held]

@[simp] theorem State.drainRx_held (n p : Nat) (r : SpanRec) (idx : Nat) (h : Bft) (k : Nat) (s : State) :
    (State.drainRx n p r idx h k s).held = s.held := by
  induction k generalizing s with
  | zero => rfl
  | succ k ih =>
    unfold State.drainRx
    dsimp only
    split
    · rfl
    · rw [ih]; simp

@[simp] theorem State.ackStream_held (s : State) (h : Bft) :
    (State.ackStream s h).held = s.held := by
  unfold State.ackStream
  try dsimp only
  (repeat' split) <;> simp [State.each_held, foldl_held, apply_ite State.held]

@[simp] theorem State.inStream_held (s : State) (n p : Nat) (r : SpanRec) (idx : Nat) (h : Bft) (x : Cargo) :
    (State.inStream s n p r idx h x).held = s.held := by
  unfold State.inStream
  dsimp only
  split
  · split
    · rw [State.ackStream_held, State.drainRx_held]; simp
    · rw [State.drainRx_held]; simp
  · simp
  · rfl

@[simp] theorem State.restartFor_held (s : State) (n : Nat) (r : SpanRec) (idx : Nat) (h : Bft) (z : Cargo) :
    (State.restartFor s n r idx h z).held = s.held := by
  unfold State.restartFor
  try dsimp only
  (repeat' split) <;> simp [State.each_held, foldl_held, apply_ite State.held]

@[simp] theorem State.takeStream_held (s : State) (p : Nat) (h : Bft) (x : Cargo) :
    (State.takeStream s p h x).held = s.held := by
  unfold State.takeStream
  split <;> simp

@[simp] theorem State.takeSpan_held (s : State) (h : SpanHead) (op : SpanOp) (cap : W64) :
    (State.takeSpan s h op cap).held = s.held := by
  unfold State.takeSpan
  try dsimp only
  (repeat' split) <;> simp [State.each_held, foldl_held, apply_ite State.held]

@[simp] theorem State.keepLsr_held (s : State) (x : Lsr) :
    (State.keepLsr s x).held = s.held := by
  unfold State.keepLsr
  try dsimp only
  (repeat' split) <;> simp [State.each_held, foldl_held, apply_ite State.held]

@[simp] theorem State.flood_held (s : State) (x : Lsr) (except : Option (Nat × W64)) :
    (State.flood s x except).held = s.held := by
  unfold State.flood
  try dsimp only
  (repeat' split) <;> simp [State.each_held, foldl_held, apply_ite State.held]

@[simp] theorem State.sendLsr_held (s : State) :
    (State.sendLsr s).held = s.held := by
  unfold State.sendLsr
  try dsimp only
  (repeat' split) <;> simp [State.each_held, foldl_held, apply_ite State.held]

@[simp] theorem State.failClaim_held (s : State) :
    (State.failClaim s).held = s.held := by
  unfold State.failClaim
  try dsimp only
  (repeat' split) <;> simp [State.each_held, foldl_held, apply_ite State.held]

@[simp] theorem State.nextCandidate_held (k i : Nat) (s : State) : (State.nextCandidate k i s).held = s.held := by
  induction k generalizing i s with
  | zero => rfl
  | succ k ih =>
    unfold State.nextCandidate
    split
    · rfl
    · split
      · exact ih _ _
      · rfl

theorem State.readdress_held (s : State) (f : State → State) (h : (f s).held = s.held) :
    (State.readdress s f).held = s.held := by
  unfold State.readdress
  dsimp only
  split <;> simp [h]

@[simp] theorem State.settle_held (s : State) :
    (State.settle s).held = s.held := by
  unfold State.settle
  try dsimp only
  (repeat' split) <;> simp [State.each_held, foldl_held, apply_ite State.held]

@[simp] theorem State.settleAddress_held (s : State) : (State.settleAddress s).held = s.held :=
  State.readdress_held _ _ (State.settle_held s)

@[simp] theorem State.claimOnAdjacency_held (s : State) :
    (State.claimOnAdjacency s).held = s.held := by
  unfold State.claimOnAdjacency
  split
  · rw [State.nextCandidate_held]
  · split <;> simp

@[simp] theorem State.dropAdjacencies_held (s : State) (p : Nat) :
    (State.dropAdjacencies s p).held = s.held := by
  unfold State.dropAdjacencies
  try dsimp only
  (repeat' split) <;> simp [State.each_held, foldl_held, apply_ite State.held]

@[simp] theorem State.trainPort_held (s : State) (p : Nat) :
    (State.trainPort s p).held = s.held := by
  unfold State.trainPort
  try dsimp only
  (repeat' split) <;> simp [State.each_held, foldl_held, apply_ite State.held]

@[simp] theorem State.hearCroak_held (s : State) (p : Nat) (x : Croak) :
    (State.hearCroak s p x).held = s.held := by
  unfold State.hearCroak
  try dsimp only
  (repeat' split) <;> simp [State.each_held, foldl_held, apply_ite State.held]

@[simp] theorem State.takeCroak_held (s : State) (p : Nat) (x : Croak) :
    (State.takeCroak s p x).held = s.held := by
  unfold State.takeCroak
  try dsimp only
  (repeat' split) <;> simp [State.each_held, foldl_held, apply_ite State.held]

@[simp] theorem State.leftAddress_held (s : State) (old new : Lsr) :
    (State.leftAddress s old new).held = s.held := by
  unfold State.leftAddress
  try dsimp only
  (repeat' split) <;> simp [State.each_held, foldl_held, apply_ite State.held]

@[simp] theorem State.takeLsr_held (s : State) (p : Nat) (sender : W64) (x : Lsr) :
    (State.takeLsr s p sender x).held = s.held := by
  unfold State.takeLsr
  try dsimp only
  (repeat' split) <;> simp [State.each_held, foldl_held, apply_ite State.held]

@[simp] theorem State.loseUnrouted_held (s : State) :
    (State.loseUnrouted s).held = s.held := by
  unfold State.loseUnrouted
  extract_lets t
  refine (State.each_held _ _ _ ?_).trans (State.each_held _ _ _ ?_)
  · intro t n; apply State.each_held; intro t c; simp
  · intro t n
    split
    · apply State.each_held; intro t c; simp
    · rfl

@[simp] theorem State.takePacket_held (s : State) (p : Nat) (h : Bft) (x : Carried) :
    (State.takePacket s p h x).held = s.held := by
  unfold State.takePacket
  (repeat' split) <;> simp

@[simp] theorem State.arrive_held (s : State) (p : Nat) (frame : Bytes) (h : Bft) (x : Carried) :
    (State.arrive s p frame h x).held = s.held := by
  unfold State.arrive
  try dsimp only
  (repeat' split) <;> simp [State.each_held, foldl_held, apply_ite State.held]

@[simp] theorem State.noteFabric_held (s : State) (n : Nat) :
    (State.noteFabric s n).held = s.held := by
  unfold State.noteFabric
  try dsimp only
  (repeat' split) <;> simp [State.each_held, foldl_held, apply_ite State.held]

@[simp] theorem State.sendAgain_held (s : State) (x : TxStream) (bs : Bytes) :
    (State.sendAgain s x bs).held = s.held := by
  unfold State.sendAgain
  try dsimp only
  (repeat' split) <;> simp [State.each_held, foldl_held, apply_ite State.held]

@[simp] theorem State.breakStream_held (s : State) (x : TxStream) :
    (State.breakStream s x).held = s.held := by
  unfold State.breakStream
  try dsimp only
  (repeat' split) <;> simp [State.each_held, foldl_held, apply_ite State.held]

@[simp] theorem State.takeSnapshot_held (s : State) :
    (State.takeSnapshot s).held = s.held := by
  unfold State.takeSnapshot
  try dsimp only
  (repeat' split) <;> simp [State.each_held, foldl_held, apply_ite State.held]

@[simp] theorem State.snapshotDue_held (s : State) :
    (State.snapshotDue s).held = s.held := by
  unfold State.snapshotDue
  try dsimp only
  (repeat' split) <;> simp [State.each_held, foldl_held, apply_ite State.held]

@[simp] theorem State.keepLo_held (s : State) (pair : Nat) (v : W32) :
    (State.keepLo s pair v).held = s.held := by
  unfold State.keepLo
  try dsimp only
  (repeat' split) <;> simp [State.each_held, foldl_held, apply_ite State.held]

@[simp] theorem State.lampMeasure_held (s : State) (i : Nat) (ok : Bool) :
    (State.lampMeasure s i ok).held = s.held := by
  unfold State.lampMeasure
  try dsimp only
  (repeat' split) <;> simp [State.each_held, foldl_held, apply_ite State.held]

@[simp] theorem State.tmxError_held (s : State) :
    (State.tmxError s).held = s.held := by
  unfold State.tmxError
  try dsimp only
  (repeat' split) <;> simp [State.each_held, foldl_held, apply_ite State.held]

@[simp] theorem State.refreshUnc_held (s : State) :
    (State.refreshUnc s).held = s.held := by
  unfold State.refreshUnc
  try dsimp only
  (repeat' split) <;> simp [State.each_held, foldl_held, apply_ite State.held]

@[simp] theorem State.rebased_held (s : State) :
    (State.rebased s).held = s.held := by
  unfold State.rebased
  try dsimp only
  (repeat' split) <;> simp [State.each_held, foldl_held, apply_ite State.held]

@[simp] theorem State.skipTimed_held (s : State) (old new : Nat) :
    (State.skipTimed s old new).held = s.held := by
  unfold State.skipTimed
  try dsimp only
  (repeat' split) <;> simp [State.each_held, foldl_held, apply_ite State.held]

@[simp] theorem State.markReached_held (s : State) :
    (State.markReached s).held = s.held := by
  unfold State.markReached
  try dsimp only
  (repeat' split) <;> simp [State.each_held, foldl_held, apply_ite State.held]

@[simp] theorem State.moveTime_held (s : State) (new : Int) :
    (State.moveTime s new).held = s.held := by
  unfold State.moveTime
  try dsimp only
  (repeat' split) <;> simp [State.each_held, foldl_held, apply_ite State.held]

@[simp] theorem State.slewBy_held (s : State) (off : Int) :
    (State.slewBy s off).held = s.held := by
  unfold State.slewBy
  try dsimp only
  (repeat' split) <;> simp [State.each_held, foldl_held, apply_ite State.held]

@[simp] theorem State.stepBy_held (s : State) (off : Int) :
    (State.stepBy s off).held = s.held := by
  unfold State.stepBy
  try dsimp only
  (repeat' split) <;> simp [State.each_held, foldl_held, apply_ite State.held]

@[simp] theorem State.correctAtChange_held (s : State) (off : Int) :
    (State.correctAtChange s off).held = s.held := by
  unfold State.correctAtChange
  try dsimp only
  (repeat' split) <;> simp [State.each_held, foldl_held, apply_ite State.held]

@[simp] theorem State.correctLater_held (s : State) (off : Int) :
    (State.correctLater s off).held = s.held := by
  unfold State.correctLater
  try dsimp only
  (repeat' split) <;> simp [State.each_held, foldl_held, apply_ite State.held]

@[simp] theorem State.selectSource_held (s : State) (src : Nat) (off : Int) :
    (State.selectSource s src off).held = s.held := by
  unfold State.selectSource
  try dsimp only
  (repeat' split) <;> simp [State.each_held, foldl_held, apply_ite State.held]

@[simp] theorem State.brumate_held (s : State) :
    (State.brumate s).held = s.held := by
  unfold State.brumate
  try dsimp only
  (repeat' split) <;> simp [State.each_held, foldl_held, apply_ite State.held]

@[simp] theorem State.deselect_held (s : State) (src : Nat) :
    (State.deselect s src).held = s.held := by
  unfold State.deselect
  try dsimp only
  (repeat' split) <;> simp [State.each_held, foldl_held, apply_ite State.held]

@[simp] theorem State.goodEvent_held (s : State) (src : Nat) (off : Int) :
    (State.goodEvent s src off).held = s.held := by
  unfold State.goodEvent
  try dsimp only
  (repeat' split) <;> simp [State.each_held, foldl_held, apply_ite State.held]

@[simp] theorem State.badPps_held (s : State) :
    (State.badPps s).held = s.held := by
  unfold State.badPps
  try dsimp only
  (repeat' split) <;> simp [State.each_held, foldl_held, apply_ite State.held]

@[simp] theorem State.badPtp_held (s : State) :
    (State.badPtp s).held = s.held := by
  unfold State.badPtp
  try dsimp only
  (repeat' split) <;> simp [State.each_held, foldl_held, apply_ite State.held]

@[simp] theorem State.losePps_held (s : State) :
    (State.losePps s).held = s.held := by
  unfold State.losePps
  try dsimp only
  (repeat' split) <;> simp [State.each_held, foldl_held, apply_ite State.held]

@[simp] theorem State.losePtp_held (s : State) :
    (State.losePtp s).held = s.held := by
  unfold State.losePtp
  try dsimp only
  (repeat' split) <;> simp [State.each_held, foldl_held, apply_ite State.held]

@[simp] theorem State.ptpSend_held (s : State) (p : Nat) (m : PtpMsg) :
    (State.ptpSend s p m).held = s.held := by
  unfold State.ptpSend
  try dsimp only
  (repeat' split) <;> simp [State.each_held, foldl_held, apply_ite State.held]

@[simp] theorem State.judgeSync_held (s : State) (off : Int) :
    (State.judgeSync s off).held = s.held := by
  unfold State.judgeSync
  try dsimp only
  (repeat' split) <;> simp [State.each_held, foldl_held, apply_ite State.held]

@[simp] theorem State.newMaster_held (s : State) (m : PtpMaster) :
    (State.newMaster s m).held = s.held := by
  unfold State.newMaster
  try dsimp only
  (repeat' split) <;> simp [State.each_held, foldl_held, apply_ite State.held]

@[simp] theorem State.takeStep_held (s : State) (off : Int) :
    (State.takeStep s off).held = s.held := by
  unfold State.takeStep
  try dsimp only
  (repeat' split) <;> simp [State.each_held, foldl_held, apply_ite State.held]

@[simp] theorem State.raiseBands_held (s : State) (d : Nat) :
    (State.raiseBands s d).held = s.held :=
  State.each_held _ _ _ fun t b => State.raiseBand_held t b

@[simp] theorem State.dieChanged_held (s : State) (d : Nat) (hot : Bool) :
    (State.dieChanged s d hot).held = s.held := by
  unfold State.dieChanged
  try dsimp only
  (repeat' split) <;> simp [State.each_held, foldl_held, apply_ite State.held]

@[simp] theorem State.breakSensor_held (s : State) (x : Nat) (f : SensorFault) : (s.breakSensor x f).held = s.held := by
  unfold State.breakSensor
  dsimp only
  split <;> simp

@[simp] theorem State.tellDie_held (s : State) (x : Nat) (r : Int) :
    (State.tellDie s x r).held = s.held := by
  unfold State.tellDie
  try dsimp only
  (repeat' split) <;> simp [State.each_held, foldl_held, apply_ite State.held]

@[simp] theorem State.writeVcore_held (s : State) (n mv unacked : Nat) :
    (State.writeVcore s n mv unacked).held = s.held := by
  unfold State.writeVcore
  try dsimp only
  (repeat' split) <;> simp [State.each_held, foldl_held, apply_ite State.held]

@[simp] theorem State.raiseFloors_held (s : State) (ack : List TowerId) :
    (State.raiseFloors s ack).held = s.held := by
  unfold State.raiseFloors
  try dsimp only
  (repeat' split) <;> simp [State.each_held, foldl_held, apply_ite State.held]

@[simp] theorem State.countShared_held (s : State) (x : Traffic) (n c : Nat) :
    (State.countShared s x n c).held = s.held := by
  unfold State.countShared
  try dsimp only
  (repeat' split) <;> simp [State.each_held, foldl_held, apply_ite State.held]

@[simp] theorem State.answers_held (s : State) (status : Nat) (fs : List SbField) :
    (State.answers s status fs).held = s.held := by
  unfold State.answers
  try dsimp only
  (repeat' split) <;> simp [State.each_held, foldl_held, apply_ite State.held]

theorem State.sequenced_held (s : State) (code : Nat) (seq : Byte) (act : State → State) (h : ∀ t, (act t).held = t.held) :
    (s.sequenced code seq act).held = s.held := by
  unfold State.sequenced
  (repeat' split)
  all_goals first
    | (simp; done)
    | exact h _

@[simp] theorem State.moltLaunch_held (s : State) (n : Nat) (l : Launch) :
    (State.moltLaunch s n l).held = s.held := by
  unfold State.moltLaunch
  try dsimp only
  (repeat' split) <;> simp [State.each_held, foldl_held, apply_ite State.held]

@[simp] theorem State.sendLeave_held (s : State) (n : Nat) :
    (State.sendLeave s n).held = s.held := by
  unfold State.sendLeave
  try dsimp only
  (repeat' split) <;> simp [State.each_held, foldl_held, apply_ite State.held]

@[simp] theorem State.clearNbus_held (s : State) (n : Nat) :
    (State.clearNbus s n).held = s.held := by
  unfold State.clearNbus
  try dsimp only
  (repeat' split) <;> simp [State.each_held, foldl_held, apply_ite State.held]

@[simp] theorem State.unclaim_held (s : State) (n : Nat) :
    (State.unclaim s n).held = s.held := by
  unfold State.unclaim
  try dsimp only
  (repeat' split) <;> simp [State.each_held, foldl_held, apply_ite State.held]

@[simp] theorem State.discardKeys_held (s : State) (n : Nat) :
    (State.discardKeys s n).held = s.held := by
  unfold State.discardKeys
  try dsimp only
  (repeat' split) <;> simp [State.each_held, foldl_held, apply_ite State.held]

@[simp] theorem State.molt_held (s : State) (n : Nat) (keep : Bool) :
    (State.molt s n keep).held = s.held := by
  unfold State.molt
  try dsimp only
  (repeat' split) <;> simp [State.each_held, foldl_held, apply_ite State.held]

@[simp] theorem State.releaseLamps_held (s : State) (l : List Nat) :
    (State.releaseLamps s l).held = s.held := by
  unfold State.releaseLamps
  try dsimp only
  (repeat' split) <;> simp [State.each_held, foldl_held, apply_ite State.held]

@[simp] theorem PartImage.loadCore_held (i : PartImage) (s : State) (c : Nat) :
    (PartImage.loadCore i s c).held = s.held := by
  unfold PartImage.loadCore
  try dsimp only
  (repeat' split) <;> simp [State.each_held, foldl_held, apply_ite State.held]

@[simp] theorem State.reseed_held (s : State) :
    (State.reseed s).held = s.held := by
  unfold State.reseed
  try dsimp only
  (repeat' split) <;> simp [State.each_held, foldl_held, apply_ite State.held]

@[simp] theorem State.makeKeys_held (s : State) (n : Nat) :
    (State.makeKeys s n).held = s.held := by
  unfold State.makeKeys
  try dsimp only
  (repeat' split) <;> simp [State.each_held, foldl_held, apply_ite State.held]

@[simp] theorem State.endMolts_held (s : State) :
    (State.endMolts s).held = s.held := by
  unfold State.endMolts
  try dsimp only
  (repeat' split) <;> simp [State.each_held, foldl_held, apply_ite State.held]

@[simp] theorem State.tellHeld_held (s : State) (n : Nat) :
    (State.tellHeld s n).held = s.held := by
  unfold State.tellHeld
  try dsimp only
  (repeat' split) <;> simp [State.each_held, foldl_held, apply_ite State.held]

@[simp] theorem State.startSpan_held (s : State) (n : Nat) (i : PartImage) :
    (State.startSpan s n i).held = s.held := by
  unfold State.startSpan
  try dsimp only
  (repeat' split) <;> simp [State.each_held, foldl_held, apply_ite State.held]

@[simp] theorem State.installPart_held (s : State) (n : Nat) (keep held : Bool) (i : PartImage) (ledger : AMap Nat) (ack : List TowerId) :
    (State.installPart s n keep held i ledger ack).held = s.held := by
  unfold State.installPart
  try dsimp only
  (repeat' split) <;> simp [State.each_held, foldl_held, apply_ite State.held]

@[simp] theorem State.loadFault_held (s : State) (n : Nat) (keep drbg : Bool) (i : PartImage) :
    (State.loadFault s n keep drbg i).held = s.held := by
  unfold State.loadFault
  try dsimp only
  (repeat' split) <;> simp [State.each_held, foldl_held, apply_ite State.held]

@[simp] theorem State.moveRings_held (s : State) (old : State) :
    (State.moveRings s old).held = s.held := by
  unfold State.moveRings
  try dsimp only
  (repeat' split) <;> simp [State.each_held, foldl_held, apply_ite State.held]

@[simp] theorem State.applyPolicy_held (s : State) (old new : Frame) :
    (State.applyPolicy s old new).held = s.held := by
  unfold State.applyPolicy
  split
  · rfl
  · apply State.readdress_held
    dsimp only
    (repeat' split) <;> simp

@[simp] theorem State.loadFrame_held (s : State) (f : Frame) (ack : List TowerId) :
    (State.loadFrame s f ack).held = s.held := by
  unfold State.loadFrame
  try dsimp only
  (repeat' split) <;> simp [State.each_held, foldl_held, apply_ite State.held]

@[simp] theorem State.compose_held (s : State) (opcode : Nat) (m : MbxCmd) :
    (State.compose s opcode m).held = s.held := by
  unfold State.compose
  try dsimp only
  (repeat' split) <;> simp [State.each_held, foldl_held, apply_ite State.held]

@[simp] theorem State.showDone_held (s : State) (code : Nat) (repeated : Bool) :
    (State.showDone s code repeated).held = s.held := by
  unfold State.showDone
  try dsimp only
  (repeat' split) <;> simp [State.each_held, foldl_held, apply_ite State.held]

theorem State.commitWrite_held (s : State) (v : W32) (body : State → Done) (h : ∀ t, (body t).2.2.held = t.held) :
    (s.commitWrite v body).held = s.held := by
  unfold State.commitWrite
  split
  · rfl
  · split
    · simp
    · split
      · simp
      · exact h _

theorem State.mailbox_held (s : State) (op : Nat) (m : MbxCmd) (body : State → Done) (h : ∀ t, (body t).2.2.held = t.held) :
    (s.mailbox op m body).held = s.held := by
  rw [State.mailbox, State.commitWrite_held _ _ _ h, State.compose_held]

@[simp] theorem State.imgStatus_held (s : State) (opcode part result stage reason off : Nat) :
    (State.imgStatus s opcode part result stage reason off).held = s.held := by
  unfold State.imgStatus
  try dsimp only
  (repeat' split) <;> simp [State.each_held, foldl_held, apply_ite State.held]

@[simp] theorem State.admStatus_held (s : State) (part : Nat) (r : Option Refused) :
    (State.admStatus s part r).held = s.held := by
  unfold State.admStatus
  try dsimp only
  (repeat' split) <;> simp [State.each_held, foldl_held, apply_ite State.held]

@[simp] theorem State.startDies_held (s : State) :
    (State.startDies s).held = s.held := by
  unfold State.startDies
  try dsimp only
  (repeat' split) <;> simp [State.each_held, foldl_held, apply_ite State.held]

@[simp] theorem State.flushAll_held (s : State) :
    (State.flushAll s).held = s.held := by
  unfold State.flushAll
  try dsimp only
  (repeat' split) <;> simp [State.each_held, foldl_held, apply_ite State.held]

@[simp] theorem State.holdPart_held (s : State) (n : Nat) :
    (State.holdPart s n).held = s.held := by
  unfold State.holdPart
  try dsimp only
  (repeat' split) <;> simp [State.each_held, foldl_held, apply_ite State.held]

@[simp] theorem State.flrLaunch_held (s : State) (n : Nat) (l : Launch) :
    (State.flrLaunch s n l).held = s.held := by
  unfold State.flrLaunch
  try dsimp only
  (repeat' split) <;> simp [State.each_held, foldl_held, apply_ite State.held]

/-- What a read leaves: the state, or the state after a count that the read clears. -/
def Shown.keeps (s : State) : Shown → Prop
  | .count _ t => t.held = s.held
  | _ => True

@[simp] theorem Shown.word_keeps (s : State) (v : Nat) : (Shown.word v).keeps s := trivial
@[simp] theorem Shown.half_keeps (s : State) (h : Bool) (v : W64) : (Shown.half h v).keeps s := trivial
@[simp] theorem Shown.none_keeps (s : State) : Shown.none.keeps s := trivial
@[simp] theorem Shown.count_keeps (s t : State) (v : Nat) : (Shown.count v t).keeps s = (t.held = s.held) := rfl

@[simp] theorem pairAt_keeps (z : State) (lo : Nat) (v : W64) (o : Nat) :
    (pairAt lo v o).keeps z := by
  unfold pairAt
  try dsimp only
  (repeat' split) <;> first | (simp; done) | exact trivial

@[simp] theorem State.hubRead_keeps (s : State) (o : Nat) :
    (State.hubRead s o).keeps s := by
  unfold State.hubRead
  try dsimp only
  (repeat' split) <;> first | (simp; done) | exact trivial

@[simp] theorem State.bupRead_keeps (s : State) (o : Nat) :
    (State.bupRead s o).keeps s := by
  unfold State.bupRead
  try dsimp only
  (repeat' split) <;> first | (simp; done) | exact trivial

@[simp] theorem State.mbxRead_keeps (s : State) (o : Nat) :
    (State.mbxRead s o).keeps s := by
  unfold State.mbxRead
  try dsimp only
  (repeat' split) <;> first | (simp; done) | exact trivial

@[simp] theorem State.imgRead_keeps (s : State) (o : Nat) :
    (State.imgRead s o).keeps s := by
  unfold State.imgRead
  try dsimp only
  (repeat' split) <;> first | (simp; done) | exact trivial

@[simp] theorem State.lateRead_keeps (s : State) (f : Fn) (n i : Nat) :
    (State.lateRead s f n i).keeps s := by
  unfold State.lateRead
  try dsimp only
  (repeat' split) <;> first | (simp; done) | exact trivial

@[simp] theorem State.admRead_keeps (s : State) (o : Nat) :
    (State.admRead s o).keeps s := by
  unfold State.admRead
  try dsimp only
  (repeat' split) <;> first | (simp; done) | exact trivial

@[simp] theorem State.prtRead_keeps (s : State) (o : Nat) : (s.prtRead o).keeps s := by
  unfold State.prtRead
  try dsimp only
  (repeat' split) <;> first | (simp; done) | exact trivial

@[simp] theorem State.selfRead_keeps (s : State) (n o : Nat) :
    (State.selfRead s n o).keeps s := by
  unfold State.selfRead
  try dsimp only
  (repeat' split) <;> first | (simp; done) | exact trivial

@[simp] theorem State.queRead_keeps (s : State) (f : Fn) (o : Nat) :
    (State.queRead s f o).keeps s := by
  unfold State.queRead
  try dsimp only
  (repeat' split) <;> first | (simp; done) | exact trivial

@[simp] theorem State.fePart_keeps (s : State) (f : Fn) (n bank : Nat) :
    (State.fePart s f n bank).keeps s := by
  unfold State.fePart
  try dsimp only
  (repeat' split) <;> first | (simp; done) | exact trivial

@[simp] theorem State.feRead_keeps (s : State) (f : Fn) (o : Nat) :
    (State.feRead s f o).keeps s := by
  unfold State.feRead
  try dsimp only
  (repeat' split) <;> first | (simp; done) | exact trivial

@[simp] theorem State.poolRead_keeps (s : State) (f : Fn) (o : Nat) :
    (State.poolRead s f o).keeps s := by
  unfold State.poolRead
  try dsimp only
  (repeat' split) <;> first | (simp; done) | exact trivial

@[simp] theorem State.portRead_keeps (s : State) (p o : Nat) :
    (State.portRead s p o).keeps s := by
  unfold State.portRead
  try dsimp only
  (repeat' split) <;> first | (simp; done) | exact trivial

@[simp] theorem State.spanRead_keeps (s : State) (n i : Nat) :
    (State.spanRead s n i).keeps s := by
  unfold State.spanRead
  try dsimp only
  (repeat' split) <;> first | (simp; done) | exact trivial

@[simp] theorem State.fabRead_keeps (s : State) (o : Nat) :
    (State.fabRead s o).keeps s := by
  unfold State.fabRead
  try dsimp only
  (repeat' split) <;> first | (simp; done) | exact trivial

@[simp] theorem State.rmaRead_keeps (s : State) (f : Fn) (n o : Nat) :
    (State.rmaRead s f n o).keeps s := by
  unfold State.rmaRead
  try dsimp only
  (repeat' split) <;> first | (simp; done) | exact trivial

@[simp] theorem State.timShared_keeps (s : State) (o : Nat) :
    (State.timShared s o).keeps s := by
  unfold State.timShared
  try dsimp only
  (repeat' split) <;> first | (simp; done) | exact trivial

@[simp] theorem State.timRead_keeps (s : State) (o : Nat) :
    (State.timRead s o).keeps s := by
  unfold State.timRead
  try dsimp only
  (repeat' split) <;> first | (simp; done) | exact trivial

@[simp] theorem State.thmRead_keeps (s : State) (o : Nat) :
    (State.thmRead s o).keeps s := by
  unfold State.thmRead
  try dsimp only
  (repeat' split) <;> first | (simp; done) | exact trivial

@[simp] theorem State.pwrRead_keeps (s : State) (o : Nat) :
    (State.pwrRead s o).keeps s := by
  unfold State.pwrRead
  try dsimp only
  (repeat' split) <;> first | (simp; done) | exact trivial

@[simp] theorem State.lmpRead_keeps (s : State) (f : Fn) (o : Nat) :
    (State.lmpRead s f o).keeps s := by
  unfold State.lmpRead
  try dsimp only
  (repeat' split) <;> first | (simp; done) | exact trivial

@[simp] theorem Counter.shown_keeps (z : State) (k : Counter) (f : Fn) (o : Nat) :
    (Counter.shown k f o).keeps z := by
  unfold Counter.shown
  try dsimp only
  (repeat' split) <;> first | (simp; done) | exact trivial

@[simp] theorem evcRead_keeps (z : State) (m : AMap Counter) (n : Nat) (f : Fn) (o : Nat) :
    (evcRead m n f o).keeps z := by
  unfold evcRead
  try dsimp only
  (repeat' split) <;> first | (simp; done) | exact trivial

@[simp] theorem State.hubEvcRead_keeps (s : State) (o : Nat) :
    (State.hubEvcRead s o).keeps s := by
  unfold State.hubEvcRead
  try dsimp only
  (repeat' split) <;> first | (simp; done) | exact trivial

@[simp] theorem State.tmxRead_keeps (s : State) (o : Nat) :
    (State.tmxRead s o).keeps s := by
  unfold State.tmxRead
  try dsimp only
  (repeat' split) <;> first | (simp; done) | exact trivial

@[simp] theorem State.fltRead_keeps (s : State) (f : Fn) (o : Nat) :
    (State.fltRead s f o).keeps s := by
  unfold State.fltRead
  try dsimp only
  (repeat' split) <;> first | (simp; done) | exact trivial

@[simp] theorem State.slcRead_keeps (s : State) (n o : Nat) :
    (State.slcRead s n o).keeps s := by
  unfold State.slcRead
  try dsimp only
  (repeat' split) <;> first | (simp; done) | exact trivial

@[simp] theorem State.stackRead_keeps (s : State) (k o : Nat) :
    (State.stackRead s k o).keeps s := by
  unfold State.stackRead
  try dsimp only
  (repeat' split) <;> first | (simp; done) | exact trivial

@[simp] theorem State.nbsRead_keeps (s : State) (n o : Nat) :
    (State.nbsRead s n o).keeps s := by
  unfold State.nbsRead
  try dsimp only
  (repeat' split) <;> first | (simp; done) | exact trivial

@[simp] theorem State.rgnRead_keeps (s : State) (n o : Nat) :
    (State.rgnRead s n o).keeps s := by
  unfold State.rgnRead
  try dsimp only
  (repeat' split) <;> first | (simp; done) | exact trivial

@[simp] theorem State.coreRegs_keeps (s : State) (f : Fn) (c o : Nat) :
    (State.coreRegs s f c o).keeps s := by
  unfold State.coreRegs
  try dsimp only
  (repeat' split) <;> first | (simp; done) | exact trivial

@[simp] theorem State.arrRead_keeps (s : State) (c o : Nat) :
    (State.arrRead s c o).keeps s := by
  unfold State.arrRead
  try dsimp only
  (repeat' split) <;> first | (simp; done) | exact trivial

@[simp] theorem Core.sfuRead_keeps (z : State) (k : Core) (o : Nat) :
    (Core.sfuRead k o).keeps z := by
  unfold Core.sfuRead
  try dsimp only
  (repeat' split) <;> first | (simp; done) | exact trivial

@[simp] theorem State.strRead_keeps (s : State) (f : Fn) (c o : Nat) :
    (State.strRead s f c o).keeps s := by
  unfold State.strRead
  try dsimp only
  (repeat' split) <;> first | (simp; done) | exact trivial

@[simp] theorem State.chnRead_keeps (s : State) (f : Fn) (c o : Nat) :
    (State.chnRead s f c o).keeps s := by
  unfold State.chnRead
  try dsimp only
  (repeat' split) <;> first | (simp; done) | exact trivial

@[simp] theorem State.coreRead_keeps (s : State) (f : Fn) (c o : Nat) :
    (State.coreRead s f c o).keeps s := by
  unfold State.coreRead
  try dsimp only
  (repeat' split) <;> first | (simp; done) | exact trivial

@[simp] theorem State.pageShown_keeps (s : State) (c o : Nat) :
    (State.pageShown s c o).keeps s := by
  unfold State.pageShown
  try dsimp only
  (repeat' split) <;> first | (simp; done) | exact trivial

@[simp] theorem State.msixRead_keeps (s : State) (f : Fn) (o : Nat) : (s.msixRead f o).keeps s := by
  unfold State.msixRead
  try dsimp only
  (repeat' split) <;> first | (simp; done) | exact trivial

@[simp] theorem State.pfHubRead_keeps (s : State) (block o : Nat) :
    (State.pfHubRead s block o).keeps s := by
  unfold State.pfHubRead
  try dsimp only
  (repeat' split) <;> first | (simp; done) | exact trivial

@[simp] theorem State.vfHubRead_keeps (s : State) (n : PartId) (block o : Nat) :
    (State.vfHubRead s n block o).keeps s := by
  unfold State.vfHubRead
  try dsimp only
  (repeat' split) <;> first | (simp; done) | exact trivial

@[simp] theorem State.towerRead_keeps (s : State) (n block o : Nat) :
    (State.towerRead s n block o).keeps s := by
  unfold State.towerRead
  try dsimp only
  (repeat' split) <;> first | (simp; done) | exact trivial

@[simp] theorem State.shown_keeps (s : State) (f : Fn) (a : Nat) :
    (State.shown s f a).keeps s := by
  unfold State.shown
  try dsimp only
  (repeat' split) <;> first | (simp; done) | exact trivial

@[simp] theorem State.readReg_held (s : State) (f : Fn) (a : Nat) :
    (State.readReg s f a).held = s.held := by
  unfold State.readReg
  have h := State.shown_keeps s f a
  (repeat' split) <;> simp_all

@[simp] theorem State.setQrole_held (s : State) (n : Nat) (v : W64) :
    (State.setQrole s n v).held = s.held := by
  unfold State.setQrole
  apply State.each_held
  intro t r
  split <;> simp

@[simp] theorem State.rmaWrite_held (s : State) (n o : Nat) (v : W32) :
    (State.rmaWrite s n o v).held = s.held := by
  unfold State.rmaWrite
  try dsimp only
  (repeat' split) <;> simp [State.each_held, foldl_held, apply_ite State.held]

@[simp] theorem State.unpend_held (s : State) (fn vec : Nat) :
    (State.unpend s fn vec).held = s.held := by
  unfold State.unpend
  try dsimp only
  (repeat' split) <;> simp [State.each_held, foldl_held, apply_ite State.held]

@[simp] theorem State.msixWrite_held (s : State) (f : Fn) (o : Nat) (v : W32) :
    (State.msixWrite s f o v).held = s.held := by
  unfold State.msixWrite
  try dsimp only
  (repeat' split) <;> simp [State.each_held, foldl_held, apply_ite State.held]


end Sys2Proof.Machine
end

