-- ==== Sys2Proof/Laws/Commands.lean ====
section
/-!
SUPPORT. What each command keeps: the queue, and for most commands everything of `State.held` but the clock, which never
runs back. Each command answers a next state.
-/
namespace Sys2Proof.Machine
set_option linter.unusedSimpArgs false
set_option linter.unnecessarySeqFocus false
set_option linter.unusedTactic false
set_option linter.unreachableTactic false

/-- The outcome is a next state that holds what `s` holds. -/
def Keeps (s : State) (o : Result) : Prop := ∃ t, o = .next t ∧ t.held = s.held

theorem Keeps.of {s t : State} (h : t.held = s.held) : Keeps s (.next t) := ⟨t, rfl, h⟩

/-! ## Issues -/

theorem State.issue_held (s : State) (i : Issue) (cls op : Nat) (legal : Bool) (check : Core → Option (Nat × Nat × W64))
    (ready : Core → Bool) {body : State → State} (h : ∀ s, (body s).held = s.held) :
    (s.issue i cls op legal check ready body).held = (s.at i.time).held := by
  unfold State.issue
  dsimp only
  generalize s.at i.time = u
  (repeat' split) <;> simp [h]

@[simp] theorem State.alu_held (s : State) (i : Issue) (op : Nat) (check : Core → Option (Nat × Nat × W64)) (f : W64 → W64 → W64) :
    (s.alu i op check f).held = (s.at i.time).held :=
  State.issue_held _ _ _ _ _ _ _ (fun _ => by simp)

@[simp] theorem State.aluImm_held (s : State) (i : Issue) (op : Nat) (imm : W32) (f : W64 → W64) :
    (s.aluImm i op imm f).held = (s.at i.time).held :=
  State.issue_held _ _ _ _ _ _ _ (fun _ => by simp)

@[simp] theorem State.branch_held (s : State) (i : Issue) (op : Nat) (f : W64 → W64 → Bool) :
    (s.branch i op f).held = (s.at i.time).held :=
  State.issue_held _ _ _ _ _ _ _ (fun _ => by split <;> simp)

@[simp] theorem State.load_held (s : State) (i : Issue) (op n : Nat) (f : Nat → W64) :
    (s.load i op n f).held = (s.at i.time).held :=
  State.issue_held _ _ _ _ _ _ _ (fun _ => by simp)

@[simp] theorem State.store_held (s : State) (i : Issue) (op n : Nat) : (s.store i op n).held = (s.at i.time).held :=
  State.issue_held _ _ _ _ _ _ _ (fun _ => by dsimp only; split <;> simp)

@[simp] theorem State.issueTrig_held (s : State) (i : Issue) (op : Nat) : (s.issueTrig i op).held = (s.at i.time).held :=
  State.issue_held _ _ _ _ _ _ _ (fun _ => by simp)

@[simp] theorem State.issueLane_held (s : State) (i : Issue) (op : Nat) : (s.issueLane i op).held = (s.at i.time).held :=
  State.issue_held _ _ _ _ _ _ _ (fun _ => by simp)

@[simp] theorem State.vec2_held (s : State) (i : Issue) (op : Nat) (f : Nat → Nat → Nat × Flags) :
    (s.vec2 i op f).held = (s.at i.time).held :=
  State.issue_held _ _ _ _ _ _ _ (fun _ => by simp)

@[simp] theorem State.reduce_held (s : State) (i : Issue) (op : Nat) (f : Nat → Nat → Nat × Flags) :
    (s.reduce i op f).held = (s.at i.time).held :=
  State.issue_held _ _ _ _ _ _ _ (fun _ => by split <;> simp)

/-! ## The commands -/

theorem operational_held (body : State → Done) (h : ∀ u, (body u).2.2.held = u.held) (u : State) :
    (operational body u).2.2.held = u.held := by
  unfold operational
  split
  · rfl
  · exact h u

theorem execMbxNop_keeps (t : Instant) (m : MbxCmd) (s : State) : Keeps (s.at t) (execMbxNop t m s) :=
  .of (State.mailbox_held _ _ _ _ (fun _ => rfl))

theorem execMoltRelease_keeps (t : Instant) (m : MbxCmd) (s : State) : Keeps (s.at t) (execMoltRelease t m s) :=
  .of (State.mailbox_held _ _ _ _ (operational_held _ (fun u => by
    unfold State.moltRelease; dsimp only; (repeat' split) <;> simp [State.drawn])))

theorem execPartRearm_keeps (t : Instant) (m : MbxCmd) (s : State) : Keeps (s.at t) (execPartRearm t m s) :=
  .of (State.mailbox_held _ _ _ _ (operational_held _ (fun u => by
    unfold State.partRearm; dsimp only; (repeat' split) <;> simp)))

theorem execSetPowerLimit_keeps (t : Instant) (m : MbxCmd) (s : State) : Keeps (s.at t) (execSetPowerLimit t m s) :=
  .of (State.mailbox_held _ _ _ _ (operational_held _ (fun u => by
    unfold State.operatorLimit; dsimp only; (repeat' split) <;> simp)))

theorem State.setLampCfg_held (s : State) (i : Nat) (v : W32) : (s.setLampCfg i v).held = s.held := by
  unfold State.setLampCfg
  split <;> simp

theorem execSetLamp_keeps (t : Instant) (seq b0 b1 b2 : Byte) (s : State) : Keeps (s.at t) (execSetLamp t seq b0 b1 b2 s) := by
  unfold execSetLamp
  dsimp only
  generalize s.at t = u
  split
  · exact .of rfl
  · exact .of (State.sequenced_held _ _ _ _ (fun u => by (repeat' split) <;> simp [State.setLampCfg_held]))

theorem execEmergencyArm_keeps (t : Instant) (seq p : Byte) (s : State) : Keeps (s.at t) (execEmergencyArm t seq p s) := by
  unfold execEmergencyArm
  dsimp only
  generalize s.at t = u
  split
  · exact .of rfl
  · exact .of (State.sequenced_held _ _ _ _ (fun u => by (repeat' split) <;> simp))

theorem execSbSetPowerLimit_keeps (t : Instant) (seq : Byte) (v : BitVec 16) (s : State) :
    Keeps (s.at t) (execSbSetPowerLimit t seq v s) := by
  unfold execSbSetPowerLimit
  dsimp only
  generalize s.at t = u
  split
  · exact .of rfl
  · exact .of (State.sequenced_held _ _ _ _ (fun u => by (repeat' split) <;> simp))

theorem execRmaInWrite_keeps (t : Instant) (x : RmaPkt) (s : State) : Keeps (s.at t) (execRmaInWrite t x s) :=
  .of (State.takeRma_held _ _ _ (fun u => by simp))

theorem execRmaInWriteFlag_keeps (t : Instant) (x : RmaPkt) (s : State) : Keeps (s.at t) (execRmaInWriteFlag t x s) :=
  .of (State.takeRma_held _ _ _ (fun u => by simp))

theorem execRmaInRead_keeps (t : Instant) (x : RmaPkt) (l : List (Nat × Ecc)) (s : State) :
    Keeps (s.at t) (execRmaInRead t x l s) :=
  .of (State.takeRma_held _ _ _ (fun u => by simp))

theorem execRmaInFetchAdd_keeps (t : Instant) (x : RmaPkt) (l : List (Nat × Ecc)) (s : State) :
    Keeps (s.at t) (execRmaInFetchAdd t x l s) :=
  .of (State.takeRma_held _ _ _ (fun u => by simp))

theorem execRmaInCmpSwap_keeps (t : Instant) (x : RmaPkt) (l : List (Nat × Ecc)) (s : State) :
    Keeps (s.at t) (execRmaInCmpSwap t x l s) :=
  .of (State.takeRma_held _ _ _ (fun u => by simp))

theorem execRmaInSend_keeps (t : Instant) (x : RmaPkt) (s : State) : Keeps (s.at t) (execRmaInSend t x s) :=
  .of (State.takeRma_held _ _ _ (fun u => by simp))

theorem execRmaInClose_keeps (t : Instant) (x : RmaPkt) (s : State) : Keeps (s.at t) (execRmaInClose t x s) :=
  .of (State.takeRma_held _ _ _ (fun u => State.inbound_held _ _ _ _ (fun _ _ _ => by simp) (fun _ _ _ => rfl)))

theorem State.ended_held (s : State) (a b c d e f : Nat) : (s.ended a b c d e f).2.2.held = s.held := by
  unfold State.ended; simp [State.imgStatus, State.drawn]

theorem State.loadPart_held (s : State) (n : Nat) (keep : Bool) (i : PartImage) (load : LoadOutcome) (ack : List TowerId) :
    (s.loadPart n keep i load ack).2.held = s.held := by
  unfold State.loadPart
  dsimp only
  (repeat' split) <;> simp

theorem State.loadStage_held (s : State) (n : Nat) (keep : Bool) (i : PartImage) (load : LoadOutcome) (ack : List TowerId) :
    (s.loadStage n keep i load ack).2.2.held = s.held := by
  unfold State.loadStage
  have h := s.loadPart_held n keep i load ack
  split <;> rename_i e <;> rw [e] at h <;> exact (State.ended_held _ _ _ _ _ _ _).trans h

theorem execFrameCommit_keeps (t : Instant) (m : MbxCmd) (load : LoadOutcome) (ack : List TowerId) (s : State) :
    Keeps (s.at t) (execFrameCommit t m load ack s) :=
  .of (State.mailbox_held _ _ _ _ (operational_held _ (fun u => by
    unfold State.frameBody State.frameStages State.refusedAt State.accepted
    dsimp only
    (repeat' split) <;> simp [State.ended_held, State.admStatus_held])))

theorem execPartCommit_keeps (t : Instant) (m : MbxCmd) (load : LoadOutcome) (ack : List TowerId) (s : State) :
    Keeps (s.at t) (execPartCommit t m load ack s) :=
  .of (State.mailbox_held _ _ _ _ (operational_held _ (fun u => by
    unfold State.partBody State.partStages State.refusedAt
    dsimp only
    (repeat' split) <;> simp [State.ended_held, State.admStatus_held, State.loadStage_held, State.imgStatus])))

theorem execCommitResume_keeps (t : Instant) (load : LoadOutcome) (ack : List TowerId) (s : State) :
    Keeps (s.at t) (execCommitResume t load ack s) := by
  unfold execCommitResume
  dsimp only
  generalize s.at t = u
  (repeat' split) <;> first | exact .of rfl | exact .of (by simp [State.loadStage_held])

theorem execBandRelaxExpiry_keeps (t : Instant) (b : BandOf) (s : State) : Keeps (s.at t) (execBandRelaxExpiry t b s) := by
  unfold execBandRelaxExpiry
  dsimp only
  generalize s.at t = u
  split
  · exact .of (by cases b <;> simp [State.setBand])
  · exact .of rfl

theorem execQuantWindowEnd_keeps (t : Instant) (x : Traffic) (s : State) : Keeps (s.at t) (execQuantWindowEnd t x s) := by
  unfold execQuantWindowEnd
  dsimp only
  generalize s.at t = u
  split
  · exact .of rfl
  · refine .of ?_
    rw [State.each_held _ _ _ (fun u c => by split <;> simp), State.each_held _ _ _ (fun u c => by simp)]
    simp

theorem execLampCfgWrite_keeps (t : Instant) (f : Fn) (lamp : Fin 12) (v : W32) (s : State) :
    Keeps (s.at t) (execLampCfgWrite t f lamp v s) := by
  unfold execLampCfgWrite State.setLampCfg
  dsimp only
  generalize s.at t = u
  (repeat' split) <;> exact .of (by simp)

theorem execPortEnable_keeps (t : Instant) (p : PortId) (v : W32) (s : State) : Keeps (s.at t) (execPortEnable t p v s) := by
  unfold execPortEnable
  extract_lets w n
  split
  · exact .of rfl
  · rename_i q cost q' u1 u2 _
    have h1 : u1.held = w.held := State.setPort_held _ _ _
    have h2 : u2.held = w.held := by
      show (if _ then _ else _ : State).held = _
      split
      · rw [State.dropAdjacencies_held, h1]
      · split
        · rw [State.sendLsr_held, h1]
        · exact h1
    refine .of ?_
    split
    · rw [State.trainPort_held, h2]
    · exact h2

theorem execSliceScrubTransfer_keeps (t : Instant) (x : SliceXfer) (waiting : Bool) (s : State) :
    Keeps (s.at t) (execSliceScrubTransfer t x waiting s) := by
  unfold execSliceScrubTransfer
  dsimp only
  generalize s.at t = u
  split
  · exact .of rfl
  · split
    · exact .of (by simp)
    · split
      · exact .of (by simp)
      · refine .of ?_
        rw [State.countTower_held, State.modCore_held, State.each_held]
        · simp
        · intro v n
          split <;> simp

theorem execNbuCommandEnqueue_keeps (t : Instant) (k : StackId) (pc : ChanId) (region : RegionId) (c : CoreId) (cmd : Bytes)
    (s : State) : Keeps (s.at t) (execNbuCommandEnqueue t k pc region c cmd s) := by
  unfold execNbuCommandEnqueue
  dsimp only
  generalize s.at t = u
  cases h : u.nbuPush k.val pc.val region.val c.val ((cmd ++ List.replicate 32 0).take 32) with
  | none => exact .of rfl
  | some v => exact .of (State.nbuPush_held h)

theorem execTapBypass_keeps (t : Instant) (tdi : List Bool) (s : State) : Keeps (s.at t) (execTapBypass t tdi s) := .of rfl

theorem execTapSamplePreload_keeps (t : Instant) (pins tdi : List Bool) (s : State) : Keeps (s.at t) (execTapSamplePreload t pins tdi s) := .of rfl

theorem execTapExtest_keeps (t : Instant) (pins tdi : List Bool) (s : State) : Keeps (s.at t) (execTapExtest t pins tdi s) := .of rfl

theorem execTapClamp_keeps (t : Instant) (tdi : List Bool) (s : State) : Keeps (s.at t) (execTapClamp t tdi s) := .of rfl

theorem execTapHighz_keeps (t : Instant) (tdi : List Bool) (s : State) : Keeps (s.at t) (execTapHighz t tdi s) := .of rfl

theorem State.tim_held (s : State) (x : Tim) : State.held { s with tim := x } = s.held := rfl

theorem execPpsOutEdge_keeps (t : Instant) (s : State) : Keeps (s.at t) (execPpsOutEdge t s) := by
  unfold execPpsOutEdge
  extract_lets w
  split
  · exact .of rfl
  · rename_i u _
    refine .of ?_
    have h : u.held = w.held := State.tim_held w _
    split
    · rw [State.refreshUnc_held, State.takeStep_held, h]
    · exact h

theorem execLinkTrainTimeout_keeps (t : Instant) (s : State) : Keeps (s.at t) (execLinkTrainTimeout t s) := by
  unfold execLinkTrainTimeout
  try dsimp only
  generalize s.at t = u
  (repeat' split) <;> first | exact .of (by with_reducible rfl) | exact .of (by simp [State.each_held, foldl_held, apply_ite State.held])

theorem execPcieLinkUp_keeps (t : Instant) (speed : BitVec 4) (width : BitVec 6) (s : State) : Keeps (s.at t) (execPcieLinkUp t speed width s) := by
  unfold execPcieLinkUp
  try dsimp only
  generalize s.at t = u
  (repeat' split) <;> first | exact .of (by with_reducible rfl) | exact .of (by simp [State.each_held, foldl_held, apply_ite State.held])

theorem execVfFlr_keeps (t : Instant) (n : PartId) (s : State) : Keeps (s.at t) (execVfFlr t n s) := by
  unfold execVfFlr
  try dsimp only
  generalize s.at t = u
  (repeat' split) <;> first | exact .of (by with_reducible rfl) | exact .of (by simp [State.each_held, foldl_held, apply_ite State.held])

theorem execVfEnableChange_keeps (t : Instant) (numVfs : Fin 33) (vfEnable : Bool) (bme : W32) (s : State) : Keeps (s.at t) (execVfEnableChange t numVfs vfEnable bme s) := by
  unfold execVfEnableChange
  try dsimp only
  generalize s.at t = u
  (repeat' split) <;> first | exact .of (by with_reducible rfl) | exact .of (by simp [State.each_held, foldl_held, apply_ite State.held])

theorem execDoeSpdmMessage_keeps (t : Instant) (x : SpdmEvent) (s : State) : Keeps (s.at t) (execDoeSpdmMessage t x s) := by
  unfold execDoeSpdmMessage
  try dsimp only
  generalize s.at t = u
  (repeat' split) <;> first | exact .of (by with_reducible rfl) | exact .of (by simp [State.each_held, foldl_held, apply_ite State.held])

theorem execRegionOverwriteEnd_keeps (t : Instant) (n : PartId) (s : State) : Keeps (s.at t) (execRegionOverwriteEnd t n s) := by
  unfold execRegionOverwriteEnd
  try dsimp only
  generalize s.at t = u
  (repeat' split) <;> first | exact .of (by with_reducible rfl) | exact .of (by simp [State.each_held, foldl_held, apply_ite State.held])

theorem execEntdaa_keeps (t : Instant) (addr : BitVec 7) (s : State) : Keeps (s.at t) (execEntdaa t addr s) := by
  unfold execEntdaa
  try dsimp only
  generalize s.at t = u
  (repeat' split) <;> first | exact .of (by with_reducible rfl) | exact .of (by simp [State.each_held, foldl_held, apply_ite State.held])

theorem execSetdasa_keeps (t : Instant) (static addr : BitVec 7) (s : State) : Keeps (s.at t) (execSetdasa t static addr s) := by
  unfold execSetdasa
  try dsimp only
  generalize s.at t = u
  (repeat' split) <;> first | exact .of (by with_reducible rfl) | exact .of (by simp [State.each_held, foldl_held, apply_ite State.held])

theorem execRstdaa_keeps (t : Instant) (s : State) : Keeps (s.at t) (execRstdaa t s) := by
  unfold execRstdaa
  try dsimp only
  generalize s.at t = u
  (repeat' split) <;> first | exact .of (by with_reducible rfl) | exact .of (by simp [State.each_held, foldl_held, apply_ite State.held])

theorem execEnec_keeps (t : Instant) (s : State) : Keeps (s.at t) (execEnec t s) := by
  unfold execEnec
  try dsimp only
  generalize s.at t = u
  (repeat' split) <;> first | exact .of (by with_reducible rfl) | exact .of (by simp [State.each_held, foldl_held, apply_ite State.held])

theorem execDisec_keeps (t : Instant) (s : State) : Keeps (s.at t) (execDisec t s) := by
  unfold execDisec
  try dsimp only
  generalize s.at t = u
  (repeat' split) <;> first | exact .of (by with_reducible rfl) | exact .of (by simp [State.each_held, foldl_held, apply_ite State.held])

theorem execGetpid_keeps (t : Instant) (s : State) : Keeps (s.at t) (execGetpid t s) := by
  unfold execGetpid
  try dsimp only
  generalize s.at t = u
  (repeat' split) <;> first | exact .of (by with_reducible rfl) | exact .of (by simp [State.each_held, foldl_held, apply_ite State.held])

theorem execGetbcr_keeps (t : Instant) (s : State) : Keeps (s.at t) (execGetbcr t s) := by
  unfold execGetbcr
  try dsimp only
  generalize s.at t = u
  (repeat' split) <;> first | exact .of (by with_reducible rfl) | exact .of (by simp [State.each_held, foldl_held, apply_ite State.held])

theorem execGetdcr_keeps (t : Instant) (s : State) : Keeps (s.at t) (execGetdcr t s) := by
  unfold execGetdcr
  try dsimp only
  generalize s.at t = u
  (repeat' split) <;> first | exact .of (by with_reducible rfl) | exact .of (by simp [State.each_held, foldl_held, apply_ite State.held])

theorem execGetstatus_keeps (t : Instant) (s : State) : Keeps (s.at t) (execGetstatus t s) := by
  unfold execGetstatus
  try dsimp only
  generalize s.at t = u
  (repeat' split) <;> first | exact .of (by with_reducible rfl) | exact .of (by simp [State.each_held, foldl_held, apply_ite State.held])

theorem execGetmxds_keeps (t : Instant) (s : State) : Keeps (s.at t) (execGetmxds t s) := by
  unfold execGetmxds
  try dsimp only
  generalize s.at t = u
  (repeat' split) <;> first | exact .of (by with_reducible rfl) | exact .of (by simp [State.each_held, foldl_held, apply_ite State.held])

theorem execGetId_keeps (x : SbCall) (s : State) : Keeps (s.at x.time) (execGetId x s) := by
  unfold execGetId
  try dsimp only
  generalize s.at x.time = u
  (repeat' split) <;> first | exact .of (by with_reducible rfl) | exact .of (by simp [State.each_held, foldl_held, apply_ite State.held])

theorem execGetState_keeps (t : Instant) (s : State) : Keeps (s.at t) (execGetState t s) := by
  unfold execGetState
  try dsimp only
  generalize s.at t = u
  (repeat' split) <;> first | exact .of (by with_reducible rfl) | exact .of (by simp [State.each_held, foldl_held, apply_ite State.held])

theorem execGetTemp_keeps (t : Instant) (s : State) : Keeps (s.at t) (execGetTemp t s) := by
  unfold execGetTemp
  try dsimp only
  generalize s.at t = u
  (repeat' split) <;> first | exact .of (by with_reducible rfl) | exact .of (by simp [State.each_held, foldl_held, apply_ite State.held])

theorem execGetPower_keeps (t : Instant) (s : State) : Keeps (s.at t) (execGetPower t s) := by
  unfold execGetPower
  try dsimp only
  generalize s.at t = u
  (repeat' split) <;> first | exact .of (by with_reducible rfl) | exact .of (by simp [State.each_held, foldl_held, apply_ite State.held])

theorem execGetTelemetry_keeps (t : Instant) (first : BitVec 16) (count : Byte) (s : State) : Keeps (s.at t) (execGetTelemetry t first count s) := by
  unfold execGetTelemetry
  try dsimp only
  generalize s.at t = u
  (repeat' split) <;> first | exact .of (by with_reducible rfl) | exact .of (by simp [State.each_held, foldl_held, apply_ite State.held])

theorem execGetLimits_keeps (t : Instant) (s : State) : Keeps (s.at t) (execGetLimits t s) := by
  unfold execGetLimits
  try dsimp only
  generalize s.at t = u
  (repeat' split) <;> first | exact .of (by with_reducible rfl) | exact .of (by simp [State.each_held, foldl_held, apply_ite State.held])

theorem execGetLamp_keeps (t : Instant) (lamp : Byte) (s : State) : Keeps (s.at t) (execGetLamp t lamp s) := by
  unfold execGetLamp
  try dsimp only
  generalize s.at t = u
  (repeat' split) <;> first | exact .of (by with_reducible rfl) | exact .of (by simp [State.each_held, foldl_held, apply_ite State.held])

theorem execGetTripCause_keeps (t : Instant) (s : State) : Keeps (s.at t) (execGetTripCause t s) := by
  unfold execGetTripCause
  try dsimp only
  generalize s.at t = u
  (repeat' split) <;> first | exact .of (by with_reducible rfl) | exact .of (by simp [State.each_held, foldl_held, apply_ite State.held])

theorem execClearAlert_keeps (t : Instant) (mask : Byte) (s : State) : Keeps (s.at t) (execClearAlert t mask s) := by
  unfold execClearAlert
  try dsimp only
  generalize s.at t = u
  (repeat' split) <;> first | exact .of (by with_reducible rfl) | exact .of (by simp [State.each_held, foldl_held, apply_ite State.held])

theorem execPowerLoopTick_keeps (t : Instant) (average : Nat) (unacked : List Nat) (s : State) : Keeps (s.at t) (execPowerLoopTick t average unacked s) := by
  unfold execPowerLoopTick
  try dsimp only
  generalize s.at t = u
  (repeat' split) <;> first | exact .of (by with_reducible rfl) | exact .of (by simp [State.each_held, foldl_held, apply_ite State.held])

theorem execThermalRound_keeps (t : Instant) (s : State) : Keeps (s.at t) (execThermalRound t s) := by
  unfold execThermalRound
  try dsimp only
  generalize s.at t = u
  (repeat' split) <;> first | exact .of (by with_reducible rfl) | exact .of (by simp [State.each_held, foldl_held, apply_ite State.held])

theorem execSensorSample_keeps (t : Instant) (sensor : Fin 560) (reading : BitVec 16) (check : SensorFault) (s : State) : Keeps (s.at t) (execSensorSample t sensor reading check s) := by
  unfold execSensorSample
  try dsimp only
  generalize s.at t = u
  (repeat' split) <;> first | exact .of (by with_reducible rfl) | exact .of (by simp [State.each_held, foldl_held, apply_ite State.held])

theorem execTmonWindowEnd_keeps (t : Instant) (c : CoreId) (tempo : BitVec 12) (s : State) : Keeps (s.at t) (execTmonWindowEnd t c tempo s) := by
  unfold execTmonWindowEnd
  try dsimp only
  generalize s.at t = u
  (repeat' split) <;> first | exact .of (by with_reducible rfl) | exact .of (by simp [State.each_held, foldl_held, apply_ite State.held])

theorem execTmonMinClear_keeps (t : Instant) (c : CoreId) (s : State) : Keeps (s.at t) (execTmonMinClear t c s) := by
  unfold execTmonMinClear
  try dsimp only
  generalize s.at t = u
  (repeat' split) <;> first | exact .of (by with_reducible rfl) | exact .of (by simp [State.each_held, foldl_held, apply_ite State.held])

theorem execPaceToken_keeps (t : Instant) (w : TowerId) (s : State) : Keeps (s.at t) (execPaceToken t w s) := by
  unfold execPaceToken
  try dsimp only
  generalize s.at t = u
  (repeat' split) <;> first | exact .of (by with_reducible rfl) | exact .of (by simp [State.each_held, foldl_held, apply_ite State.held])

theorem execMeshTransfer_keeps (t : Instant) (c : CoreId) (d : Dir) (wires : List (BitVec 4)) (ep : EpId) (s : State) : Keeps (s.at t) (execMeshTransfer t c d wires ep s) := by
  unfold execMeshTransfer
  try dsimp only
  generalize s.at t = u
  (repeat' split) <;> first | exact .of (by with_reducible rfl) | exact .of (by simp [State.each_held, foldl_held, apply_ite State.held])

theorem execBridgeTrafficArrive_keeps (t : Instant) (b : Fin 16) (tag : PartId) (c : CoreId) (ep : EpId) (x : Item) (s : State) : Keeps (s.at t) (execBridgeTrafficArrive t b tag c ep x s) := by
  unfold execBridgeTrafficArrive
  try dsimp only
  generalize s.at t = u
  (repeat' split) <;> first | exact .of (by with_reducible rfl) | exact .of (by simp [State.each_held, foldl_held, apply_ite State.held])

theorem execNbRequest_keeps (t : Instant) (r : NbReq) (s : State) : Keeps (s.at t) (execNbRequest t r s) := by
  unfold execNbRequest
  try dsimp only
  generalize s.at t = u
  (repeat' split) <;> first | exact .of (by with_reducible rfl) | exact .of (by simp [State.each_held, foldl_held, apply_ite State.held])

theorem execApertureRead_keeps (t : Instant) (n : PartId) (offset count : Nat) (upsets : List (Nat × Ecc)) (s : State) : Keeps (s.at t) (execApertureRead t n offset count upsets s) := by
  unfold execApertureRead
  try dsimp only
  generalize s.at t = u
  (repeat' split) <;> first | exact .of (by with_reducible rfl) | exact .of (by simp [State.each_held, foldl_held, apply_ite State.held])

theorem execApertureWrite_keeps (t : Instant) (n : PartId) (offset : Nat) (data : Bytes) (s : State) : Keeps (s.at t) (execApertureWrite t n offset data s) := by
  unfold execApertureWrite
  try dsimp only
  generalize s.at t = u
  (repeat' split) <;> first | exact .of (by with_reducible rfl) | exact .of (by simp [State.each_held, foldl_held, apply_ite State.held])

theorem execLaunchDoorbell_keeps (t : Instant) (f : Fn) (ring : Nat) (v : W32) (s : State) : Keeps (s.at t) (execLaunchDoorbell t f ring v s) := by
  unfold execLaunchDoorbell
  try dsimp only
  generalize s.at t = u
  (repeat' split) <;> first | exact .of (by with_reducible rfl) | exact .of (by simp [State.each_held, foldl_held, apply_ite State.held])

theorem execCompletionDoorbell_keeps (t : Instant) (f : Fn) (ring : Nat) (v : W32) (s : State) : Keeps (s.at t) (execCompletionDoorbell t f ring v s) := by
  unfold execCompletionDoorbell
  try dsimp only
  generalize s.at t = u
  (repeat' split) <;> first | exact .of (by with_reducible rfl) | exact .of (by simp [State.each_held, foldl_held, apply_ite State.held])

theorem execRmaWorkDoorbell_keeps (t : Instant) (f : Fn) (ring : Nat) (v : W32) (s : State) : Keeps (s.at t) (execRmaWorkDoorbell t f ring v s) := by
  unfold execRmaWorkDoorbell
  try dsimp only
  generalize s.at t = u
  (repeat' split) <;> first | exact .of (by with_reducible rfl) | exact .of (by simp [State.each_held, foldl_held, apply_ite State.held])

theorem execRmaEventDoorbell_keeps (t : Instant) (f : Fn) (ring : Nat) (v : W32) (s : State) : Keeps (s.at t) (execRmaEventDoorbell t f ring v s) := by
  unfold execRmaEventDoorbell
  try dsimp only
  generalize s.at t = u
  (repeat' split) <;> first | exact .of (by with_reducible rfl) | exact .of (by simp [State.each_held, foldl_held, apply_ite State.held])

theorem execRingEnable_keeps (t : Instant) (f : Fn) (v : W32) (s : State) : Keeps (s.at t) (execRingEnable t f v s) := by
  unfold execRingEnable
  try dsimp only
  generalize s.at t = u
  (repeat' split) <;> first | exact .of (by with_reducible rfl) | exact .of (by simp [State.each_held, foldl_held, apply_ite State.held])

theorem execLaunchRecordRead_keeps (t : Instant) (p : PartId) (r : Nat) (record : Bytes) (block : Option Bytes) (s : State) : Keeps (s.at t) (execLaunchRecordRead t p r record block s) := by
  unfold execLaunchRecordRead
  try dsimp only
  generalize s.at t = u
  (repeat' split) <;> first | exact .of (by with_reducible rfl) | exact .of (by simp [State.each_held, foldl_held, apply_ite State.held])

theorem execLaunchStart_keeps (t : Instant) (p : PartId) (id : Nat) (s : State) : Keeps (s.at t) (execLaunchStart t p id s) := by
  unfold execLaunchStart
  try dsimp only
  generalize s.at t = u
  (repeat' split) <;> first | exact .of (by with_reducible rfl) | exact .of (by simp [State.each_held, foldl_held, apply_ite State.held])

theorem execLaunchEnd_keeps (t : Instant) (p : PartId) (id : Nat) (s : State) : Keeps (s.at t) (execLaunchEnd t p id s) := by
  unfold execLaunchEnd
  try dsimp only
  generalize s.at t = u
  (repeat' split) <;> first | exact .of (by with_reducible rfl) | exact .of (by simp [State.each_held, foldl_held, apply_ite State.held])

theorem execPreempt_keeps (t : Instant) (c : CoreId) (s : State) : Keeps (s.at t) (execPreempt t c s) := by
  unfold execPreempt
  try dsimp only
  generalize s.at t = u
  (repeat' split) <;> first | exact .of (by with_reducible rfl) | exact .of (by simp [State.each_held, foldl_held, apply_ite State.held])

theorem execContextSaveComplete_keeps (t : Instant) (c : CoreId) (s : State) : Keeps (s.at t) (execContextSaveComplete t c s) := by
  unfold execContextSaveComplete
  try dsimp only
  generalize s.at t = u
  (repeat' split) <;> first | exact .of (by with_reducible rfl) | exact .of (by simp [State.each_held, foldl_held, apply_ite State.held])

theorem execResume_keeps (t : Instant) (c : CoreId) (s : State) : Keeps (s.at t) (execResume t c s) := by
  unfold execResume
  try dsimp only
  generalize s.at t = u
  (repeat' split) <;> first | exact .of (by with_reducible rfl) | exact .of (by simp [State.each_held, foldl_held, apply_ite State.held])

theorem execPoolTake_keeps (t : Instant) (f : Fn) (pool : Fin 1024) (s : State) : Keeps (s.at t) (execPoolTake t f pool s) := by
  unfold execPoolTake
  try dsimp only
  generalize s.at t = u
  (repeat' split) <;> first | exact .of (by with_reducible rfl) | exact .of (by simp [State.each_held, foldl_held, apply_ite State.held])

theorem execPoolFree_keeps (t : Instant) (f : Fn) (pool : Fin 1024) (v : W32) (s : State) : Keeps (s.at t) (execPoolFree t f pool v s) := by
  unfold execPoolFree
  try dsimp only
  generalize s.at t = u
  (repeat' split) <;> first | exact .of (by with_reducible rfl) | exact .of (by simp [State.each_held, foldl_held, apply_ite State.held])

theorem execAdd_keeps (i : Issue) (s : State) : Keeps (s.at i.time) (execAdd i s) := by
  exact .of (by simp)

theorem execSub_keeps (i : Issue) (s : State) : Keeps (s.at i.time) (execSub i s) := by
  exact .of (by simp)

theorem execAndReg_keeps (i : Issue) (s : State) : Keeps (s.at i.time) (execAndReg i s) := by
  exact .of (by simp)

theorem execOrReg_keeps (i : Issue) (s : State) : Keeps (s.at i.time) (execOrReg i s) := by
  exact .of (by simp)

theorem execXorReg_keeps (i : Issue) (s : State) : Keeps (s.at i.time) (execXorReg i s) := by
  exact .of (by simp)

theorem execSll_keeps (i : Issue) (s : State) : Keeps (s.at i.time) (execSll i s) := by
  exact .of (by simp)

theorem execSrl_keeps (i : Issue) (s : State) : Keeps (s.at i.time) (execSrl i s) := by
  exact .of (by simp)

theorem execSra_keeps (i : Issue) (s : State) : Keeps (s.at i.time) (execSra i s) := by
  exact .of (by simp)

theorem execSlt_keeps (i : Issue) (s : State) : Keeps (s.at i.time) (execSlt i s) := by
  exact .of (by simp)

theorem execSltu_keeps (i : Issue) (s : State) : Keeps (s.at i.time) (execSltu i s) := by
  exact .of (by simp)

theorem execMinReg_keeps (i : Issue) (s : State) : Keeps (s.at i.time) (execMinReg i s) := by
  exact .of (by simp)

theorem execMaxReg_keeps (i : Issue) (s : State) : Keeps (s.at i.time) (execMaxReg i s) := by
  exact .of (by simp)

theorem execMul_keeps (i : Issue) (s : State) : Keeps (s.at i.time) (execMul i s) := by
  exact .of (by simp)

theorem execMulhu_keeps (i : Issue) (s : State) : Keeps (s.at i.time) (execMulhu i s) := by
  exact .of (by simp)

theorem execDivu_keeps (i : Issue) (s : State) : Keeps (s.at i.time) (execDivu i s) := by
  exact .of (by simp)

theorem execRemu_keeps (i : Issue) (s : State) : Keeps (s.at i.time) (execRemu i s) := by
  exact .of (by simp)

theorem execAddi_keeps (i : Issue) (s : State) : Keeps (s.at i.time) (execAddi i s) := by
  exact .of (by simp)

theorem execAndi_keeps (i : Issue) (s : State) : Keeps (s.at i.time) (execAndi i s) := by
  exact .of (by simp)

theorem execOri_keeps (i : Issue) (s : State) : Keeps (s.at i.time) (execOri i s) := by
  exact .of (by simp)

theorem execXori_keeps (i : Issue) (s : State) : Keeps (s.at i.time) (execXori i s) := by
  exact .of (by simp)

theorem execSlli_keeps (i : Issue) (s : State) : Keeps (s.at i.time) (execSlli i s) := by
  exact .of (by simp)

theorem execSrli_keeps (i : Issue) (s : State) : Keeps (s.at i.time) (execSrli i s) := by
  exact .of (by simp)

theorem execSrai_keeps (i : Issue) (s : State) : Keeps (s.at i.time) (execSrai i s) := by
  exact .of (by simp)

theorem execSlti_keeps (i : Issue) (s : State) : Keeps (s.at i.time) (execSlti i s) := by
  exact .of (by simp)

theorem execMovhi_keeps (i : Issue) (s : State) : Keeps (s.at i.time) (execMovhi i s) := by
  exact .of (State.issue_held _ _ _ _ _ _ _ (fun s => by
    try dsimp only
    (repeat' split) <;> simp [State.each_held, foldl_held, apply_ite State.held]))

theorem execBeq_keeps (i : Issue) (s : State) : Keeps (s.at i.time) (execBeq i s) := by
  exact .of (by simp)

theorem execBne_keeps (i : Issue) (s : State) : Keeps (s.at i.time) (execBne i s) := by
  exact .of (by simp)

theorem execBlt_keeps (i : Issue) (s : State) : Keeps (s.at i.time) (execBlt i s) := by
  exact .of (by simp)

theorem execBge_keeps (i : Issue) (s : State) : Keeps (s.at i.time) (execBge i s) := by
  exact .of (by simp)

theorem execBltu_keeps (i : Issue) (s : State) : Keeps (s.at i.time) (execBltu i s) := by
  exact .of (by simp)

theorem execBgeu_keeps (i : Issue) (s : State) : Keeps (s.at i.time) (execBgeu i s) := by
  exact .of (by simp)

theorem execJal_keeps (i : Issue) (s : State) : Keeps (s.at i.time) (execJal i s) := by
  exact .of (State.issue_held _ _ _ _ _ _ _ (fun s => by
    try dsimp only
    (repeat' split) <;> simp [State.each_held, foldl_held, apply_ite State.held]))

theorem execJalr_keeps (i : Issue) (s : State) : Keeps (s.at i.time) (execJalr i s) := by
  exact .of (State.issue_held _ _ _ _ _ _ _ (fun s => by
    try dsimp only
    (repeat' split) <;> simp [State.each_held, foldl_held, apply_ite State.held]))

theorem execLoop_keeps (i : Issue) (s : State) : Keeps (s.at i.time) (execLoop i s) := by
  exact .of (State.issue_held _ _ _ _ _ _ _ (fun s => by
    try dsimp only
    (repeat' split) <;> simp [State.each_held, foldl_held, apply_ite State.held]))

theorem execLd8u_keeps (i : Issue) (s : State) : Keeps (s.at i.time) (execLd8u i s) := by
  exact .of (by simp)

theorem execLd16u_keeps (i : Issue) (s : State) : Keeps (s.at i.time) (execLd16u i s) := by
  exact .of (by simp)

theorem execLd32u_keeps (i : Issue) (s : State) : Keeps (s.at i.time) (execLd32u i s) := by
  exact .of (by simp)

theorem execLd64_keeps (i : Issue) (s : State) : Keeps (s.at i.time) (execLd64 i s) := by
  exact .of (by simp)

theorem execLd8s_keeps (i : Issue) (s : State) : Keeps (s.at i.time) (execLd8s i s) := by
  exact .of (by simp)

theorem execLd16s_keeps (i : Issue) (s : State) : Keeps (s.at i.time) (execLd16s i s) := by
  exact .of (by simp)

theorem execLd32s_keeps (i : Issue) (s : State) : Keeps (s.at i.time) (execLd32s i s) := by
  exact .of (by simp)

theorem execSt8_keeps (i : Issue) (s : State) : Keeps (s.at i.time) (execSt8 i s) := by
  exact .of (by simp)

theorem execSt16_keeps (i : Issue) (s : State) : Keeps (s.at i.time) (execSt16 i s) := by
  exact .of (by simp)

theorem execSt32_keeps (i : Issue) (s : State) : Keeps (s.at i.time) (execSt32 i s) := by
  exact .of (by simp)

theorem execSt64_keeps (i : Issue) (s : State) : Keeps (s.at i.time) (execSt64 i s) := by
  exact .of (by simp)

theorem execLdv_keeps (i : Issue) (s : State) : Keeps (s.at i.time) (execLdv i s) := by
  exact .of (State.issue_held _ _ _ _ _ _ _ (fun s => by
    try dsimp only
    (repeat' split) <;> simp [State.each_held, foldl_held, apply_ite State.held]))

theorem execStv_keeps (i : Issue) (s : State) : Keeps (s.at i.time) (execStv i s) := by
  exact .of (State.issue_held _ _ _ _ _ _ _ (fun s => by
    try dsimp only
    (repeat' split) <;> simp [State.each_held, foldl_held, apply_ite State.held]))

theorem execLdvb_keeps (i : Issue) (s : State) : Keeps (s.at i.time) (execLdvb i s) := by
  exact .of (State.issue_held _ _ _ _ _ _ _ (fun s => by
    try dsimp only
    (repeat' split) <;> simp [State.each_held, foldl_held, apply_ite State.held]))

theorem execVadd_keeps (i : Issue) (s : State) : Keeps (s.at i.time) (execVadd i s) := by
  exact .of (by simp)

theorem execVsub_keeps (i : Issue) (s : State) : Keeps (s.at i.time) (execVsub i s) := by
  exact .of (by simp)

theorem execVmul_keeps (i : Issue) (s : State) : Keeps (s.at i.time) (execVmul i s) := by
  exact .of (by simp)

theorem execVfma_keeps (i : Issue) (s : State) : Keeps (s.at i.time) (execVfma i s) := by
  exact .of (State.issue_held _ _ _ _ _ _ _ (fun s => by
    try dsimp only
    (repeat' split) <;> simp [State.each_held, foldl_held, apply_ite State.held]))

theorem execVmin_keeps (i : Issue) (s : State) : Keeps (s.at i.time) (execVmin i s) := by
  exact .of (by simp)

theorem execVmax_keeps (i : Issue) (s : State) : Keeps (s.at i.time) (execVmax i s) := by
  exact .of (by simp)

theorem execVcmp_keeps (i : Issue) (s : State) : Keeps (s.at i.time) (execVcmp i s) := by
  exact .of (State.issue_held _ _ _ _ _ _ _ (fun s => by
    try dsimp only
    (repeat' split) <;> simp [State.each_held, foldl_held, apply_ite State.held]))

theorem execVrsum_keeps (i : Issue) (s : State) : Keeps (s.at i.time) (execVrsum i s) := by
  exact .of (by simp)

theorem execVrmax_keeps (i : Issue) (s : State) : Keeps (s.at i.time) (execVrmax i s) := by
  exact .of (by simp)

theorem execVcvt_keeps (i : Issue) (s : State) : Keeps (s.at i.time) (execVcvt i s) := by
  exact .of (State.issue_held _ _ _ _ _ _ _ (fun s => by
    try dsimp only
    (repeat' split) <;> simp [State.each_held, foldl_held, apply_ite State.held]))

theorem execVperm_keeps (i : Issue) (s : State) : Keeps (s.at i.time) (execVperm i s) := by
  exact .of (State.issue_held _ _ _ _ _ _ _ (fun s => by
    try dsimp only
    (repeat' split) <;> simp [State.each_held, foldl_held, apply_ite State.held]))

theorem execVbcast_keeps (i : Issue) (s : State) : Keeps (s.at i.time) (execVbcast i s) := by
  exact .of (State.issue_held _ _ _ _ _ _ _ (fun s => by
    try dsimp only
    (repeat' split) <;> simp [State.each_held, foldl_held, apply_ite State.held]))

theorem execVmovs_keeps (i : Issue) (s : State) : Keeps (s.at i.time) (execVmovs i s) := by
  exact .of (State.issue_held _ _ _ _ _ _ _ (fun s => by
    try dsimp only
    (repeat' split) <;> simp [State.each_held, foldl_held, apply_ite State.held]))

theorem execAcfg_keeps (i : Issue) (s : State) : Keeps (s.at i.time) (execAcfg i s) := by
  exact .of (State.issue_held _ _ _ _ _ _ _ (fun s => by
    try dsimp only
    (repeat' split) <;> simp [State.each_held, foldl_held, apply_ite State.held]))

theorem execApass_keeps (i : Issue) (s : State) : Keeps (s.at i.time) (execApass i s) := by
  exact .of (State.issue_held _ _ _ _ _ _ _ (fun s => by
    try dsimp only
    (repeat' split) <;> simp [State.each_held, foldl_held, apply_ite State.held]))

theorem execAout_keeps (i : Issue) (s : State) : Keeps (s.at i.time) (execAout i s) := by
  exact .of (State.issue_held _ _ _ _ _ _ _ (fun s => by
    try dsimp only
    (repeat' split) <;> simp [State.each_held, foldl_held, apply_ite State.held]))

theorem execArrayQueueStart_keeps (t : Instant) (c : CoreId) (s : State) : Keeps (s.at t) (execArrayQueueStart t c s) := by
  unfold execArrayQueueStart
  try dsimp only
  generalize s.at t = u
  (repeat' split) <;> first | exact .of (by with_reducible rfl) | exact .of (by simp [State.each_held, foldl_held, apply_ite State.held])

theorem execStripGrant_keeps (t : Instant) (c : CoreId) (n : Inlet) (s : State) : Keeps (s.at t) (execStripGrant t c n s) := by
  unfold execStripGrant
  try dsimp only
  generalize s.at t = u
  (repeat' split) <;> first | exact .of (by with_reducible rfl) | exact .of (by simp [State.each_held, foldl_held, apply_ite State.held])

theorem execStripEnd_keeps (t : Instant) (c : CoreId) (s : State) : Keeps (s.at t) (execStripEnd t c s) := by
  unfold execStripEnd
  try dsimp only
  generalize s.at t = u
  (repeat' split) <;> first | exact .of (by with_reducible rfl) | exact .of (by simp [State.each_held, foldl_held, apply_ite State.held])

theorem execAoutDone_keeps (t : Instant) (c : CoreId) (s : State) : Keeps (s.at t) (execAoutDone t c s) := by
  unfold execAoutDone
  try dsimp only
  generalize s.at t = u
  (repeat' split) <;> first | exact .of (by with_reducible rfl) | exact .of (by simp [State.each_held, foldl_held, apply_ite State.held])

theorem execBeatTimeout_keeps (t : Instant) (c : CoreId) (s : State) : Keeps (s.at t) (execBeatTimeout t c s) := by
  unfold execBeatTimeout
  try dsimp only
  generalize s.at t = u
  (repeat' split) <;> first | exact .of (by with_reducible rfl) | exact .of (by simp [State.each_held, foldl_held, apply_ite State.held])

theorem execSq_keeps (i : Issue) (s : State) : Keeps (s.at i.time) (execSq i s) := by
  exact .of (State.issue_held _ _ _ _ _ _ _ (fun s => by
    try dsimp only
    (repeat' split) <;> simp [State.each_held, foldl_held, apply_ite State.held]))

theorem execSqdef_keeps (i : Issue) (s : State) : Keeps (s.at i.time) (execSqdef i s) := by
  exact .of (State.issue_held _ _ _ _ _ _ _ (fun s => by
    try dsimp only
    (repeat' split) <;> simp [State.each_held, foldl_held, apply_ite State.held]))

theorem execSqstat_keeps (i : Issue) (s : State) : Keeps (s.at i.time) (execSqstat i s) := by
  exact .of (State.issue_held _ _ _ _ _ _ _ (fun s => by
    try dsimp only
    (repeat' split) <;> simp [State.each_held, foldl_held, apply_ite State.held]))

theorem execDescriptorStart_keeps (t : Instant) (c : CoreId) (s : State) : Keeps (s.at t) (execDescriptorStart t c s) := by
  unfold execDescriptorStart
  try dsimp only
  generalize s.at t = u
  (repeat' split) <;> first | exact .of (by with_reducible rfl) | exact .of (by simp [State.each_held, foldl_held, apply_ite State.held])

theorem execStreamBurst_keeps (t : Instant) (c : CoreId) (lane : Fin 4) (e : Found) (d : Digits) (s : State) : Keeps (s.at t) (execStreamBurst t c lane e d s) := by
  unfold execStreamBurst
  try dsimp only
  generalize s.at t = u
  (repeat' split) <;> first | exact .of (by with_reducible rfl) | exact .of (by simp [State.each_held, foldl_held, apply_ite State.held])

theorem execDescriptorComplete_keeps (t : Instant) (c : CoreId) (lane : Fin 4) (s : State) : Keeps (s.at t) (execDescriptorComplete t c lane s) := by
  unfold execDescriptorComplete
  try dsimp only
  generalize s.at t = u
  (repeat' split) <;> first | exact .of (by with_reducible rfl) | exact .of (by simp [State.each_held, foldl_held, apply_ite State.held])

theorem execStripStallTimeout_keeps (t : Instant) (c : CoreId) (n : Inlet) (s : State) : Keeps (s.at t) (execStripStallTimeout t c n s) := by
  unfold execStripStallTimeout
  try dsimp only
  generalize s.at t = u
  (repeat' split) <;> first | exact .of (by with_reducible rfl) | exact .of (by simp [State.each_held, foldl_held, apply_ite State.held])

theorem execSend_keeps (i : Issue) (s : State) : Keeps (s.at i.time) (execSend i s) := by
  exact .of (State.issue_held _ _ _ _ _ _ _ (fun s => by
    try dsimp only
    (repeat' split) <;> simp [State.each_held, foldl_held, apply_ite State.held]))

theorem execRecv_keeps (i : Issue) (s : State) : Keeps (s.at i.time) (execRecv i s) := by
  exact .of (State.issue_held _ _ _ _ _ _ _ (fun s => by
    try dsimp only
    (repeat' split) <;> simp [State.each_held, foldl_held, apply_ite State.held]))

theorem execToken_keeps (i : Issue) (s : State) : Keeps (s.at i.time) (execToken i s) := by
  exact .of (State.issue_held _ _ _ _ _ _ _ (fun s => by
    try dsimp only
    (repeat' split) <;> simp [State.each_held, foldl_held, apply_ite State.held]))

theorem execPoll_keeps (i : Issue) (s : State) : Keeps (s.at i.time) (execPoll i s) := by
  exact .of (State.issue_held _ _ _ _ _ _ _ (fun s => by
    try dsimp only
    (repeat' split) <;> simp [State.each_held, foldl_held, apply_ite State.held]))

theorem execCreditArrive_keeps (t : Instant) (p : PartId) (ch : Fin 4096) (s : State) : Keeps (s.at t) (execCreditArrive t p ch s) := by
  unfold execCreditArrive
  try dsimp only
  generalize s.at t = u
  (repeat' split) <;> first | exact .of (by with_reducible rfl) | exact .of (by simp [State.each_held, foldl_held, apply_ite State.held])

theorem execMessageArrive_keeps (t : Instant) (p : PartId) (ch : Fin 4096) (s : State) : Keeps (s.at t) (execMessageArrive t p ch s) := by
  unfold execMessageArrive
  try dsimp only
  generalize s.at t = u
  (repeat' split) <;> first | exact .of (by with_reducible rfl) | exact .of (by simp [State.each_held, foldl_held, apply_ite State.held])

theorem execSendComplete_keeps (t : Instant) (p : PartId) (ch : Fin 4096) (s : State) : Keeps (s.at t) (execSendComplete t p ch s) := by
  unfold execSendComplete
  try dsimp only
  generalize s.at t = u
  (repeat' split) <;> first | exact .of (by with_reducible rfl) | exact .of (by simp [State.each_held, foldl_held, apply_ite State.held])

theorem execSin_keeps (i : Issue) (s : State) : Keeps (s.at i.time) (execSin i s) := by
  exact .of (by simp)

theorem execCos_keeps (i : Issue) (s : State) : Keeps (s.at i.time) (execCos i s) := by
  exact .of (by simp)

theorem execRcp_keeps (i : Issue) (s : State) : Keeps (s.at i.time) (execRcp i s) := by
  exact .of (by simp)

theorem execRsqrt_keeps (i : Issue) (s : State) : Keeps (s.at i.time) (execRsqrt i s) := by
  exact .of (by simp)

theorem execTbl_keeps (i : Issue) (n : Fin 4) (s : State) : Keeps (s.at i.time) (execTbl i n s) := by
  exact .of (by simp)

theorem execTblLoad_keeps (i : Issue) (n : Fin 4) (s : State) : Keeps (s.at i.time) (execTblLoad i n s) := by
  exact .of (State.issue_held _ _ _ _ _ _ _ (fun s => by
    try dsimp only
    (repeat' split) <;> simp [State.each_held, foldl_held, apply_ite State.held]))

theorem execRstat_keeps (i : Issue) (s : State) : Keeps (s.at i.time) (execRstat i s) := by
  exact .of (State.issue_held _ _ _ _ _ _ _ (fun s => by
    try dsimp only
    (repeat' split) <;> simp [State.each_held, foldl_held, apply_ite State.held]))

theorem execSfuOpComplete_keeps (t : Instant) (c : CoreId) (s : State) : Keeps (s.at t) (execSfuOpComplete t c s) := by
  unfold execSfuOpComplete
  try dsimp only
  generalize s.at t = u
  (repeat' split) <;> first | exact .of (by with_reducible rfl) | exact .of (by simp [State.each_held, foldl_held, apply_ite State.held])

theorem execTableLoadComplete_keeps (t : Instant) (c : CoreId) (s : State) : Keeps (s.at t) (execTableLoadComplete t c s) := by
  unfold execTableLoadComplete
  try dsimp only
  generalize s.at t = u
  (repeat' split) <;> first | exact .of (by with_reducible rfl) | exact .of (by simp [State.each_held, foldl_held, apply_ite State.held])

theorem execWait_keeps (i : Issue) (s : State) : Keeps (s.at i.time) (execWait i s) := by
  exact .of (State.issue_held _ _ _ _ _ _ _ (fun s => by
    try dsimp only
    (repeat' split) <;> simp [State.each_held, foldl_held, apply_ite State.held]))

theorem execWaitt_keeps (i : Issue) (s : State) : Keeps (s.at i.time) (execWaitt i s) := by
  exact .of (State.issue_held _ _ _ _ _ _ _ (fun s => by
    try dsimp only
    (repeat' split) <;> simp [State.each_held, foldl_held, apply_ite State.held]))

theorem execWaitComplete_keeps (t : Instant) (c : CoreId) (s : State) : Keeps (s.at t) (execWaitComplete t c s) := by
  unfold execWaitComplete
  try dsimp only
  generalize s.at t = u
  (repeat' split) <;> first | exact .of (by with_reducible rfl) | exact .of (by simp [State.each_held, foldl_held, apply_ite State.held])

theorem execWaittTimeout_keeps (t : Instant) (c : CoreId) (s : State) : Keeps (s.at t) (execWaittTimeout t c s) := by
  unfold execWaittTimeout
  try dsimp only
  generalize s.at t = u
  (repeat' split) <;> first | exact .of (by with_reducible rfl) | exact .of (by simp [State.each_held, foldl_held, apply_ite State.held])

theorem execFence_keeps (i : Issue) (s : State) : Keeps (s.at i.time) (execFence i s) := by
  exact .of (State.issue_held _ _ _ _ _ _ _ (fun s => by
    try dsimp only
    (repeat' split) <;> simp [State.each_held, foldl_held, apply_ite State.held]))

theorem execFenceComplete_keeps (t : Instant) (c : CoreId) (s : State) : Keeps (s.at t) (execFenceComplete t c s) := by
  unfold execFenceComplete
  try dsimp only
  generalize s.at t = u
  (repeat' split) <;> first | exact .of (by with_reducible rfl) | exact .of (by simp [State.each_held, foldl_held, apply_ite State.held])

theorem execEndPart_keeps (i : Issue) (s : State) : Keeps (s.at i.time) (execEndPart i s) := by
  exact .of (State.issue_held _ _ _ _ _ _ _ (fun s => by
    try dsimp only
    (repeat' split) <;> simp [State.each_held, foldl_held, apply_ite State.held]))

theorem execCorePartEnd_keeps (t : Instant) (c : CoreId) (s : State) : Keeps (s.at t) (execCorePartEnd t c s) := by
  unfold execCorePartEnd
  try dsimp only
  generalize s.at t = u
  (repeat' split) <;> first | exact .of (by with_reducible rfl) | exact .of (by simp [State.each_held, foldl_held, apply_ite State.held])

theorem execRdsys_keeps (i : Issue) (s : State) : Keeps (s.at i.time) (execRdsys i s) := by
  exact .of (State.issue_held _ _ _ _ _ _ _ (fun s => by
    try dsimp only
    (repeat' split) <;> simp [State.each_held, foldl_held, apply_ite State.held]))

theorem execSoftFault_keeps (i : Issue) (s : State) : Keeps (s.at i.time) (execSoftFault i s) := by
  exact .of (State.issue_held _ _ _ _ _ _ _ (fun s => by
    try dsimp only
    (repeat' split) <;> simp [State.each_held, foldl_held, apply_ite State.held]))

theorem execClrf_keeps (i : Issue) (s : State) : Keeps (s.at i.time) (execClrf i s) := by
  exact .of (State.issue_held _ _ _ _ _ _ _ (fun s => by
    try dsimp only
    (repeat' split) <;> simp [State.each_held, foldl_held, apply_ite State.held]))

theorem execUnitFaultReport_keeps (t : Instant) (c : CoreId) (f : UnitFault) (s : State) : Keeps (s.at t) (execUnitFaultReport t c f s) := by
  unfold execUnitFaultReport
  try dsimp only
  generalize s.at t = u
  (repeat' split) <;> first | exact .of (by with_reducible rfl) | exact .of (by simp [State.each_held, foldl_held, apply_ite State.held])

theorem execPageWindowAccess_keeps (t : Instant) (c : CoreId) (offset : Nat) (v : Option W32) (s : State) : Keeps (s.at t) (execPageWindowAccess t c offset v s) := by
  unfold execPageWindowAccess
  try dsimp only
  generalize s.at t = u
  (repeat' split) <;> first | exact .of (by with_reducible rfl) | exact .of (by simp [State.each_held, foldl_held, apply_ite State.held])

theorem execSliceReadTransfer_keeps (t : Instant) (x : SliceXfer) (s : State) : Keeps (s.at t) (execSliceReadTransfer t x s) := by
  unfold execSliceReadTransfer
  try dsimp only
  generalize s.at t = u
  (repeat' split) <;> first | exact .of (by with_reducible rfl) | exact .of (by simp [State.each_held, foldl_held, apply_ite State.held])

theorem execSliceWriteTransfer_keeps (t : Instant) (x : SliceXfer) (data : Bytes) (mask : BitVec 128) (s : State) : Keeps (s.at t) (execSliceWriteTransfer t x data mask s) := by
  unfold execSliceWriteTransfer
  try dsimp only
  generalize s.at t = u
  (repeat' split) <;> first | exact .of (by with_reducible rfl) | exact .of (by simp [State.each_held, foldl_held, apply_ite State.held])

theorem execSliceRefreshDue_keeps (t : Instant) (c : CoreId) (layer : Fin 4) (fg : Foreground) (s : State) : Keeps (s.at t) (execSliceRefreshDue t c layer fg s) := by
  unfold execSliceRefreshDue
  try dsimp only
  generalize s.at t = u
  (repeat' split) <;> first | exact .of (by with_reducible rfl) | exact .of (by simp [State.each_held, foldl_held, apply_ite State.held])

theorem execNbRefreshDue_keeps (t : Instant) (k : StackId) (pc : ChanId) (fg : Foreground) (s : State) : Keeps (s.at t) (execNbRefreshDue t k pc fg s) := by
  unfold execNbRefreshDue
  try dsimp only
  generalize s.at t = u
  (repeat' split) <;> first | exact .of (by with_reducible rfl) | exact .of (by simp [State.each_held, foldl_held, apply_ite State.held])

theorem execNbScrubTransfer_keeps (t : Instant) (k : StackId) (pc : ChanId) (row word : Nat) (e : Ecc) (waiting : Bool) (s : State) : Keeps (s.at t) (execNbScrubTransfer t k pc row word e waiting s) := by
  unfold execNbScrubTransfer
  try dsimp only
  generalize s.at t = u
  (repeat' split) <;> first | exact .of (by with_reducible rfl) | exact .of (by simp [State.each_held, foldl_held, apply_ite State.held])

theorem execFarCacheCfgWrite_keeps (t : Instant) (w : TowerId) (v : W32) (s : State) : Keeps (s.at t) (execFarCacheCfgWrite t w v s) := by
  unfold execFarCacheCfgWrite
  try dsimp only
  generalize s.at t = u
  (repeat' split) <;> first | exact .of (by with_reducible rfl) | exact .of (by simp [State.each_held, foldl_held, apply_ite State.held])

theorem execNbuNop_keeps (t : Instant) (k : StackId) (pc : ChanId) (s : State) : Keeps (s.at t) (execNbuNop t k pc s) := by
  unfold execNbuNop
  try dsimp only
  generalize s.at t = u
  (repeat' split) <;> first | exact .of (by with_reducible rfl) | exact .of (by simp [State.each_held, foldl_held, apply_ite State.held])

theorem execNbuLoad_keeps (t : Instant) (k : StackId) (pc : ChanId) (upsets : List (Nat × Ecc)) (s : State) : Keeps (s.at t) (execNbuLoad t k pc upsets s) := by
  unfold execNbuLoad
  try dsimp only
  generalize s.at t = u
  (repeat' split) <;> first | exact .of (by with_reducible rfl) | exact .of (by simp [State.each_held, foldl_held, apply_ite State.held])

theorem execNbuSet_keeps (t : Instant) (k : StackId) (pc : ChanId) (s : State) : Keeps (s.at t) (execNbuSet t k pc s) := by
  unfold execNbuSet
  try dsimp only
  generalize s.at t = u
  (repeat' split) <;> first | exact .of (by with_reducible rfl) | exact .of (by simp [State.each_held, foldl_held, apply_ite State.held])

theorem execNbuClracc_keeps (t : Instant) (k : StackId) (pc : ChanId) (s : State) : Keeps (s.at t) (execNbuClracc t k pc s) := by
  unfold execNbuClracc
  try dsimp only
  generalize s.at t = u
  (repeat' split) <;> first | exact .of (by with_reducible rfl) | exact .of (by simp [State.each_held, foldl_held, apply_ite State.held])

theorem execNbuMac_keeps (t : Instant) (k : StackId) (pc : ChanId) (upsets : List (Nat × Ecc)) (s : State) : Keeps (s.at t) (execNbuMac t k pc upsets s) := by
  unfold execNbuMac
  try dsimp only
  generalize s.at t = u
  (repeat' split) <;> first | exact .of (by with_reducible rfl) | exact .of (by simp [State.each_held, foldl_held, apply_ite State.held])

theorem execNbuScore_keeps (t : Instant) (k : StackId) (pc : ChanId) (upsets : List (Nat × Ecc)) (s : State) : Keeps (s.at t) (execNbuScore t k pc upsets s) := by
  unfold execNbuScore
  try dsimp only
  generalize s.at t = u
  (repeat' split) <;> first | exact .of (by with_reducible rfl) | exact .of (by simp [State.each_held, foldl_held, apply_ite State.held])

theorem execNbuEmit_keeps (t : Instant) (k : StackId) (pc : ChanId) (s : State) : Keeps (s.at t) (execNbuEmit t k pc s) := by
  unfold execNbuEmit
  try dsimp only
  generalize s.at t = u
  (repeat' split) <;> first | exact .of (by with_reducible rfl) | exact .of (by simp [State.each_held, foldl_held, apply_ite State.held])

theorem execNbuFence_keeps (t : Instant) (k : StackId) (pc : ChanId) (s : State) : Keeps (s.at t) (execNbuFence t k pc s) := by
  unfold execNbuFence
  try dsimp only
  generalize s.at t = u
  (repeat' split) <;> first | exact .of (by with_reducible rfl) | exact .of (by simp [State.each_held, foldl_held, apply_ite State.held])

theorem execNbuClear_keeps (t : Instant) (k : StackId) (pc : ChanId) (s : State) : Keeps (s.at t) (execNbuClear t k pc s) := by
  unfold execNbuClear
  try dsimp only
  generalize s.at t = u
  (repeat' split) <;> first | exact .of (by with_reducible rfl) | exact .of (by simp [State.each_held, foldl_held, apply_ite State.held])

theorem execNbuResultRead_keeps (t : Instant) (k : StackId) (pc : ChanId) (region : RegionId) (c : CoreId) (entries : Nat) (s : State) : Keeps (s.at t) (execNbuResultRead t k pc region c entries s) := by
  unfold execNbuResultRead
  try dsimp only
  generalize s.at t = u
  (repeat' split) <;> first | exact .of (by with_reducible rfl) | exact .of (by simp [State.each_held, foldl_held, apply_ite State.held])

theorem execPortTrain_keeps (t : Instant) (p : PortId) (s : State) : Keeps (s.at t) (execPortTrain t p s) := by
  unfold execPortTrain
  try dsimp only
  generalize s.at t = u
  (repeat' split) <;> first | exact .of (by with_reducible rfl) | exact .of (by simp [State.each_held, foldl_held, apply_ite State.held])

theorem execPortLinkUp_keeps (t : Instant) (p : PortId) (s : State) : Keeps (s.at t) (execPortLinkUp t p s) := by
  unfold execPortLinkUp
  try dsimp only
  generalize s.at t = u
  (repeat' split) <;> first | exact .of (by with_reducible rfl) | exact .of (by simp [State.each_held, foldl_held, apply_ite State.held])

theorem execPortLinkDown_keeps (t : Instant) (p : PortId) (s : State) : Keeps (s.at t) (execPortLinkDown t p s) := by
  unfold execPortLinkDown
  try dsimp only
  generalize s.at t = u
  (repeat' split) <;> first | exact .of (by with_reducible rfl) | exact .of (by simp [State.each_held, foldl_held, apply_ite State.held])

theorem execCroakSend_keeps (t : Instant) (p : PortId) (s : State) : Keeps (s.at t) (execCroakSend t p s) := by
  unfold execCroakSend
  try dsimp only
  generalize s.at t = u
  (repeat' split) <;> first | exact .of (by with_reducible rfl) | exact .of (by simp [State.each_held, foldl_held, apply_ite State.held])

theorem execCroakReceive_keeps (t : Instant) (p : PortId) (x : Croak) (s : State) : Keeps (s.at t) (execCroakReceive t p x s) := by
  unfold execCroakReceive
  try dsimp only
  generalize s.at t = u
  (repeat' split) <;> first | exact .of (by with_reducible rfl) | exact .of (by simp [State.each_held, foldl_held, apply_ite State.held])

theorem execAdjacencyTimeout_keeps (t : Instant) (p : PortId) (unit : W64) (s : State) : Keeps (s.at t) (execAdjacencyTimeout t p unit s) := by
  unfold execAdjacencyTimeout
  try dsimp only
  generalize s.at t = u
  (repeat' split) <;> first | exact .of (by with_reducible rfl) | exact .of (by simp [State.each_held, foldl_held, apply_ite State.held])

theorem execLsrReceive_keeps (t : Instant) (p : PortId) (sender : W64) (x : Lsr) (s : State) : Keeps (s.at t) (execLsrReceive t p sender x s) := by
  unfold execLsrReceive
  try dsimp only
  generalize s.at t = u
  (repeat' split) <;> first | exact .of (by with_reducible rfl) | exact .of (by simp [State.each_held, foldl_held, apply_ite State.held])

theorem execLsrRefresh_keeps (t : Instant) (s : State) : Keeps (s.at t) (execLsrRefresh t s) := by
  unfold execLsrRefresh
  try dsimp only
  generalize s.at t = u
  (repeat' split) <;> first | exact .of (by with_reducible rfl) | exact .of (by simp [State.each_held, foldl_held, apply_ite State.held])

theorem execLsrExpiry_keeps (t : Instant) (unit : W64) (s : State) : Keeps (s.at t) (execLsrExpiry t unit s) := by
  unfold execLsrExpiry
  try dsimp only
  generalize s.at t = u
  (repeat' split) <;> first | exact .of (by with_reducible rfl) | exact .of (by simp [State.each_held, foldl_held, apply_ite State.held])

theorem execRouteInstall_keeps (t : Instant) (s : State) : Keeps (s.at t) (execRouteInstall t s) := by
  unfold execRouteInstall
  try dsimp only
  generalize s.at t = u
  (repeat' split) <;> first | exact .of (by with_reducible rfl) | exact .of (by simp [State.each_held, foldl_held, apply_ite State.held])

theorem execAddressClaimTimeout_keeps (t : Instant) (s : State) : Keeps (s.at t) (execAddressClaimTimeout t s) := by
  unfold execAddressClaimTimeout
  try dsimp only
  generalize s.at t = u
  (repeat' split) <;> first | exact .of (by with_reducible rfl) | exact .of (by simp [State.each_held, foldl_held, apply_ite State.held])

theorem execBftPacketReceive_keeps (t : Instant) (p : PortId) (header body : Bytes) (x : Carried) (s : State) : Keeps (s.at t) (execBftPacketReceive t p header body x s) := by
  unfold execBftPacketReceive
  try dsimp only
  generalize s.at t = u
  (repeat' split) <;> first | exact .of (by with_reducible rfl) | exact .of (by simp [State.each_held, foldl_held, apply_ite State.held])

theorem execAckDelayExpiry_keeps (t : Instant) (stream : Nat) (s : State) : Keeps (s.at t) (execAckDelayExpiry t stream s) := by
  unfold execAckDelayExpiry
  try dsimp only
  generalize s.at t = u
  (repeat' split) <;> first | exact .of (by with_reducible rfl) | exact .of (by simp [State.each_held, foldl_held, apply_ite State.held])

theorem execRetransmitTimeout_keeps (t : Instant) (stream : Nat) (seq : W32) (s : State) : Keeps (s.at t) (execRetransmitTimeout t stream seq s) := by
  unfold execRetransmitTimeout
  try dsimp only
  generalize s.at t = u
  (repeat' split) <;> first | exact .of (by with_reducible rfl) | exact .of (by simp [State.each_held, foldl_held, apply_ite State.held])

theorem execSpanJoin_keeps (t : Instant) (h : SpanHead) (digest : W32) (self hops : Nat) (image : W32) (cap : W64) (s : State) : Keeps (s.at t) (execSpanJoin t h digest self hops image cap s) := by
  unfold execSpanJoin
  try dsimp only
  generalize s.at t = u
  (repeat' split) <;> first | exact .of (by with_reducible rfl) | exact .of (by simp [State.each_held, foldl_held, apply_ite State.held])

theorem execSpanReady_keeps (t : Instant) (h : SpanHead) (digest : W32) (gen : BitVec 16) (s : State) : Keeps (s.at t) (execSpanReady t h digest gen s) := by
  unfold execSpanReady
  try dsimp only
  generalize s.at t = u
  (repeat' split) <;> first | exact .of (by with_reducible rfl) | exact .of (by simp [State.each_held, foldl_held, apply_ite State.held])

theorem execSpanReject_keeps (t : Instant) (h : SpanHead) (reason : Byte) (s : State) : Keeps (s.at t) (execSpanReject t h reason s) := by
  unfold execSpanReject
  try dsimp only
  generalize s.at t = u
  (repeat' split) <;> first | exact .of (by with_reducible rfl) | exact .of (by simp [State.each_held, foldl_held, apply_ite State.held])

theorem execSpanLaunch_keeps (t : Instant) (h : SpanHead) (graph : Fin 4096) (epoch : BitVec 16) (serial : W32) (timed : Bool) (start : W64) (params : List (Nat × W64)) (s : State) : Keeps (s.at t) (execSpanLaunch t h graph epoch serial timed start params s) := by
  unfold execSpanLaunch
  try dsimp only
  generalize s.at t = u
  (repeat' split) <;> first | exact .of (by with_reducible rfl) | exact .of (by simp [State.each_held, foldl_held, apply_ite State.held])

theorem execSpanDone_keeps (t : Instant) (h : SpanHead) (graph : Fin 4096) (epoch : BitVec 16) (status cause : Byte) (beats : W64) (preempt : Byte) (s : State) : Keeps (s.at t) (execSpanDone t h graph epoch status cause beats preempt s) := by
  unfold execSpanDone
  try dsimp only
  generalize s.at t = u
  (repeat' split) <;> first | exact .of (by with_reducible rfl) | exact .of (by simp [State.each_held, foldl_held, apply_ite State.held])

theorem execSpanAbort_keeps (t : Instant) (h : SpanHead) (graph : Fin 4096) (epoch : BitVec 16) (s : State) : Keeps (s.at t) (execSpanAbort t h graph epoch s) := by
  unfold execSpanAbort
  try dsimp only
  generalize s.at t = u
  (repeat' split) <;> first | exact .of (by with_reducible rfl) | exact .of (by simp [State.each_held, foldl_held, apply_ite State.held])

theorem execSpanLeave_keeps (t : Instant) (h : SpanHead) (reason : Byte) (s : State) : Keeps (s.at t) (execSpanLeave t h reason s) := by
  unfold execSpanLeave
  try dsimp only
  generalize s.at t = u
  (repeat' split) <;> first | exact .of (by with_reducible rfl) | exact .of (by simp [State.each_held, foldl_held, apply_ite State.held])

theorem execJoinResend_keeps (t : Instant) (n : PartId) (s : State) : Keeps (s.at t) (execJoinResend t n s) := by
  unfold execJoinResend
  try dsimp only
  generalize s.at t = u
  (repeat' split) <;> first | exact .of (by with_reducible rfl) | exact .of (by simp [State.each_held, foldl_held, apply_ite State.held])

theorem execSpanLossTimeout_keeps (t : Instant) (n : PartId) (s : State) : Keeps (s.at t) (execSpanLossTimeout t n s) := by
  unfold execSpanLossTimeout
  try dsimp only
  generalize s.at t = u
  (repeat' split) <;> first | exact .of (by with_reducible rfl) | exact .of (by simp [State.each_held, foldl_held, apply_ite State.held])

theorem execRmaWrite_keeps (t : Instant) (p : PartId) (r : Nat) (record source : Bytes) (s : State) : Keeps (s.at t) (execRmaWrite t p r record source s) := by
  unfold execRmaWrite
  try dsimp only
  generalize s.at t = u
  (repeat' split) <;> first | exact .of (by with_reducible rfl) | exact .of (by simp [State.each_held, foldl_held, apply_ite State.held])

theorem execRmaWriteFlag_keeps (t : Instant) (p : PartId) (r : Nat) (record source : Bytes) (s : State) : Keeps (s.at t) (execRmaWriteFlag t p r record source s) := by
  unfold execRmaWriteFlag
  try dsimp only
  generalize s.at t = u
  (repeat' split) <;> first | exact .of (by with_reducible rfl) | exact .of (by simp [State.each_held, foldl_held, apply_ite State.held])

theorem execRmaRead_keeps (t : Instant) (p : PartId) (r : Nat) (record : Bytes) (s : State) : Keeps (s.at t) (execRmaRead t p r record s) := by
  unfold execRmaRead
  try dsimp only
  generalize s.at t = u
  (repeat' split) <;> first | exact .of (by with_reducible rfl) | exact .of (by simp [State.each_held, foldl_held, apply_ite State.held])

theorem execRmaFetchAdd_keeps (t : Instant) (p : PartId) (r : Nat) (record : Bytes) (s : State) : Keeps (s.at t) (execRmaFetchAdd t p r record s) := by
  unfold execRmaFetchAdd
  try dsimp only
  generalize s.at t = u
  (repeat' split) <;> first | exact .of (by with_reducible rfl) | exact .of (by simp [State.each_held, foldl_held, apply_ite State.held])

theorem execRmaCmpSwap_keeps (t : Instant) (p : PartId) (r : Nat) (record : Bytes) (s : State) : Keeps (s.at t) (execRmaCmpSwap t p r record s) := by
  unfold execRmaCmpSwap
  try dsimp only
  generalize s.at t = u
  (repeat' split) <;> first | exact .of (by with_reducible rfl) | exact .of (by simp [State.each_held, foldl_held, apply_ite State.held])

theorem execRmaSend_keeps (t : Instant) (p : PartId) (r : Nat) (record source : Bytes) (s : State) : Keeps (s.at t) (execRmaSend t p r record source s) := by
  unfold execRmaSend
  try dsimp only
  generalize s.at t = u
  (repeat' split) <;> first | exact .of (by with_reducible rfl) | exact .of (by simp [State.each_held, foldl_held, apply_ite State.held])

theorem execRmaConnect_keeps (t : Instant) (p : PartId) (r : Nat) (record : Bytes) (s : State) : Keeps (s.at t) (execRmaConnect t p r record s) := by
  unfold execRmaConnect
  try dsimp only
  generalize s.at t = u
  (repeat' split) <;> first | exact .of (by with_reducible rfl) | exact .of (by simp [State.each_held, foldl_held, apply_ite State.held])

theorem execRmaClose_keeps (t : Instant) (p : PartId) (r : Nat) (record : Bytes) (s : State) : Keeps (s.at t) (execRmaClose t p r record s) := by
  unfold execRmaClose
  try dsimp only
  generalize s.at t = u
  (repeat' split) <;> first | exact .of (by with_reducible rfl) | exact .of (by simp [State.each_held, foldl_held, apply_ite State.held])

theorem execRmaInConnect_keeps (t : Instant) (x : RmaPkt) (s : State) : Keeps (s.at t) (execRmaInConnect t x s) :=
  .of (State.takeRma_held _ _ _ (fun u => by simp))

theorem execRmaAccept_keeps (t : Instant) (x : RmaPkt) (s : State) : Keeps (s.at t) (execRmaAccept t x s) :=
  .of (State.takeRma_held _ _ _ (fun u => by simp))

theorem execRmaRefuse_keeps (t : Instant) (x : RmaPkt) (s : State) : Keeps (s.at t) (execRmaRefuse t x s) :=
  .of (State.takeRma_held _ _ _ (fun u => by simp))

theorem execRmaGone_keeps (t : Instant) (x : RmaPkt) (s : State) : Keeps (s.at t) (execRmaGone t x s) :=
  .of (State.takeRma_held _ _ _ (fun u => by simp))

theorem execRmaCredit_keeps (t : Instant) (x : RmaPkt) (s : State) : Keeps (s.at t) (execRmaCredit t x s) :=
  .of (State.takeRma_held _ _ _ (fun u => by simp))

theorem execRmaResponse_keeps (t : Instant) (x : RmaPkt) (s : State) : Keeps (s.at t) (execRmaResponse t x s) :=
  .of (State.takeRma_held _ _ _ (fun u => by simp))

theorem execRmaCreditTimer_keeps (t : Instant) (s : State) : Keeps (s.at t) (execRmaCreditTimer t s) := by
  unfold execRmaCreditTimer
  try dsimp only
  generalize s.at t = u
  (repeat' split) <;> first | exact .of (by with_reducible rfl) | exact .of (by simp [State.each_held, foldl_held, apply_ite State.held])

theorem execRmaConnectResend_keeps (t : Instant) (p : PartId) (conn : Fin 4096) (s : State) : Keeps (s.at t) (execRmaConnectResend t p conn s) := by
  unfold execRmaConnectResend
  try dsimp only
  generalize s.at t = u
  (repeat' split) <;> first | exact .of (by with_reducible rfl) | exact .of (by simp [State.each_held, foldl_held, apply_ite State.held])

theorem execRmaResponseTimeout_keeps (t : Instant) (p : PartId) (conn : Fin 4096) (seq : W32) (s : State) : Keeps (s.at t) (execRmaResponseTimeout t p conn seq s) := by
  unfold execRmaResponseTimeout
  try dsimp only
  generalize s.at t = u
  (repeat' split) <;> first | exact .of (by with_reducible rfl) | exact .of (by simp [State.each_held, foldl_held, apply_ite State.held])

theorem execPpsInEdge_keeps (t : Instant) (wide : Bool) (cycles : Nat) (s : State) : Keeps (s.at t) (execPpsInEdge t wide cycles s) := by
  unfold execPpsInEdge
  try dsimp only
  generalize s.at t = u
  (repeat' split) <;> first | exact .of (by with_reducible rfl) | exact .of (by simp [State.each_held, foldl_held, apply_ite State.held])

theorem execPpsEdgeMissed_keeps (t : Instant) (s : State) : Keeps (s.at t) (execPpsEdgeMissed t s) := by
  unfold execPpsEdgeMissed
  try dsimp only
  generalize s.at t = u
  (repeat' split) <;> first | exact .of (by with_reducible rfl) | exact .of (by simp [State.each_held, foldl_held, apply_ite State.held])

theorem execTimeRefLost_keeps (t : Instant) (s : State) : Keeps (s.at t) (execTimeRefLost t s) := by
  unfold execTimeRefLost
  try dsimp only
  generalize s.at t = u
  (repeat' split) <;> first | exact .of (by with_reducible rfl) | exact .of (by simp [State.each_held, foldl_held, apply_ite State.held])

theorem execPtpSync_keeps (t : Instant) (fromGm : Bool) (offset : Int) (twoStep : Bool) (s : State) : Keeps (s.at t) (execPtpSync t fromGm offset twoStep s) := by
  unfold execPtpSync
  try dsimp only
  generalize s.at t = u
  (repeat' split) <;> first | exact .of (by with_reducible rfl) | exact .of (by simp [State.each_held, foldl_held, apply_ite State.held])

theorem execPtpSyncTimeout_keeps (t : Instant) (s : State) : Keeps (s.at t) (execPtpSyncTimeout t s) := by
  unfold execPtpSyncTimeout
  try dsimp only
  generalize s.at t = u
  (repeat' split) <;> first | exact .of (by with_reducible rfl) | exact .of (by simp [State.each_held, foldl_held, apply_ite State.held])

theorem execPtpAnnounce_keeps (t : Instant) (m : PtpMaster) (s : State) : Keeps (s.at t) (execPtpAnnounce t m s) := by
  unfold execPtpAnnounce
  try dsimp only
  generalize s.at t = u
  (repeat' split) <;> first | exact .of (by with_reducible rfl) | exact .of (by simp [State.each_held, foldl_held, apply_ite State.held])

theorem execPtpDelayReq_keeps (t : Instant) (p : PortId) (requester : W64) (s : State) : Keeps (s.at t) (execPtpDelayReq t p requester s) := by
  unfold execPtpDelayReq
  try dsimp only
  generalize s.at t = u
  (repeat' split) <;> first | exact .of (by with_reducible rfl) | exact .of (by simp [State.each_held, foldl_held, apply_ite State.held])

theorem execPtpDelayResp_keeps (t : Instant) (delay : Nat) (s : State) : Keeps (s.at t) (execPtpDelayResp t delay s) := by
  unfold execPtpDelayResp
  try dsimp only
  generalize s.at t = u
  (repeat' split) <;> first | exact .of (by with_reducible rfl) | exact .of (by simp [State.each_held, foldl_held, apply_ite State.held])

theorem execPtpSyncSend_keeps (t : Instant) (p : PortId) (s : State) : Keeps (s.at t) (execPtpSyncSend t p s) := by
  unfold execPtpSyncSend
  try dsimp only
  generalize s.at t = u
  (repeat' split) <;> first | exact .of (by with_reducible rfl) | exact .of (by simp [State.each_held, foldl_held, apply_ite State.held])

theorem execPtpAnnounceSend_keeps (t : Instant) (p : PortId) (s : State) : Keeps (s.at t) (execPtpAnnounceSend t p s) := by
  unfold execPtpAnnounceSend
  try dsimp only
  generalize s.at t = u
  (repeat' split) <;> first | exact .of (by with_reducible rfl) | exact .of (by simp [State.each_held, foldl_held, apply_ite State.held])

theorem execSlewEnd_keeps (t : Instant) (s : State) : Keeps (s.at t) (execSlewEnd t s) := by
  unfold execSlewEnd
  try dsimp only
  generalize s.at t = u
  (repeat' split) <;> first | exact .of (by with_reducible rfl) | exact .of (by simp [State.each_held, foldl_held, apply_ite State.held])

theorem execHoldEnd_keeps (t : Instant) (s : State) : Keeps (s.at t) (execHoldEnd t s) := by
  unfold execHoldEnd
  try dsimp only
  generalize s.at t = u
  (repeat' split) <;> first | exact .of (by with_reducible rfl) | exact .of (by simp [State.each_held, foldl_held, apply_ite State.held])

theorem execUncUpdate_keeps (t : Instant) (s : State) : Keeps (s.at t) (execUncUpdate t s) := by
  unfold execUncUpdate
  try dsimp only
  generalize s.at t = u
  (repeat' split) <;> first | exact .of (by with_reducible rfl) | exact .of (by simp [State.each_held, foldl_held, apply_ite State.held])

theorem execTimSet_keeps (t : Instant) (hi : W32) (s : State) : Keeps (s.at t) (execTimSet t hi s) := by
  unfold execTimSet
  try dsimp only
  generalize s.at t = u
  (repeat' split) <;> first | exact .of (by with_reducible rfl) | exact .of (by simp [State.each_held, foldl_held, apply_ite State.held])

theorem execTimCfgWrite_keeps (t : Instant) (v : W32) (s : State) : Keeps (s.at t) (execTimCfgWrite t v s) := by
  unfold execTimCfgWrite
  try dsimp only
  generalize s.at t = u
  (repeat' split) <;> first | exact .of (by with_reducible rfl) | exact .of (by simp [State.each_held, foldl_held, apply_ite State.held])

theorem execCounterSelectWrite_keeps (t : Instant) (w : Option TowerId) (i : Fin 64) (v : W32) (s : State) : Keeps (s.at t) (execCounterSelectWrite t w i v s) := by
  unfold execCounterSelectWrite
  try dsimp only
  generalize s.at t = u
  (repeat' split) <;> first | exact .of (by with_reducible rfl) | exact .of (by simp [State.each_held, foldl_held, apply_ite State.held])

theorem execSnapshotArm_keeps (t : Instant) (hi : W32) (s : State) : Keeps (s.at t) (execSnapshotArm t hi s) := by
  unfold execSnapshotArm
  try dsimp only
  generalize s.at t = u
  (repeat' split) <;> first | exact .of (by with_reducible rfl) | exact .of (by simp [State.each_held, foldl_held, apply_ite State.held])

theorem execSnapshotTrigger_keeps (t : Instant) (s : State) : Keeps (s.at t) (execSnapshotTrigger t s) := by
  unfold execSnapshotTrigger
  try dsimp only
  generalize s.at t = u
  (repeat' split) <;> first | exact .of (by with_reducible rfl) | exact .of (by simp [State.each_held, foldl_held, apply_ite State.held])

theorem execFaultLogWrite_keeps (t : Instant) (which : Nat) (s : State) : Keeps (s.at t) (execFaultLogWrite t which s) := by
  unfold execFaultLogWrite
  try dsimp only
  generalize s.at t = u
  (repeat' split) <;> first | exact .of (by with_reducible rfl) | exact .of (by simp [State.each_held, foldl_held, apply_ite State.held])

theorem execFaultRecordCapture_keeps (t : Instant) (f : Fn) (slot : Fin 256) (s : State) : Keeps (s.at t) (execFaultRecordCapture t f slot s) := by
  unfold execFaultRecordCapture
  try dsimp only
  generalize s.at t = u
  (repeat' split) <;> first | exact .of (by with_reducible rfl) | exact .of (by simp [State.each_held, foldl_held, apply_ite State.held])

theorem execFaultLogClear_keeps (t : Instant) (v : W32) (s : State) : Keeps (s.at t) (execFaultLogClear t v s) := by
  unfold execFaultLogClear
  try dsimp only
  generalize s.at t = u
  (repeat' split) <;> first | exact .of (by with_reducible rfl) | exact .of (by simp [State.each_held, foldl_held, apply_ite State.held])

theorem execLampPeriod_keeps (t : Instant) (lamp : Fin 12) (current : Bool) (s : State) : Keeps (s.at t) (execLampPeriod t lamp current s) := by
  unfold execLampPeriod
  try dsimp only
  generalize s.at t = u
  (repeat' split) <;> first | exact .of (by with_reducible rfl) | exact .of (by simp [State.each_held, foldl_held, apply_ite State.held])

theorem execLampUnprovenTimeout_keeps (t : Instant) (lamp : Fin 12) (s : State) : Keeps (s.at t) (execLampUnprovenTimeout t lamp s) := by
  unfold execLampUnprovenTimeout
  try dsimp only
  generalize s.at t = u
  (repeat' split) <;> first | exact .of (by with_reducible rfl) | exact .of (by simp [State.each_held, foldl_held, apply_ite State.held])

theorem execTmxSelectWrite_keeps (t : Instant) (offset : Nat) (v : W32) (s : State) : Keeps (s.at t) (execTmxSelectWrite t offset v s) := by
  unfold execTmxSelectWrite
  try dsimp only
  generalize s.at t = u
  (repeat' split) <;> first | exact .of (by with_reducible rfl) | exact .of (by simp [State.each_held, foldl_held, apply_ite State.held])

theorem execTapReset_keeps (t : Instant) (s : State) : Keeps (s.at t) (execTapReset t s) := by
  unfold execTapReset
  try dsimp only
  generalize s.at t = u
  (repeat' split) <;> first | exact .of (by with_reducible rfl) | exact .of (by simp [State.each_held, foldl_held, apply_ite State.held])

theorem execTapIdcode_keeps (t : Instant) (tdi : List Bool) (s : State) : Keeps (s.at t) (execTapIdcode t tdi s) := by
  unfold execTapIdcode
  try dsimp only
  generalize s.at t = u
  (repeat' split) <;> first | exact .of (by with_reducible rfl) | exact .of (by simp [State.each_held, foldl_held, apply_ite State.held])

theorem execPairLoRead_keeps (t : Instant) (f : Fn) (offset : Nat) (s : State) : Keeps (s.at t) (execPairLoRead t f offset s) := by
  unfold execPairLoRead
  try dsimp only
  generalize s.at t = u
  (repeat' split) <;> first | exact .of (by with_reducible rfl) | exact .of (by simp [State.each_held, foldl_held, apply_ite State.held])

theorem execTimeRefReturn_keeps (t : Instant) (s : State) : Keeps (s.at t) (execTimeRefReturn t s) := by
  unfold execTimeRefReturn
  try dsimp only
  generalize s.at t = u
  (repeat' split) <;> first | exact .of (by with_reducible rfl) | exact .of (by simp [State.each_held, foldl_held, apply_ite State.held])

theorem execPtpFollowUp_keeps (t : Instant) (offset : Int) (s : State) : Keeps (s.at t) (execPtpFollowUp t offset s) := by
  unfold execPtpFollowUp
  try dsimp only
  generalize s.at t = u
  (repeat' split) <;> first | exact .of (by with_reducible rfl) | exact .of (by simp [State.each_held, foldl_held, apply_ite State.held])

theorem execAnnounceReceiptTimeout_keeps (t : Instant) (m : PtpMaster) (s : State) : Keeps (s.at t) (execAnnounceReceiptTimeout t m s) := by
  unfold execAnnounceReceiptTimeout
  try dsimp only
  generalize s.at t = u
  (repeat' split) <;> first | exact .of (by with_reducible rfl) | exact .of (by simp [State.each_held, foldl_held, apply_ite State.held])

theorem execScrubPeriodExpiry_keeps (t : Instant) (c : CoreId) (s : State) : Keeps (s.at t) (execScrubPeriodExpiry t c s) := by
  unfold execScrubPeriodExpiry
  try dsimp only
  generalize s.at t = u
  (repeat' split) <;> first | exact .of (by with_reducible rfl) | exact .of (by simp [State.each_held, foldl_held, apply_ite State.held])

theorem execRegisterReadClear_keeps (t : Instant) (f : Fn) (offset : Nat) (s : State) :
    Keeps (s.at t) (execRegisterReadClear t f offset s) := by
  unfold execRegisterReadClear
  split
  · exact .of (by simp)
  split
  · exact .of (by simp)
  split
  · split
    · exact execPoolTake_keeps t f _ s
    · exact .of (State.readReg_held _ _ _)
  · split
    · exact execFaultRecordCapture_keeps t f _ s
    · exact .of (State.readReg_held _ _ _)
  · exact .of (State.readReg_held _ _ _)

end Sys2Proof.Machine
end

