-- ==== Sys2Proof/Laws/State.lean ====
section
/-!
SUPPORT. One lemma per field and per view of the state for each of the updates of Machine/Ops.lean.
-/
namespace Sys2Proof.Machine

variable (s : State)

@[simp] theorem State.setCore_clock (c : Nat) (x : Core) : (s.setCore c x).clock = s.clock := rfl
@[simp] theorem State.setCore_free (c : Nat) (x : Core) : (s.setCore c x).free = s.free := rfl
@[simp] theorem State.setCore_pending (c : Nat) (x : Core) : (s.setCore c x).pending = s.pending := rfl
@[simp] theorem State.setCore_out (c : Nat) (x : Core) : (s.setCore c x).out = s.out := rfl
@[simp] theorem State.setCore_rails (c : Nat) (x : Core) : (s.setCore c x).rails = s.rails := rfl
@[simp] theorem State.setCore_fuse (c : Nat) (x : Core) : (s.setCore c x).fuse = s.fuse := rfl
@[simp] theorem State.setCore_digest (c : Nat) (x : Core) : (s.setCore c x).digest = s.digest := rfl
@[simp] theorem State.setCore_srep (c : Nat) (x : Core) : (s.setCore c x).srep = s.srep := rfl
@[simp] theorem State.setCore_sb (c : Nat) (x : Core) : (s.setCore c x).sb = s.sb := rfl
@[simp] theorem State.setCore_trip (c : Nat) (x : Core) : (s.setCore c x).trip = s.trip := rfl
@[simp] theorem State.setCore_bup (c : Nat) (x : Core) : (s.setCore c x).bup = s.bup := rfl
@[simp] theorem State.setCore_link (c : Nat) (x : Core) : (s.setCore c x).link = s.link := rfl
@[simp] theorem State.setCore_mbx (c : Nat) (x : Core) : (s.setCore c x).mbx = s.mbx := rfl
@[simp] theorem State.setCore_stage (c : Nat) (x : Core) : (s.setCore c x).stage = s.stage := rfl
@[simp] theorem State.setCore_img (c : Nat) (x : Core) : (s.setCore c x).img = s.img := rfl
@[simp] theorem State.setCore_frame (c : Nat) (x : Core) : (s.setCore c x).frame = s.frame := rfl
@[simp] theorem State.setCore_parts (c : Nat) (x : Core) : (s.setCore c x).parts = s.parts := rfl
@[simp] theorem State.setCore_tagErr (c : Nat) (x : Core) : (s.setCore c x).tagErr = s.tagErr := rfl
@[simp] theorem State.setCore_tagErrLast (c : Nat) (x : Core) : (s.setCore c x).tagErrLast = s.tagErrLast := rfl
@[simp] theorem State.setCore_drbgOk (c : Nat) (x : Core) : (s.setCore c x).drbgOk = s.drbgOk := rfl
@[simp] theorem State.setCore_drbg (c : Nat) (x : Core) : (s.setCore c x).drbg = s.drbg := rfl
@[simp] theorem State.setCore_keys (c : Nat) (x : Core) : (s.setCore c x).keys = s.keys := rfl
@[simp] theorem State.setCore_window (c : Nat) (x : Core) : (s.setCore c x).window = s.window := rfl
@[simp] theorem State.setCore_windows (c : Nat) (x : Core) : (s.setCore c x).windows = s.windows := rfl
@[simp] theorem State.setCore_towers (c : Nat) (x : Core) : (s.setCore c x).towers = s.towers := rfl
@[simp] theorem State.setCore_nbStacks (c : Nat) (x : Core) : (s.setCore c x).nbStacks = s.nbStacks := rfl
@[simp] theorem State.setCore_nbus (c : Nat) (x : Core) : (s.setCore c x).nbus = s.nbus := rfl
@[simp] theorem State.setCore_regions (c : Nat) (x : Core) : (s.setCore c x).regions = s.regions := rfl
@[simp] theorem State.setCore_rings (c : Nat) (x : Core) : (s.setCore c x).rings = s.rings := rfl
@[simp] theorem State.setCore_pfQueSel (c : Nat) (x : Core) : (s.setCore c x).pfQueSel = s.pfQueSel := rfl
@[simp] theorem State.setCore_pfBadDb (c : Nat) (x : Core) : (s.setCore c x).pfBadDb = s.pfBadDb := rfl
@[simp] theorem State.setCore_pools (c : Nat) (x : Core) : (s.setCore c x).pools = s.pools := rfl
@[simp] theorem State.setCore_poolErr (c : Nat) (x : Core) : (s.setCore c x).poolErr = s.poolErr := rfl
@[simp] theorem State.setCore_turn (c : Nat) (x : Core) : (s.setCore c x).turn = s.turn := rfl
@[simp] theorem State.setCore_fab (c : Nat) (x : Core) : (s.setCore c x).fab = s.fab := rfl
@[simp] theorem State.setCore_tim (c : Nat) (x : Core) : (s.setCore c x).tim = s.tim := rfl
@[simp] theorem State.setCore_pwr (c : Nat) (x : Core) : (s.setCore c x).pwr = s.pwr := rfl
@[simp] theorem State.setCore_evc (c : Nat) (x : Core) : (s.setCore c x).evc = s.evc := rfl
@[simp] theorem State.setCore_snap (c : Nat) (x : Core) : (s.setCore c x).snap = s.snap := rfl
@[simp] theorem State.setCore_flt (c : Nat) (x : Core) : (s.setCore c x).flt = s.flt := rfl
@[simp] theorem State.setCore_lamps (c : Nat) (x : Core) : (s.setCore c x).lamps = s.lamps := rfl
@[simp] theorem State.setCore_recals (c : Nat) (x : Core) : (s.setCore c x).recals = s.recals := rfl
@[simp] theorem State.setCore_test (c : Nat) (x : Core) : (s.setCore c x).test = s.test := rfl
@[simp] theorem State.setCore_view_part (c : Nat) (x : Core) (n' : Nat) : (s.setCore c x).part n' = s.part n' := rfl
@[simp] theorem State.setCore_view_tower (c : Nat) (x : Core) (n' : Nat) : (s.setCore c x).tower n' = s.tower n' := rfl
@[simp] theorem State.setCore_view_stack (c : Nat) (x : Core) (k' : Nat) : (s.setCore c x).stack k' = s.stack k' := rfl
@[simp] theorem State.setCore_view_nbu (c : Nat) (x : Core) (i' : Nat) : (s.setCore c x).nbu i' = s.nbu i' := rfl
@[simp] theorem State.setCore_view_region (c : Nat) (x : Core) (i' : Nat) : (s.setCore c x).region i' = s.region i' := rfl
@[simp] theorem State.setCore_view_ring (c : Nat) (x : Core) (r' : Nat) : (s.setCore c x).ring r' = s.ring r' := rfl
@[simp] theorem State.setCore_view_pool (c : Nat) (x : Core) (p' : Nat) : (s.setCore c x).pool p' = s.pool p' := rfl
@[simp] theorem State.setCore_view_lamp (c : Nat) (x : Core) (n' : Nat) : (s.setCore c x).lamp n' = s.lamp n' := rfl
@[simp] theorem State.setCore_view_key (c : Nat) (x : Core) (k' : Nat) : (s.setCore c x).key k' = s.key k' := rfl
@[simp] theorem State.setCore_view_port (c : Nat) (x : Core) (p' : Nat) : (s.setCore c x).port p' = s.port p' := rfl
@[simp] theorem State.setCore_view_dk36 (c : Nat) (x : Core)  : (s.setCore c x).dk36 = s.dk36 := rfl
@[simp] theorem State.setCore_view_hubId (c : Nat) (x : Core)  : (s.setCore c x).hubId = s.hubId := rfl
@[simp] theorem State.setCore_view_portCount (c : Nat) (x : Core)  : (s.setCore c x).portCount = s.portCount := rfl
@[simp] theorem State.setCore_view_stackRows (c : Nat) (x : Core)  : (s.setCore c x).stackRows = s.stackRows := rfl
@[simp] theorem State.setCore_view_groupUp (c : Nat) (x : Core) (n' g' : Nat) : (s.setCore c x).groupUp n' g' = s.groupUp n' g' := rfl
@[simp] theorem State.setCore_view_coreUp (c : Nat) (x : Core) (c' : Nat) : (s.setCore c x).coreUp c' = s.coreUp c' := rfl
@[simp] theorem State.setCore_view_stackUp (c : Nat) (x : Core) (k' : Nat) : (s.setCore c x).stackUp k' = s.stackUp k' := rfl
@[simp] theorem State.setCore_view_partRec (c : Nat) (x : Core) (n' : Nat) : (s.setCore c x).partRec n' = s.partRec n' := rfl
@[simp] theorem State.setCore_view_coreOwner (c : Nat) (x : Core) (c' : Nat) : (s.setCore c x).coreOwner c' = s.coreOwner c' := rfl
@[simp] theorem State.setCore_view_regionRec (c : Nat) (x : Core) (i' : Nat) : (s.setCore c x).regionRec i' = s.regionRec i' := rfl
@[simp] theorem State.setCore_view_poolRec (c : Nat) (x : Core) (p' : Nat) : (s.setCore c x).poolRec p' = s.poolRec p' := rfl
@[simp] theorem State.setCore_view_ringOwner (c : Nat) (x : Core) (r' : Nat) : (s.setCore c x).ringOwner r' = s.ringOwner r' := rfl
@[simp] theorem State.setCore_view_absRing (c : Nat) (x : Core) (n' r' : Nat) : (s.setCore c x).absRing n' r' = s.absRing n' r' := rfl
@[simp] theorem State.setCore_view_pinned (c : Nat) (x : Core) (c' : Nat) : (s.setCore c x).pinned c' = s.pinned c' := rfl
@[simp] theorem State.setCore_view_image (c : Nat) (x : Core) (n' : Nat) : (s.setCore c x).image n' = s.image n' := rfl
@[simp] theorem State.setCore_view_floorSum (c : Nat) (x : Core)  : (s.setCore c x).floorSum = s.floorSum := rfl
@[simp] theorem State.setCore_view_limit (c : Nat) (x : Core)  : (s.setCore c x).limit = s.limit := rfl
@[simp] theorem State.setCore_view_stamp (c : Nat) (x : Core)  : (s.setCore c x).stamp = s.stamp := rfl
@[simp] theorem State.setCore_view_now (c : Nat) (x : Core)  : (s.setCore c x).now = s.now := rfl
@[simp] theorem State.setCore_view_mono (c : Nat) (x : Core)  : (s.setCore c x).mono = s.mono := rfl
@[simp] theorem State.setCore_view_powered (c : Nat) (x : Core)  : (s.setCore c x).powered = s.powered := rfl
@[simp] theorem State.setCore_view_tadpole (c : Nat) (x : Core)  : (s.setCore c x).tadpole = s.tadpole := rfl
@[simp] theorem State.setCore_view_dmaOk (c : Nat) (x : Core) (n' : Nat) : (s.setCore c x).dmaOk n' = s.dmaOk n' := rfl

@[simp] theorem State.setPart_clock (n : Nat) (x : Part) : (s.setPart n x).clock = s.clock := rfl
@[simp] theorem State.setPart_free (n : Nat) (x : Part) : (s.setPart n x).free = s.free := rfl
@[simp] theorem State.setPart_pending (n : Nat) (x : Part) : (s.setPart n x).pending = s.pending := rfl
@[simp] theorem State.setPart_out (n : Nat) (x : Part) : (s.setPart n x).out = s.out := rfl
@[simp] theorem State.setPart_rails (n : Nat) (x : Part) : (s.setPart n x).rails = s.rails := rfl
@[simp] theorem State.setPart_fuse (n : Nat) (x : Part) : (s.setPart n x).fuse = s.fuse := rfl
@[simp] theorem State.setPart_digest (n : Nat) (x : Part) : (s.setPart n x).digest = s.digest := rfl
@[simp] theorem State.setPart_srep (n : Nat) (x : Part) : (s.setPart n x).srep = s.srep := rfl
@[simp] theorem State.setPart_sb (n : Nat) (x : Part) : (s.setPart n x).sb = s.sb := rfl
@[simp] theorem State.setPart_trip (n : Nat) (x : Part) : (s.setPart n x).trip = s.trip := rfl
@[simp] theorem State.setPart_bup (n : Nat) (x : Part) : (s.setPart n x).bup = s.bup := rfl
@[simp] theorem State.setPart_link (n : Nat) (x : Part) : (s.setPart n x).link = s.link := rfl
@[simp] theorem State.setPart_mbx (n : Nat) (x : Part) : (s.setPart n x).mbx = s.mbx := rfl
@[simp] theorem State.setPart_stage (n : Nat) (x : Part) : (s.setPart n x).stage = s.stage := rfl
@[simp] theorem State.setPart_img (n : Nat) (x : Part) : (s.setPart n x).img = s.img := rfl
@[simp] theorem State.setPart_frame (n : Nat) (x : Part) : (s.setPart n x).frame = s.frame := rfl
@[simp] theorem State.setPart_tagErr (n : Nat) (x : Part) : (s.setPart n x).tagErr = s.tagErr := rfl
@[simp] theorem State.setPart_tagErrLast (n : Nat) (x : Part) : (s.setPart n x).tagErrLast = s.tagErrLast := rfl
@[simp] theorem State.setPart_drbgOk (n : Nat) (x : Part) : (s.setPart n x).drbgOk = s.drbgOk := rfl
@[simp] theorem State.setPart_drbg (n : Nat) (x : Part) : (s.setPart n x).drbg = s.drbg := rfl
@[simp] theorem State.setPart_keys (n : Nat) (x : Part) : (s.setPart n x).keys = s.keys := rfl
@[simp] theorem State.setPart_window (n : Nat) (x : Part) : (s.setPart n x).window = s.window := rfl
@[simp] theorem State.setPart_windows (n : Nat) (x : Part) : (s.setPart n x).windows = s.windows := rfl
@[simp] theorem State.setPart_cores (n : Nat) (x : Part) : (s.setPart n x).cores = s.cores := rfl
@[simp] theorem State.setPart_towers (n : Nat) (x : Part) : (s.setPart n x).towers = s.towers := rfl
@[simp] theorem State.setPart_nbStacks (n : Nat) (x : Part) : (s.setPart n x).nbStacks = s.nbStacks := rfl
@[simp] theorem State.setPart_nbus (n : Nat) (x : Part) : (s.setPart n x).nbus = s.nbus := rfl
@[simp] theorem State.setPart_regions (n : Nat) (x : Part) : (s.setPart n x).regions = s.regions := rfl
@[simp] theorem State.setPart_rings (n : Nat) (x : Part) : (s.setPart n x).rings = s.rings := rfl
@[simp] theorem State.setPart_pfQueSel (n : Nat) (x : Part) : (s.setPart n x).pfQueSel = s.pfQueSel := rfl
@[simp] theorem State.setPart_pfBadDb (n : Nat) (x : Part) : (s.setPart n x).pfBadDb = s.pfBadDb := rfl
@[simp] theorem State.setPart_pools (n : Nat) (x : Part) : (s.setPart n x).pools = s.pools := rfl
@[simp] theorem State.setPart_poolErr (n : Nat) (x : Part) : (s.setPart n x).poolErr = s.poolErr := rfl
@[simp] theorem State.setPart_turn (n : Nat) (x : Part) : (s.setPart n x).turn = s.turn := rfl
@[simp] theorem State.setPart_fab (n : Nat) (x : Part) : (s.setPart n x).fab = s.fab := rfl
@[simp] theorem State.setPart_tim (n : Nat) (x : Part) : (s.setPart n x).tim = s.tim := rfl
@[simp] theorem State.setPart_pwr (n : Nat) (x : Part) : (s.setPart n x).pwr = s.pwr := rfl
@[simp] theorem State.setPart_evc (n : Nat) (x : Part) : (s.setPart n x).evc = s.evc := rfl
@[simp] theorem State.setPart_snap (n : Nat) (x : Part) : (s.setPart n x).snap = s.snap := rfl
@[simp] theorem State.setPart_flt (n : Nat) (x : Part) : (s.setPart n x).flt = s.flt := rfl
@[simp] theorem State.setPart_lamps (n : Nat) (x : Part) : (s.setPart n x).lamps = s.lamps := rfl
@[simp] theorem State.setPart_recals (n : Nat) (x : Part) : (s.setPart n x).recals = s.recals := rfl
@[simp] theorem State.setPart_test (n : Nat) (x : Part) : (s.setPart n x).test = s.test := rfl
@[simp] theorem State.setPart_view_core (n : Nat) (x : Part) (c' : Nat) : (s.setPart n x).core c' = s.core c' := rfl
@[simp] theorem State.setPart_view_tower (n : Nat) (x : Part) (n' : Nat) : (s.setPart n x).tower n' = s.tower n' := rfl
@[simp] theorem State.setPart_view_stack (n : Nat) (x : Part) (k' : Nat) : (s.setPart n x).stack k' = s.stack k' := rfl
@[simp] theorem State.setPart_view_nbu (n : Nat) (x : Part) (i' : Nat) : (s.setPart n x).nbu i' = s.nbu i' := rfl
@[simp] theorem State.setPart_view_region (n : Nat) (x : Part) (i' : Nat) : (s.setPart n x).region i' = s.region i' := rfl
@[simp] theorem State.setPart_view_ring (n : Nat) (x : Part) (r' : Nat) : (s.setPart n x).ring r' = s.ring r' := rfl
@[simp] theorem State.setPart_view_pool (n : Nat) (x : Part) (p' : Nat) : (s.setPart n x).pool p' = s.pool p' := rfl
@[simp] theorem State.setPart_view_lamp (n : Nat) (x : Part) (n' : Nat) : (s.setPart n x).lamp n' = s.lamp n' := rfl
@[simp] theorem State.setPart_view_key (n : Nat) (x : Part) (k' : Nat) : (s.setPart n x).key k' = s.key k' := rfl
@[simp] theorem State.setPart_view_port (n : Nat) (x : Part) (p' : Nat) : (s.setPart n x).port p' = s.port p' := rfl
@[simp] theorem State.setPart_view_dk36 (n : Nat) (x : Part)  : (s.setPart n x).dk36 = s.dk36 := rfl
@[simp] theorem State.setPart_view_hubId (n : Nat) (x : Part)  : (s.setPart n x).hubId = s.hubId := rfl
@[simp] theorem State.setPart_view_portCount (n : Nat) (x : Part)  : (s.setPart n x).portCount = s.portCount := rfl
@[simp] theorem State.setPart_view_stackRows (n : Nat) (x : Part)  : (s.setPart n x).stackRows = s.stackRows := rfl
@[simp] theorem State.setPart_view_groupUp (n : Nat) (x : Part) (n' g' : Nat) : (s.setPart n x).groupUp n' g' = s.groupUp n' g' := rfl
@[simp] theorem State.setPart_view_coreUp (n : Nat) (x : Part) (c' : Nat) : (s.setPart n x).coreUp c' = s.coreUp c' := rfl
@[simp] theorem State.setPart_view_stackUp (n : Nat) (x : Part) (k' : Nat) : (s.setPart n x).stackUp k' = s.stackUp k' := rfl
@[simp] theorem State.setPart_view_partRec (n : Nat) (x : Part) (n' : Nat) : (s.setPart n x).partRec n' = s.partRec n' := rfl
@[simp] theorem State.setPart_view_coreOwner (n : Nat) (x : Part) (c' : Nat) : (s.setPart n x).coreOwner c' = s.coreOwner c' := rfl
@[simp] theorem State.setPart_view_regionRec (n : Nat) (x : Part) (i' : Nat) : (s.setPart n x).regionRec i' = s.regionRec i' := rfl
@[simp] theorem State.setPart_view_poolRec (n : Nat) (x : Part) (p' : Nat) : (s.setPart n x).poolRec p' = s.poolRec p' := rfl
@[simp] theorem State.setPart_view_ringOwner (n : Nat) (x : Part) (r' : Nat) : (s.setPart n x).ringOwner r' = s.ringOwner r' := rfl
@[simp] theorem State.setPart_view_absRing (n : Nat) (x : Part) (n' r' : Nat) : (s.setPart n x).absRing n' r' = s.absRing n' r' := rfl
@[simp] theorem State.setPart_view_floorSum (n : Nat) (x : Part)  : (s.setPart n x).floorSum = s.floorSum := rfl
@[simp] theorem State.setPart_view_limit (n : Nat) (x : Part)  : (s.setPart n x).limit = s.limit := rfl
@[simp] theorem State.setPart_view_stamp (n : Nat) (x : Part)  : (s.setPart n x).stamp = s.stamp := rfl
@[simp] theorem State.setPart_view_now (n : Nat) (x : Part)  : (s.setPart n x).now = s.now := rfl
@[simp] theorem State.setPart_view_mono (n : Nat) (x : Part)  : (s.setPart n x).mono = s.mono := rfl
@[simp] theorem State.setPart_view_powered (n : Nat) (x : Part)  : (s.setPart n x).powered = s.powered := rfl
@[simp] theorem State.setPart_view_tadpole (n : Nat) (x : Part)  : (s.setPart n x).tadpole = s.tadpole := rfl
@[simp] theorem State.setPart_view_dmaOk (n : Nat) (x : Part) (n' : Nat) : (s.setPart n x).dmaOk n' = s.dmaOk n' := rfl

@[simp] theorem State.setTower_clock (n : Nat) (x : Tower) : (s.setTower n x).clock = s.clock := rfl
@[simp] theorem State.setTower_free (n : Nat) (x : Tower) : (s.setTower n x).free = s.free := rfl
@[simp] theorem State.setTower_pending (n : Nat) (x : Tower) : (s.setTower n x).pending = s.pending := rfl
@[simp] theorem State.setTower_out (n : Nat) (x : Tower) : (s.setTower n x).out = s.out := rfl
@[simp] theorem State.setTower_rails (n : Nat) (x : Tower) : (s.setTower n x).rails = s.rails := rfl
@[simp] theorem State.setTower_fuse (n : Nat) (x : Tower) : (s.setTower n x).fuse = s.fuse := rfl
@[simp] theorem State.setTower_digest (n : Nat) (x : Tower) : (s.setTower n x).digest = s.digest := rfl
@[simp] theorem State.setTower_srep (n : Nat) (x : Tower) : (s.setTower n x).srep = s.srep := rfl
@[simp] theorem State.setTower_sb (n : Nat) (x : Tower) : (s.setTower n x).sb = s.sb := rfl
@[simp] theorem State.setTower_trip (n : Nat) (x : Tower) : (s.setTower n x).trip = s.trip := rfl
@[simp] theorem State.setTower_bup (n : Nat) (x : Tower) : (s.setTower n x).bup = s.bup := rfl
@[simp] theorem State.setTower_link (n : Nat) (x : Tower) : (s.setTower n x).link = s.link := rfl
@[simp] theorem State.setTower_mbx (n : Nat) (x : Tower) : (s.setTower n x).mbx = s.mbx := rfl
@[simp] theorem State.setTower_stage (n : Nat) (x : Tower) : (s.setTower n x).stage = s.stage := rfl
@[simp] theorem State.setTower_img (n : Nat) (x : Tower) : (s.setTower n x).img = s.img := rfl
@[simp] theorem State.setTower_frame (n : Nat) (x : Tower) : (s.setTower n x).frame = s.frame := rfl
@[simp] theorem State.setTower_parts (n : Nat) (x : Tower) : (s.setTower n x).parts = s.parts := rfl
@[simp] theorem State.setTower_tagErr (n : Nat) (x : Tower) : (s.setTower n x).tagErr = s.tagErr := rfl
@[simp] theorem State.setTower_tagErrLast (n : Nat) (x : Tower) : (s.setTower n x).tagErrLast = s.tagErrLast := rfl
@[simp] theorem State.setTower_drbgOk (n : Nat) (x : Tower) : (s.setTower n x).drbgOk = s.drbgOk := rfl
@[simp] theorem State.setTower_drbg (n : Nat) (x : Tower) : (s.setTower n x).drbg = s.drbg := rfl
@[simp] theorem State.setTower_keys (n : Nat) (x : Tower) : (s.setTower n x).keys = s.keys := rfl
@[simp] theorem State.setTower_window (n : Nat) (x : Tower) : (s.setTower n x).window = s.window := rfl
@[simp] theorem State.setTower_windows (n : Nat) (x : Tower) : (s.setTower n x).windows = s.windows := rfl
@[simp] theorem State.setTower_cores (n : Nat) (x : Tower) : (s.setTower n x).cores = s.cores := rfl
@[simp] theorem State.setTower_nbStacks (n : Nat) (x : Tower) : (s.setTower n x).nbStacks = s.nbStacks := rfl
@[simp] theorem State.setTower_nbus (n : Nat) (x : Tower) : (s.setTower n x).nbus = s.nbus := rfl
@[simp] theorem State.setTower_regions (n : Nat) (x : Tower) : (s.setTower n x).regions = s.regions := rfl
@[simp] theorem State.setTower_rings (n : Nat) (x : Tower) : (s.setTower n x).rings = s.rings := rfl
@[simp] theorem State.setTower_pfQueSel (n : Nat) (x : Tower) : (s.setTower n x).pfQueSel = s.pfQueSel := rfl
@[simp] theorem State.setTower_pfBadDb (n : Nat) (x : Tower) : (s.setTower n x).pfBadDb = s.pfBadDb := rfl
@[simp] theorem State.setTower_pools (n : Nat) (x : Tower) : (s.setTower n x).pools = s.pools := rfl
@[simp] theorem State.setTower_poolErr (n : Nat) (x : Tower) : (s.setTower n x).poolErr = s.poolErr := rfl
@[simp] theorem State.setTower_turn (n : Nat) (x : Tower) : (s.setTower n x).turn = s.turn := rfl
@[simp] theorem State.setTower_fab (n : Nat) (x : Tower) : (s.setTower n x).fab = s.fab := rfl
@[simp] theorem State.setTower_tim (n : Nat) (x : Tower) : (s.setTower n x).tim = s.tim := rfl
@[simp] theorem State.setTower_pwr (n : Nat) (x : Tower) : (s.setTower n x).pwr = s.pwr := rfl
@[simp] theorem State.setTower_evc (n : Nat) (x : Tower) : (s.setTower n x).evc = s.evc := rfl
@[simp] theorem State.setTower_snap (n : Nat) (x : Tower) : (s.setTower n x).snap = s.snap := rfl
@[simp] theorem State.setTower_flt (n : Nat) (x : Tower) : (s.setTower n x).flt = s.flt := rfl
@[simp] theorem State.setTower_lamps (n : Nat) (x : Tower) : (s.setTower n x).lamps = s.lamps := rfl
@[simp] theorem State.setTower_recals (n : Nat) (x : Tower) : (s.setTower n x).recals = s.recals := rfl
@[simp] theorem State.setTower_test (n : Nat) (x : Tower) : (s.setTower n x).test = s.test := rfl
@[simp] theorem State.setTower_view_core (n : Nat) (x : Tower) (c' : Nat) : (s.setTower n x).core c' = s.core c' := rfl
@[simp] theorem State.setTower_view_part (n : Nat) (x : Tower) (n' : Nat) : (s.setTower n x).part n' = s.part n' := rfl
@[simp] theorem State.setTower_view_stack (n : Nat) (x : Tower) (k' : Nat) : (s.setTower n x).stack k' = s.stack k' := rfl
@[simp] theorem State.setTower_view_nbu (n : Nat) (x : Tower) (i' : Nat) : (s.setTower n x).nbu i' = s.nbu i' := rfl
@[simp] theorem State.setTower_view_region (n : Nat) (x : Tower) (i' : Nat) : (s.setTower n x).region i' = s.region i' := rfl
@[simp] theorem State.setTower_view_ring (n : Nat) (x : Tower) (r' : Nat) : (s.setTower n x).ring r' = s.ring r' := rfl
@[simp] theorem State.setTower_view_pool (n : Nat) (x : Tower) (p' : Nat) : (s.setTower n x).pool p' = s.pool p' := rfl
@[simp] theorem State.setTower_view_lamp (n : Nat) (x : Tower) (n' : Nat) : (s.setTower n x).lamp n' = s.lamp n' := rfl
@[simp] theorem State.setTower_view_key (n : Nat) (x : Tower) (k' : Nat) : (s.setTower n x).key k' = s.key k' := rfl
@[simp] theorem State.setTower_view_port (n : Nat) (x : Tower) (p' : Nat) : (s.setTower n x).port p' = s.port p' := rfl
@[simp] theorem State.setTower_view_dk36 (n : Nat) (x : Tower)  : (s.setTower n x).dk36 = s.dk36 := rfl
@[simp] theorem State.setTower_view_hubId (n : Nat) (x : Tower)  : (s.setTower n x).hubId = s.hubId := rfl
@[simp] theorem State.setTower_view_portCount (n : Nat) (x : Tower)  : (s.setTower n x).portCount = s.portCount := rfl
@[simp] theorem State.setTower_view_stackRows (n : Nat) (x : Tower)  : (s.setTower n x).stackRows = s.stackRows := rfl
@[simp] theorem State.setTower_view_groupUp (n : Nat) (x : Tower) (n' g' : Nat) : (s.setTower n x).groupUp n' g' = s.groupUp n' g' := rfl
@[simp] theorem State.setTower_view_coreUp (n : Nat) (x : Tower) (c' : Nat) : (s.setTower n x).coreUp c' = s.coreUp c' := rfl
@[simp] theorem State.setTower_view_stackUp (n : Nat) (x : Tower) (k' : Nat) : (s.setTower n x).stackUp k' = s.stackUp k' := rfl
@[simp] theorem State.setTower_view_partRec (n : Nat) (x : Tower) (n' : Nat) : (s.setTower n x).partRec n' = s.partRec n' := rfl
@[simp] theorem State.setTower_view_coreOwner (n : Nat) (x : Tower) (c' : Nat) : (s.setTower n x).coreOwner c' = s.coreOwner c' := rfl
@[simp] theorem State.setTower_view_regionRec (n : Nat) (x : Tower) (i' : Nat) : (s.setTower n x).regionRec i' = s.regionRec i' := rfl
@[simp] theorem State.setTower_view_poolRec (n : Nat) (x : Tower) (p' : Nat) : (s.setTower n x).poolRec p' = s.poolRec p' := rfl
@[simp] theorem State.setTower_view_ringOwner (n : Nat) (x : Tower) (r' : Nat) : (s.setTower n x).ringOwner r' = s.ringOwner r' := rfl
@[simp] theorem State.setTower_view_absRing (n : Nat) (x : Tower) (n' r' : Nat) : (s.setTower n x).absRing n' r' = s.absRing n' r' := rfl
@[simp] theorem State.setTower_view_pinned (n : Nat) (x : Tower) (c' : Nat) : (s.setTower n x).pinned c' = s.pinned c' := rfl
@[simp] theorem State.setTower_view_image (n : Nat) (x : Tower) (n' : Nat) : (s.setTower n x).image n' = s.image n' := rfl
@[simp] theorem State.setTower_view_floorSum (n : Nat) (x : Tower)  : (s.setTower n x).floorSum = s.floorSum := rfl
@[simp] theorem State.setTower_view_limit (n : Nat) (x : Tower)  : (s.setTower n x).limit = s.limit := rfl
@[simp] theorem State.setTower_view_stamp (n : Nat) (x : Tower)  : (s.setTower n x).stamp = s.stamp := rfl
@[simp] theorem State.setTower_view_now (n : Nat) (x : Tower)  : (s.setTower n x).now = s.now := rfl
@[simp] theorem State.setTower_view_mono (n : Nat) (x : Tower)  : (s.setTower n x).mono = s.mono := rfl
@[simp] theorem State.setTower_view_powered (n : Nat) (x : Tower)  : (s.setTower n x).powered = s.powered := rfl
@[simp] theorem State.setTower_view_tadpole (n : Nat) (x : Tower)  : (s.setTower n x).tadpole = s.tadpole := rfl
@[simp] theorem State.setTower_view_dmaOk (n : Nat) (x : Tower) (n' : Nat) : (s.setTower n x).dmaOk n' = s.dmaOk n' := rfl

@[simp] theorem State.setStack_clock (k : Nat) (x : Stack) : (s.setStack k x).clock = s.clock := rfl
@[simp] theorem State.setStack_free (k : Nat) (x : Stack) : (s.setStack k x).free = s.free := rfl
@[simp] theorem State.setStack_pending (k : Nat) (x : Stack) : (s.setStack k x).pending = s.pending := rfl
@[simp] theorem State.setStack_out (k : Nat) (x : Stack) : (s.setStack k x).out = s.out := rfl
@[simp] theorem State.setStack_rails (k : Nat) (x : Stack) : (s.setStack k x).rails = s.rails := rfl
@[simp] theorem State.setStack_fuse (k : Nat) (x : Stack) : (s.setStack k x).fuse = s.fuse := rfl
@[simp] theorem State.setStack_digest (k : Nat) (x : Stack) : (s.setStack k x).digest = s.digest := rfl
@[simp] theorem State.setStack_srep (k : Nat) (x : Stack) : (s.setStack k x).srep = s.srep := rfl
@[simp] theorem State.setStack_sb (k : Nat) (x : Stack) : (s.setStack k x).sb = s.sb := rfl
@[simp] theorem State.setStack_trip (k : Nat) (x : Stack) : (s.setStack k x).trip = s.trip := rfl
@[simp] theorem State.setStack_bup (k : Nat) (x : Stack) : (s.setStack k x).bup = s.bup := rfl
@[simp] theorem State.setStack_link (k : Nat) (x : Stack) : (s.setStack k x).link = s.link := rfl
@[simp] theorem State.setStack_mbx (k : Nat) (x : Stack) : (s.setStack k x).mbx = s.mbx := rfl
@[simp] theorem State.setStack_stage (k : Nat) (x : Stack) : (s.setStack k x).stage = s.stage := rfl
@[simp] theorem State.setStack_img (k : Nat) (x : Stack) : (s.setStack k x).img = s.img := rfl
@[simp] theorem State.setStack_frame (k : Nat) (x : Stack) : (s.setStack k x).frame = s.frame := rfl
@[simp] theorem State.setStack_parts (k : Nat) (x : Stack) : (s.setStack k x).parts = s.parts := rfl
@[simp] theorem State.setStack_tagErr (k : Nat) (x : Stack) : (s.setStack k x).tagErr = s.tagErr := rfl
@[simp] theorem State.setStack_tagErrLast (k : Nat) (x : Stack) : (s.setStack k x).tagErrLast = s.tagErrLast := rfl
@[simp] theorem State.setStack_drbgOk (k : Nat) (x : Stack) : (s.setStack k x).drbgOk = s.drbgOk := rfl
@[simp] theorem State.setStack_drbg (k : Nat) (x : Stack) : (s.setStack k x).drbg = s.drbg := rfl
@[simp] theorem State.setStack_keys (k : Nat) (x : Stack) : (s.setStack k x).keys = s.keys := rfl
@[simp] theorem State.setStack_window (k : Nat) (x : Stack) : (s.setStack k x).window = s.window := rfl
@[simp] theorem State.setStack_windows (k : Nat) (x : Stack) : (s.setStack k x).windows = s.windows := rfl
@[simp] theorem State.setStack_cores (k : Nat) (x : Stack) : (s.setStack k x).cores = s.cores := rfl
@[simp] theorem State.setStack_towers (k : Nat) (x : Stack) : (s.setStack k x).towers = s.towers := rfl
@[simp] theorem State.setStack_nbus (k : Nat) (x : Stack) : (s.setStack k x).nbus = s.nbus := rfl
@[simp] theorem State.setStack_regions (k : Nat) (x : Stack) : (s.setStack k x).regions = s.regions := rfl
@[simp] theorem State.setStack_rings (k : Nat) (x : Stack) : (s.setStack k x).rings = s.rings := rfl
@[simp] theorem State.setStack_pfQueSel (k : Nat) (x : Stack) : (s.setStack k x).pfQueSel = s.pfQueSel := rfl
@[simp] theorem State.setStack_pfBadDb (k : Nat) (x : Stack) : (s.setStack k x).pfBadDb = s.pfBadDb := rfl
@[simp] theorem State.setStack_pools (k : Nat) (x : Stack) : (s.setStack k x).pools = s.pools := rfl
@[simp] theorem State.setStack_poolErr (k : Nat) (x : Stack) : (s.setStack k x).poolErr = s.poolErr := rfl
@[simp] theorem State.setStack_turn (k : Nat) (x : Stack) : (s.setStack k x).turn = s.turn := rfl
@[simp] theorem State.setStack_fab (k : Nat) (x : Stack) : (s.setStack k x).fab = s.fab := rfl
@[simp] theorem State.setStack_tim (k : Nat) (x : Stack) : (s.setStack k x).tim = s.tim := rfl
@[simp] theorem State.setStack_pwr (k : Nat) (x : Stack) : (s.setStack k x).pwr = s.pwr := rfl
@[simp] theorem State.setStack_evc (k : Nat) (x : Stack) : (s.setStack k x).evc = s.evc := rfl
@[simp] theorem State.setStack_snap (k : Nat) (x : Stack) : (s.setStack k x).snap = s.snap := rfl
@[simp] theorem State.setStack_flt (k : Nat) (x : Stack) : (s.setStack k x).flt = s.flt := rfl
@[simp] theorem State.setStack_lamps (k : Nat) (x : Stack) : (s.setStack k x).lamps = s.lamps := rfl
@[simp] theorem State.setStack_recals (k : Nat) (x : Stack) : (s.setStack k x).recals = s.recals := rfl
@[simp] theorem State.setStack_test (k : Nat) (x : Stack) : (s.setStack k x).test = s.test := rfl
@[simp] theorem State.setStack_view_core (k : Nat) (x : Stack) (c' : Nat) : (s.setStack k x).core c' = s.core c' := rfl
@[simp] theorem State.setStack_view_part (k : Nat) (x : Stack) (n' : Nat) : (s.setStack k x).part n' = s.part n' := rfl
@[simp] theorem State.setStack_view_tower (k : Nat) (x : Stack) (n' : Nat) : (s.setStack k x).tower n' = s.tower n' := rfl
@[simp] theorem State.setStack_view_nbu (k : Nat) (x : Stack) (i' : Nat) : (s.setStack k x).nbu i' = s.nbu i' := rfl
@[simp] theorem State.setStack_view_region (k : Nat) (x : Stack) (i' : Nat) : (s.setStack k x).region i' = s.region i' := rfl
@[simp] theorem State.setStack_view_ring (k : Nat) (x : Stack) (r' : Nat) : (s.setStack k x).ring r' = s.ring r' := rfl
@[simp] theorem State.setStack_view_pool (k : Nat) (x : Stack) (p' : Nat) : (s.setStack k x).pool p' = s.pool p' := rfl
@[simp] theorem State.setStack_view_lamp (k : Nat) (x : Stack) (n' : Nat) : (s.setStack k x).lamp n' = s.lamp n' := rfl
@[simp] theorem State.setStack_view_key (k : Nat) (x : Stack) (k' : Nat) : (s.setStack k x).key k' = s.key k' := rfl
@[simp] theorem State.setStack_view_port (k : Nat) (x : Stack) (p' : Nat) : (s.setStack k x).port p' = s.port p' := rfl
@[simp] theorem State.setStack_view_dk36 (k : Nat) (x : Stack)  : (s.setStack k x).dk36 = s.dk36 := rfl
@[simp] theorem State.setStack_view_hubId (k : Nat) (x : Stack)  : (s.setStack k x).hubId = s.hubId := rfl
@[simp] theorem State.setStack_view_portCount (k : Nat) (x : Stack)  : (s.setStack k x).portCount = s.portCount := rfl
@[simp] theorem State.setStack_view_stackRows (k : Nat) (x : Stack)  : (s.setStack k x).stackRows = s.stackRows := rfl
@[simp] theorem State.setStack_view_groupUp (k : Nat) (x : Stack) (n' g' : Nat) : (s.setStack k x).groupUp n' g' = s.groupUp n' g' := rfl
@[simp] theorem State.setStack_view_coreUp (k : Nat) (x : Stack) (c' : Nat) : (s.setStack k x).coreUp c' = s.coreUp c' := rfl
@[simp] theorem State.setStack_view_stackUp (k : Nat) (x : Stack) (k' : Nat) : (s.setStack k x).stackUp k' = s.stackUp k' := rfl
@[simp] theorem State.setStack_view_partRec (k : Nat) (x : Stack) (n' : Nat) : (s.setStack k x).partRec n' = s.partRec n' := rfl
@[simp] theorem State.setStack_view_coreOwner (k : Nat) (x : Stack) (c' : Nat) : (s.setStack k x).coreOwner c' = s.coreOwner c' := rfl
@[simp] theorem State.setStack_view_regionRec (k : Nat) (x : Stack) (i' : Nat) : (s.setStack k x).regionRec i' = s.regionRec i' := rfl
@[simp] theorem State.setStack_view_poolRec (k : Nat) (x : Stack) (p' : Nat) : (s.setStack k x).poolRec p' = s.poolRec p' := rfl
@[simp] theorem State.setStack_view_ringOwner (k : Nat) (x : Stack) (r' : Nat) : (s.setStack k x).ringOwner r' = s.ringOwner r' := rfl
@[simp] theorem State.setStack_view_absRing (k : Nat) (x : Stack) (n' r' : Nat) : (s.setStack k x).absRing n' r' = s.absRing n' r' := rfl
@[simp] theorem State.setStack_view_pinned (k : Nat) (x : Stack) (c' : Nat) : (s.setStack k x).pinned c' = s.pinned c' := rfl
@[simp] theorem State.setStack_view_image (k : Nat) (x : Stack) (n' : Nat) : (s.setStack k x).image n' = s.image n' := rfl
@[simp] theorem State.setStack_view_floorSum (k : Nat) (x : Stack)  : (s.setStack k x).floorSum = s.floorSum := rfl
@[simp] theorem State.setStack_view_limit (k : Nat) (x : Stack)  : (s.setStack k x).limit = s.limit := rfl
@[simp] theorem State.setStack_view_stamp (k : Nat) (x : Stack)  : (s.setStack k x).stamp = s.stamp := rfl
@[simp] theorem State.setStack_view_now (k : Nat) (x : Stack)  : (s.setStack k x).now = s.now := rfl
@[simp] theorem State.setStack_view_mono (k : Nat) (x : Stack)  : (s.setStack k x).mono = s.mono := rfl
@[simp] theorem State.setStack_view_powered (k : Nat) (x : Stack)  : (s.setStack k x).powered = s.powered := rfl
@[simp] theorem State.setStack_view_tadpole (k : Nat) (x : Stack)  : (s.setStack k x).tadpole = s.tadpole := rfl
@[simp] theorem State.setStack_view_dmaOk (k : Nat) (x : Stack) (n' : Nat) : (s.setStack k x).dmaOk n' = s.dmaOk n' := rfl

@[simp] theorem State.setNbu_clock (i : Nat) (x : Nbu) : (s.setNbu i x).clock = s.clock := rfl
@[simp] theorem State.setNbu_free (i : Nat) (x : Nbu) : (s.setNbu i x).free = s.free := rfl
@[simp] theorem State.setNbu_pending (i : Nat) (x : Nbu) : (s.setNbu i x).pending = s.pending := rfl
@[simp] theorem State.setNbu_out (i : Nat) (x : Nbu) : (s.setNbu i x).out = s.out := rfl
@[simp] theorem State.setNbu_rails (i : Nat) (x : Nbu) : (s.setNbu i x).rails = s.rails := rfl
@[simp] theorem State.setNbu_fuse (i : Nat) (x : Nbu) : (s.setNbu i x).fuse = s.fuse := rfl
@[simp] theorem State.setNbu_digest (i : Nat) (x : Nbu) : (s.setNbu i x).digest = s.digest := rfl
@[simp] theorem State.setNbu_srep (i : Nat) (x : Nbu) : (s.setNbu i x).srep = s.srep := rfl
@[simp] theorem State.setNbu_sb (i : Nat) (x : Nbu) : (s.setNbu i x).sb = s.sb := rfl
@[simp] theorem State.setNbu_trip (i : Nat) (x : Nbu) : (s.setNbu i x).trip = s.trip := rfl
@[simp] theorem State.setNbu_bup (i : Nat) (x : Nbu) : (s.setNbu i x).bup = s.bup := rfl
@[simp] theorem State.setNbu_link (i : Nat) (x : Nbu) : (s.setNbu i x).link = s.link := rfl
@[simp] theorem State.setNbu_mbx (i : Nat) (x : Nbu) : (s.setNbu i x).mbx = s.mbx := rfl
@[simp] theorem State.setNbu_stage (i : Nat) (x : Nbu) : (s.setNbu i x).stage = s.stage := rfl
@[simp] theorem State.setNbu_img (i : Nat) (x : Nbu) : (s.setNbu i x).img = s.img := rfl
@[simp] theorem State.setNbu_frame (i : Nat) (x : Nbu) : (s.setNbu i x).frame = s.frame := rfl
@[simp] theorem State.setNbu_parts (i : Nat) (x : Nbu) : (s.setNbu i x).parts = s.parts := rfl
@[simp] theorem State.setNbu_tagErr (i : Nat) (x : Nbu) : (s.setNbu i x).tagErr = s.tagErr := rfl
@[simp] theorem State.setNbu_tagErrLast (i : Nat) (x : Nbu) : (s.setNbu i x).tagErrLast = s.tagErrLast := rfl
@[simp] theorem State.setNbu_drbgOk (i : Nat) (x : Nbu) : (s.setNbu i x).drbgOk = s.drbgOk := rfl
@[simp] theorem State.setNbu_drbg (i : Nat) (x : Nbu) : (s.setNbu i x).drbg = s.drbg := rfl
@[simp] theorem State.setNbu_keys (i : Nat) (x : Nbu) : (s.setNbu i x).keys = s.keys := rfl
@[simp] theorem State.setNbu_window (i : Nat) (x : Nbu) : (s.setNbu i x).window = s.window := rfl
@[simp] theorem State.setNbu_windows (i : Nat) (x : Nbu) : (s.setNbu i x).windows = s.windows := rfl
@[simp] theorem State.setNbu_cores (i : Nat) (x : Nbu) : (s.setNbu i x).cores = s.cores := rfl
@[simp] theorem State.setNbu_towers (i : Nat) (x : Nbu) : (s.setNbu i x).towers = s.towers := rfl
@[simp] theorem State.setNbu_nbStacks (i : Nat) (x : Nbu) : (s.setNbu i x).nbStacks = s.nbStacks := rfl
@[simp] theorem State.setNbu_regions (i : Nat) (x : Nbu) : (s.setNbu i x).regions = s.regions := rfl
@[simp] theorem State.setNbu_rings (i : Nat) (x : Nbu) : (s.setNbu i x).rings = s.rings := rfl
@[simp] theorem State.setNbu_pfQueSel (i : Nat) (x : Nbu) : (s.setNbu i x).pfQueSel = s.pfQueSel := rfl
@[simp] theorem State.setNbu_pfBadDb (i : Nat) (x : Nbu) : (s.setNbu i x).pfBadDb = s.pfBadDb := rfl
@[simp] theorem State.setNbu_pools (i : Nat) (x : Nbu) : (s.setNbu i x).pools = s.pools := rfl
@[simp] theorem State.setNbu_poolErr (i : Nat) (x : Nbu) : (s.setNbu i x).poolErr = s.poolErr := rfl
@[simp] theorem State.setNbu_turn (i : Nat) (x : Nbu) : (s.setNbu i x).turn = s.turn := rfl
@[simp] theorem State.setNbu_fab (i : Nat) (x : Nbu) : (s.setNbu i x).fab = s.fab := rfl
@[simp] theorem State.setNbu_tim (i : Nat) (x : Nbu) : (s.setNbu i x).tim = s.tim := rfl
@[simp] theorem State.setNbu_pwr (i : Nat) (x : Nbu) : (s.setNbu i x).pwr = s.pwr := rfl
@[simp] theorem State.setNbu_evc (i : Nat) (x : Nbu) : (s.setNbu i x).evc = s.evc := rfl
@[simp] theorem State.setNbu_snap (i : Nat) (x : Nbu) : (s.setNbu i x).snap = s.snap := rfl
@[simp] theorem State.setNbu_flt (i : Nat) (x : Nbu) : (s.setNbu i x).flt = s.flt := rfl
@[simp] theorem State.setNbu_lamps (i : Nat) (x : Nbu) : (s.setNbu i x).lamps = s.lamps := rfl
@[simp] theorem State.setNbu_recals (i : Nat) (x : Nbu) : (s.setNbu i x).recals = s.recals := rfl
@[simp] theorem State.setNbu_test (i : Nat) (x : Nbu) : (s.setNbu i x).test = s.test := rfl
@[simp] theorem State.setNbu_view_core (i : Nat) (x : Nbu) (c' : Nat) : (s.setNbu i x).core c' = s.core c' := rfl
@[simp] theorem State.setNbu_view_part (i : Nat) (x : Nbu) (n' : Nat) : (s.setNbu i x).part n' = s.part n' := rfl
@[simp] theorem State.setNbu_view_tower (i : Nat) (x : Nbu) (n' : Nat) : (s.setNbu i x).tower n' = s.tower n' := rfl
@[simp] theorem State.setNbu_view_stack (i : Nat) (x : Nbu) (k' : Nat) : (s.setNbu i x).stack k' = s.stack k' := rfl
@[simp] theorem State.setNbu_view_region (i : Nat) (x : Nbu) (i' : Nat) : (s.setNbu i x).region i' = s.region i' := rfl
@[simp] theorem State.setNbu_view_ring (i : Nat) (x : Nbu) (r' : Nat) : (s.setNbu i x).ring r' = s.ring r' := rfl
@[simp] theorem State.setNbu_view_pool (i : Nat) (x : Nbu) (p' : Nat) : (s.setNbu i x).pool p' = s.pool p' := rfl
@[simp] theorem State.setNbu_view_lamp (i : Nat) (x : Nbu) (n' : Nat) : (s.setNbu i x).lamp n' = s.lamp n' := rfl
@[simp] theorem State.setNbu_view_key (i : Nat) (x : Nbu) (k' : Nat) : (s.setNbu i x).key k' = s.key k' := rfl
@[simp] theorem State.setNbu_view_port (i : Nat) (x : Nbu) (p' : Nat) : (s.setNbu i x).port p' = s.port p' := rfl
@[simp] theorem State.setNbu_view_dk36 (i : Nat) (x : Nbu)  : (s.setNbu i x).dk36 = s.dk36 := rfl
@[simp] theorem State.setNbu_view_hubId (i : Nat) (x : Nbu)  : (s.setNbu i x).hubId = s.hubId := rfl
@[simp] theorem State.setNbu_view_portCount (i : Nat) (x : Nbu)  : (s.setNbu i x).portCount = s.portCount := rfl
@[simp] theorem State.setNbu_view_stackRows (i : Nat) (x : Nbu)  : (s.setNbu i x).stackRows = s.stackRows := rfl
@[simp] theorem State.setNbu_view_groupUp (i : Nat) (x : Nbu) (n' g' : Nat) : (s.setNbu i x).groupUp n' g' = s.groupUp n' g' := rfl
@[simp] theorem State.setNbu_view_coreUp (i : Nat) (x : Nbu) (c' : Nat) : (s.setNbu i x).coreUp c' = s.coreUp c' := rfl
@[simp] theorem State.setNbu_view_stackUp (i : Nat) (x : Nbu) (k' : Nat) : (s.setNbu i x).stackUp k' = s.stackUp k' := rfl
@[simp] theorem State.setNbu_view_partRec (i : Nat) (x : Nbu) (n' : Nat) : (s.setNbu i x).partRec n' = s.partRec n' := rfl
@[simp] theorem State.setNbu_view_coreOwner (i : Nat) (x : Nbu) (c' : Nat) : (s.setNbu i x).coreOwner c' = s.coreOwner c' := rfl
@[simp] theorem State.setNbu_view_regionRec (i : Nat) (x : Nbu) (i' : Nat) : (s.setNbu i x).regionRec i' = s.regionRec i' := rfl
@[simp] theorem State.setNbu_view_poolRec (i : Nat) (x : Nbu) (p' : Nat) : (s.setNbu i x).poolRec p' = s.poolRec p' := rfl
@[simp] theorem State.setNbu_view_ringOwner (i : Nat) (x : Nbu) (r' : Nat) : (s.setNbu i x).ringOwner r' = s.ringOwner r' := rfl
@[simp] theorem State.setNbu_view_absRing (i : Nat) (x : Nbu) (n' r' : Nat) : (s.setNbu i x).absRing n' r' = s.absRing n' r' := rfl
@[simp] theorem State.setNbu_view_pinned (i : Nat) (x : Nbu) (c' : Nat) : (s.setNbu i x).pinned c' = s.pinned c' := rfl
@[simp] theorem State.setNbu_view_image (i : Nat) (x : Nbu) (n' : Nat) : (s.setNbu i x).image n' = s.image n' := rfl
@[simp] theorem State.setNbu_view_floorSum (i : Nat) (x : Nbu)  : (s.setNbu i x).floorSum = s.floorSum := rfl
@[simp] theorem State.setNbu_view_limit (i : Nat) (x : Nbu)  : (s.setNbu i x).limit = s.limit := rfl
@[simp] theorem State.setNbu_view_stamp (i : Nat) (x : Nbu)  : (s.setNbu i x).stamp = s.stamp := rfl
@[simp] theorem State.setNbu_view_now (i : Nat) (x : Nbu)  : (s.setNbu i x).now = s.now := rfl
@[simp] theorem State.setNbu_view_mono (i : Nat) (x : Nbu)  : (s.setNbu i x).mono = s.mono := rfl
@[simp] theorem State.setNbu_view_powered (i : Nat) (x : Nbu)  : (s.setNbu i x).powered = s.powered := rfl
@[simp] theorem State.setNbu_view_tadpole (i : Nat) (x : Nbu)  : (s.setNbu i x).tadpole = s.tadpole := rfl
@[simp] theorem State.setNbu_view_dmaOk (i : Nat) (x : Nbu) (n' : Nat) : (s.setNbu i x).dmaOk n' = s.dmaOk n' := rfl

@[simp] theorem State.setRegion_clock (i : Nat) (x : Region) : (s.setRegion i x).clock = s.clock := rfl
@[simp] theorem State.setRegion_free (i : Nat) (x : Region) : (s.setRegion i x).free = s.free := rfl
@[simp] theorem State.setRegion_pending (i : Nat) (x : Region) : (s.setRegion i x).pending = s.pending := rfl
@[simp] theorem State.setRegion_out (i : Nat) (x : Region) : (s.setRegion i x).out = s.out := rfl
@[simp] theorem State.setRegion_rails (i : Nat) (x : Region) : (s.setRegion i x).rails = s.rails := rfl
@[simp] theorem State.setRegion_fuse (i : Nat) (x : Region) : (s.setRegion i x).fuse = s.fuse := rfl
@[simp] theorem State.setRegion_digest (i : Nat) (x : Region) : (s.setRegion i x).digest = s.digest := rfl
@[simp] theorem State.setRegion_srep (i : Nat) (x : Region) : (s.setRegion i x).srep = s.srep := rfl
@[simp] theorem State.setRegion_sb (i : Nat) (x : Region) : (s.setRegion i x).sb = s.sb := rfl
@[simp] theorem State.setRegion_trip (i : Nat) (x : Region) : (s.setRegion i x).trip = s.trip := rfl
@[simp] theorem State.setRegion_bup (i : Nat) (x : Region) : (s.setRegion i x).bup = s.bup := rfl
@[simp] theorem State.setRegion_link (i : Nat) (x : Region) : (s.setRegion i x).link = s.link := rfl
@[simp] theorem State.setRegion_mbx (i : Nat) (x : Region) : (s.setRegion i x).mbx = s.mbx := rfl
@[simp] theorem State.setRegion_stage (i : Nat) (x : Region) : (s.setRegion i x).stage = s.stage := rfl
@[simp] theorem State.setRegion_img (i : Nat) (x : Region) : (s.setRegion i x).img = s.img := rfl
@[simp] theorem State.setRegion_frame (i : Nat) (x : Region) : (s.setRegion i x).frame = s.frame := rfl
@[simp] theorem State.setRegion_parts (i : Nat) (x : Region) : (s.setRegion i x).parts = s.parts := rfl
@[simp] theorem State.setRegion_tagErr (i : Nat) (x : Region) : (s.setRegion i x).tagErr = s.tagErr := rfl
@[simp] theorem State.setRegion_tagErrLast (i : Nat) (x : Region) : (s.setRegion i x).tagErrLast = s.tagErrLast := rfl
@[simp] theorem State.setRegion_drbgOk (i : Nat) (x : Region) : (s.setRegion i x).drbgOk = s.drbgOk := rfl
@[simp] theorem State.setRegion_drbg (i : Nat) (x : Region) : (s.setRegion i x).drbg = s.drbg := rfl
@[simp] theorem State.setRegion_keys (i : Nat) (x : Region) : (s.setRegion i x).keys = s.keys := rfl
@[simp] theorem State.setRegion_window (i : Nat) (x : Region) : (s.setRegion i x).window = s.window := rfl
@[simp] theorem State.setRegion_windows (i : Nat) (x : Region) : (s.setRegion i x).windows = s.windows := rfl
@[simp] theorem State.setRegion_cores (i : Nat) (x : Region) : (s.setRegion i x).cores = s.cores := rfl
@[simp] theorem State.setRegion_towers (i : Nat) (x : Region) : (s.setRegion i x).towers = s.towers := rfl
@[simp] theorem State.setRegion_nbStacks (i : Nat) (x : Region) : (s.setRegion i x).nbStacks = s.nbStacks := rfl
@[simp] theorem State.setRegion_nbus (i : Nat) (x : Region) : (s.setRegion i x).nbus = s.nbus := rfl
@[simp] theorem State.setRegion_rings (i : Nat) (x : Region) : (s.setRegion i x).rings = s.rings := rfl
@[simp] theorem State.setRegion_pfQueSel (i : Nat) (x : Region) : (s.setRegion i x).pfQueSel = s.pfQueSel := rfl
@[simp] theorem State.setRegion_pfBadDb (i : Nat) (x : Region) : (s.setRegion i x).pfBadDb = s.pfBadDb := rfl
@[simp] theorem State.setRegion_pools (i : Nat) (x : Region) : (s.setRegion i x).pools = s.pools := rfl
@[simp] theorem State.setRegion_poolErr (i : Nat) (x : Region) : (s.setRegion i x).poolErr = s.poolErr := rfl
@[simp] theorem State.setRegion_turn (i : Nat) (x : Region) : (s.setRegion i x).turn = s.turn := rfl
@[simp] theorem State.setRegion_fab (i : Nat) (x : Region) : (s.setRegion i x).fab = s.fab := rfl
@[simp] theorem State.setRegion_tim (i : Nat) (x : Region) : (s.setRegion i x).tim = s.tim := rfl
@[simp] theorem State.setRegion_pwr (i : Nat) (x : Region) : (s.setRegion i x).pwr = s.pwr := rfl
@[simp] theorem State.setRegion_evc (i : Nat) (x : Region) : (s.setRegion i x).evc = s.evc := rfl
@[simp] theorem State.setRegion_snap (i : Nat) (x : Region) : (s.setRegion i x).snap = s.snap := rfl
@[simp] theorem State.setRegion_flt (i : Nat) (x : Region) : (s.setRegion i x).flt = s.flt := rfl
@[simp] theorem State.setRegion_lamps (i : Nat) (x : Region) : (s.setRegion i x).lamps = s.lamps := rfl
@[simp] theorem State.setRegion_recals (i : Nat) (x : Region) : (s.setRegion i x).recals = s.recals := rfl
@[simp] theorem State.setRegion_test (i : Nat) (x : Region) : (s.setRegion i x).test = s.test := rfl
@[simp] theorem State.setRegion_view_core (i : Nat) (x : Region) (c' : Nat) : (s.setRegion i x).core c' = s.core c' := rfl
@[simp] theorem State.setRegion_view_part (i : Nat) (x : Region) (n' : Nat) : (s.setRegion i x).part n' = s.part n' := rfl
@[simp] theorem State.setRegion_view_tower (i : Nat) (x : Region) (n' : Nat) : (s.setRegion i x).tower n' = s.tower n' := rfl
@[simp] theorem State.setRegion_view_stack (i : Nat) (x : Region) (k' : Nat) : (s.setRegion i x).stack k' = s.stack k' := rfl
@[simp] theorem State.setRegion_view_nbu (i : Nat) (x : Region) (i' : Nat) : (s.setRegion i x).nbu i' = s.nbu i' := rfl
@[simp] theorem State.setRegion_view_ring (i : Nat) (x : Region) (r' : Nat) : (s.setRegion i x).ring r' = s.ring r' := rfl
@[simp] theorem State.setRegion_view_pool (i : Nat) (x : Region) (p' : Nat) : (s.setRegion i x).pool p' = s.pool p' := rfl
@[simp] theorem State.setRegion_view_lamp (i : Nat) (x : Region) (n' : Nat) : (s.setRegion i x).lamp n' = s.lamp n' := rfl
@[simp] theorem State.setRegion_view_key (i : Nat) (x : Region) (k' : Nat) : (s.setRegion i x).key k' = s.key k' := rfl
@[simp] theorem State.setRegion_view_port (i : Nat) (x : Region) (p' : Nat) : (s.setRegion i x).port p' = s.port p' := rfl
@[simp] theorem State.setRegion_view_dk36 (i : Nat) (x : Region)  : (s.setRegion i x).dk36 = s.dk36 := rfl
@[simp] theorem State.setRegion_view_hubId (i : Nat) (x : Region)  : (s.setRegion i x).hubId = s.hubId := rfl
@[simp] theorem State.setRegion_view_portCount (i : Nat) (x : Region)  : (s.setRegion i x).portCount = s.portCount := rfl
@[simp] theorem State.setRegion_view_stackRows (i : Nat) (x : Region)  : (s.setRegion i x).stackRows = s.stackRows := rfl
@[simp] theorem State.setRegion_view_groupUp (i : Nat) (x : Region) (n' g' : Nat) : (s.setRegion i x).groupUp n' g' = s.groupUp n' g' := rfl
@[simp] theorem State.setRegion_view_coreUp (i : Nat) (x : Region) (c' : Nat) : (s.setRegion i x).coreUp c' = s.coreUp c' := rfl
@[simp] theorem State.setRegion_view_stackUp (i : Nat) (x : Region) (k' : Nat) : (s.setRegion i x).stackUp k' = s.stackUp k' := rfl
@[simp] theorem State.setRegion_view_partRec (i : Nat) (x : Region) (n' : Nat) : (s.setRegion i x).partRec n' = s.partRec n' := rfl
@[simp] theorem State.setRegion_view_coreOwner (i : Nat) (x : Region) (c' : Nat) : (s.setRegion i x).coreOwner c' = s.coreOwner c' := rfl
@[simp] theorem State.setRegion_view_regionRec (i : Nat) (x : Region) (i' : Nat) : (s.setRegion i x).regionRec i' = s.regionRec i' := rfl
@[simp] theorem State.setRegion_view_poolRec (i : Nat) (x : Region) (p' : Nat) : (s.setRegion i x).poolRec p' = s.poolRec p' := rfl
@[simp] theorem State.setRegion_view_ringOwner (i : Nat) (x : Region) (r' : Nat) : (s.setRegion i x).ringOwner r' = s.ringOwner r' := rfl
@[simp] theorem State.setRegion_view_absRing (i : Nat) (x : Region) (n' r' : Nat) : (s.setRegion i x).absRing n' r' = s.absRing n' r' := rfl
@[simp] theorem State.setRegion_view_pinned (i : Nat) (x : Region) (c' : Nat) : (s.setRegion i x).pinned c' = s.pinned c' := rfl
@[simp] theorem State.setRegion_view_image (i : Nat) (x : Region) (n' : Nat) : (s.setRegion i x).image n' = s.image n' := rfl
@[simp] theorem State.setRegion_view_floorSum (i : Nat) (x : Region)  : (s.setRegion i x).floorSum = s.floorSum := rfl
@[simp] theorem State.setRegion_view_limit (i : Nat) (x : Region)  : (s.setRegion i x).limit = s.limit := rfl
@[simp] theorem State.setRegion_view_stamp (i : Nat) (x : Region)  : (s.setRegion i x).stamp = s.stamp := rfl
@[simp] theorem State.setRegion_view_now (i : Nat) (x : Region)  : (s.setRegion i x).now = s.now := rfl
@[simp] theorem State.setRegion_view_mono (i : Nat) (x : Region)  : (s.setRegion i x).mono = s.mono := rfl
@[simp] theorem State.setRegion_view_powered (i : Nat) (x : Region)  : (s.setRegion i x).powered = s.powered := rfl
@[simp] theorem State.setRegion_view_tadpole (i : Nat) (x : Region)  : (s.setRegion i x).tadpole = s.tadpole := rfl
@[simp] theorem State.setRegion_view_dmaOk (i : Nat) (x : Region) (n' : Nat) : (s.setRegion i x).dmaOk n' = s.dmaOk n' := rfl

@[simp] theorem State.setRing_clock (r : Nat) (x : Ring) : (s.setRing r x).clock = s.clock := rfl
@[simp] theorem State.setRing_free (r : Nat) (x : Ring) : (s.setRing r x).free = s.free := rfl
@[simp] theorem State.setRing_pending (r : Nat) (x : Ring) : (s.setRing r x).pending = s.pending := rfl
@[simp] theorem State.setRing_out (r : Nat) (x : Ring) : (s.setRing r x).out = s.out := rfl
@[simp] theorem State.setRing_rails (r : Nat) (x : Ring) : (s.setRing r x).rails = s.rails := rfl
@[simp] theorem State.setRing_fuse (r : Nat) (x : Ring) : (s.setRing r x).fuse = s.fuse := rfl
@[simp] theorem State.setRing_digest (r : Nat) (x : Ring) : (s.setRing r x).digest = s.digest := rfl
@[simp] theorem State.setRing_srep (r : Nat) (x : Ring) : (s.setRing r x).srep = s.srep := rfl
@[simp] theorem State.setRing_sb (r : Nat) (x : Ring) : (s.setRing r x).sb = s.sb := rfl
@[simp] theorem State.setRing_trip (r : Nat) (x : Ring) : (s.setRing r x).trip = s.trip := rfl
@[simp] theorem State.setRing_bup (r : Nat) (x : Ring) : (s.setRing r x).bup = s.bup := rfl
@[simp] theorem State.setRing_link (r : Nat) (x : Ring) : (s.setRing r x).link = s.link := rfl
@[simp] theorem State.setRing_mbx (r : Nat) (x : Ring) : (s.setRing r x).mbx = s.mbx := rfl
@[simp] theorem State.setRing_stage (r : Nat) (x : Ring) : (s.setRing r x).stage = s.stage := rfl
@[simp] theorem State.setRing_img (r : Nat) (x : Ring) : (s.setRing r x).img = s.img := rfl
@[simp] theorem State.setRing_frame (r : Nat) (x : Ring) : (s.setRing r x).frame = s.frame := rfl
@[simp] theorem State.setRing_parts (r : Nat) (x : Ring) : (s.setRing r x).parts = s.parts := rfl
@[simp] theorem State.setRing_tagErr (r : Nat) (x : Ring) : (s.setRing r x).tagErr = s.tagErr := rfl
@[simp] theorem State.setRing_tagErrLast (r : Nat) (x : Ring) : (s.setRing r x).tagErrLast = s.tagErrLast := rfl
@[simp] theorem State.setRing_drbgOk (r : Nat) (x : Ring) : (s.setRing r x).drbgOk = s.drbgOk := rfl
@[simp] theorem State.setRing_drbg (r : Nat) (x : Ring) : (s.setRing r x).drbg = s.drbg := rfl
@[simp] theorem State.setRing_keys (r : Nat) (x : Ring) : (s.setRing r x).keys = s.keys := rfl
@[simp] theorem State.setRing_window (r : Nat) (x : Ring) : (s.setRing r x).window = s.window := rfl
@[simp] theorem State.setRing_windows (r : Nat) (x : Ring) : (s.setRing r x).windows = s.windows := rfl
@[simp] theorem State.setRing_cores (r : Nat) (x : Ring) : (s.setRing r x).cores = s.cores := rfl
@[simp] theorem State.setRing_towers (r : Nat) (x : Ring) : (s.setRing r x).towers = s.towers := rfl
@[simp] theorem State.setRing_nbStacks (r : Nat) (x : Ring) : (s.setRing r x).nbStacks = s.nbStacks := rfl
@[simp] theorem State.setRing_nbus (r : Nat) (x : Ring) : (s.setRing r x).nbus = s.nbus := rfl
@[simp] theorem State.setRing_regions (r : Nat) (x : Ring) : (s.setRing r x).regions = s.regions := rfl
@[simp] theorem State.setRing_pfQueSel (r : Nat) (x : Ring) : (s.setRing r x).pfQueSel = s.pfQueSel := rfl
@[simp] theorem State.setRing_pfBadDb (r : Nat) (x : Ring) : (s.setRing r x).pfBadDb = s.pfBadDb := rfl
@[simp] theorem State.setRing_pools (r : Nat) (x : Ring) : (s.setRing r x).pools = s.pools := rfl
@[simp] theorem State.setRing_poolErr (r : Nat) (x : Ring) : (s.setRing r x).poolErr = s.poolErr := rfl
@[simp] theorem State.setRing_turn (r : Nat) (x : Ring) : (s.setRing r x).turn = s.turn := rfl
@[simp] theorem State.setRing_fab (r : Nat) (x : Ring) : (s.setRing r x).fab = s.fab := rfl
@[simp] theorem State.setRing_tim (r : Nat) (x : Ring) : (s.setRing r x).tim = s.tim := rfl
@[simp] theorem State.setRing_pwr (r : Nat) (x : Ring) : (s.setRing r x).pwr = s.pwr := rfl
@[simp] theorem State.setRing_evc (r : Nat) (x : Ring) : (s.setRing r x).evc = s.evc := rfl
@[simp] theorem State.setRing_snap (r : Nat) (x : Ring) : (s.setRing r x).snap = s.snap := rfl
@[simp] theorem State.setRing_flt (r : Nat) (x : Ring) : (s.setRing r x).flt = s.flt := rfl
@[simp] theorem State.setRing_lamps (r : Nat) (x : Ring) : (s.setRing r x).lamps = s.lamps := rfl
@[simp] theorem State.setRing_recals (r : Nat) (x : Ring) : (s.setRing r x).recals = s.recals := rfl
@[simp] theorem State.setRing_test (r : Nat) (x : Ring) : (s.setRing r x).test = s.test := rfl
@[simp] theorem State.setRing_view_core (r : Nat) (x : Ring) (c' : Nat) : (s.setRing r x).core c' = s.core c' := rfl
@[simp] theorem State.setRing_view_part (r : Nat) (x : Ring) (n' : Nat) : (s.setRing r x).part n' = s.part n' := rfl
@[simp] theorem State.setRing_view_tower (r : Nat) (x : Ring) (n' : Nat) : (s.setRing r x).tower n' = s.tower n' := rfl
@[simp] theorem State.setRing_view_stack (r : Nat) (x : Ring) (k' : Nat) : (s.setRing r x).stack k' = s.stack k' := rfl
@[simp] theorem State.setRing_view_nbu (r : Nat) (x : Ring) (i' : Nat) : (s.setRing r x).nbu i' = s.nbu i' := rfl
@[simp] theorem State.setRing_view_region (r : Nat) (x : Ring) (i' : Nat) : (s.setRing r x).region i' = s.region i' := rfl
@[simp] theorem State.setRing_view_pool (r : Nat) (x : Ring) (p' : Nat) : (s.setRing r x).pool p' = s.pool p' := rfl
@[simp] theorem State.setRing_view_lamp (r : Nat) (x : Ring) (n' : Nat) : (s.setRing r x).lamp n' = s.lamp n' := rfl
@[simp] theorem State.setRing_view_key (r : Nat) (x : Ring) (k' : Nat) : (s.setRing r x).key k' = s.key k' := rfl
@[simp] theorem State.setRing_view_port (r : Nat) (x : Ring) (p' : Nat) : (s.setRing r x).port p' = s.port p' := rfl
@[simp] theorem State.setRing_view_dk36 (r : Nat) (x : Ring)  : (s.setRing r x).dk36 = s.dk36 := rfl
@[simp] theorem State.setRing_view_hubId (r : Nat) (x : Ring)  : (s.setRing r x).hubId = s.hubId := rfl
@[simp] theorem State.setRing_view_portCount (r : Nat) (x : Ring)  : (s.setRing r x).portCount = s.portCount := rfl
@[simp] theorem State.setRing_view_stackRows (r : Nat) (x : Ring)  : (s.setRing r x).stackRows = s.stackRows := rfl
@[simp] theorem State.setRing_view_groupUp (r : Nat) (x : Ring) (n' g' : Nat) : (s.setRing r x).groupUp n' g' = s.groupUp n' g' := rfl
@[simp] theorem State.setRing_view_coreUp (r : Nat) (x : Ring) (c' : Nat) : (s.setRing r x).coreUp c' = s.coreUp c' := rfl
@[simp] theorem State.setRing_view_stackUp (r : Nat) (x : Ring) (k' : Nat) : (s.setRing r x).stackUp k' = s.stackUp k' := rfl
@[simp] theorem State.setRing_view_partRec (r : Nat) (x : Ring) (n' : Nat) : (s.setRing r x).partRec n' = s.partRec n' := rfl
@[simp] theorem State.setRing_view_coreOwner (r : Nat) (x : Ring) (c' : Nat) : (s.setRing r x).coreOwner c' = s.coreOwner c' := rfl
@[simp] theorem State.setRing_view_regionRec (r : Nat) (x : Ring) (i' : Nat) : (s.setRing r x).regionRec i' = s.regionRec i' := rfl
@[simp] theorem State.setRing_view_poolRec (r : Nat) (x : Ring) (p' : Nat) : (s.setRing r x).poolRec p' = s.poolRec p' := rfl
@[simp] theorem State.setRing_view_ringOwner (r : Nat) (x : Ring) (r' : Nat) : (s.setRing r x).ringOwner r' = s.ringOwner r' := rfl
@[simp] theorem State.setRing_view_absRing (r : Nat) (x : Ring) (n' r' : Nat) : (s.setRing r x).absRing n' r' = s.absRing n' r' := rfl
@[simp] theorem State.setRing_view_pinned (r : Nat) (x : Ring) (c' : Nat) : (s.setRing r x).pinned c' = s.pinned c' := rfl
@[simp] theorem State.setRing_view_image (r : Nat) (x : Ring) (n' : Nat) : (s.setRing r x).image n' = s.image n' := rfl
@[simp] theorem State.setRing_view_floorSum (r : Nat) (x : Ring)  : (s.setRing r x).floorSum = s.floorSum := rfl
@[simp] theorem State.setRing_view_limit (r : Nat) (x : Ring)  : (s.setRing r x).limit = s.limit := rfl
@[simp] theorem State.setRing_view_stamp (r : Nat) (x : Ring)  : (s.setRing r x).stamp = s.stamp := rfl
@[simp] theorem State.setRing_view_now (r : Nat) (x : Ring)  : (s.setRing r x).now = s.now := rfl
@[simp] theorem State.setRing_view_mono (r : Nat) (x : Ring)  : (s.setRing r x).mono = s.mono := rfl
@[simp] theorem State.setRing_view_powered (r : Nat) (x : Ring)  : (s.setRing r x).powered = s.powered := rfl
@[simp] theorem State.setRing_view_tadpole (r : Nat) (x : Ring)  : (s.setRing r x).tadpole = s.tadpole := rfl
@[simp] theorem State.setRing_view_dmaOk (r : Nat) (x : Ring) (n' : Nat) : (s.setRing r x).dmaOk n' = s.dmaOk n' := rfl

@[simp] theorem State.setPool_clock (p : Nat) (x : Pool) : (s.setPool p x).clock = s.clock := rfl
@[simp] theorem State.setPool_free (p : Nat) (x : Pool) : (s.setPool p x).free = s.free := rfl
@[simp] theorem State.setPool_pending (p : Nat) (x : Pool) : (s.setPool p x).pending = s.pending := rfl
@[simp] theorem State.setPool_out (p : Nat) (x : Pool) : (s.setPool p x).out = s.out := rfl
@[simp] theorem State.setPool_rails (p : Nat) (x : Pool) : (s.setPool p x).rails = s.rails := rfl
@[simp] theorem State.setPool_fuse (p : Nat) (x : Pool) : (s.setPool p x).fuse = s.fuse := rfl
@[simp] theorem State.setPool_digest (p : Nat) (x : Pool) : (s.setPool p x).digest = s.digest := rfl
@[simp] theorem State.setPool_srep (p : Nat) (x : Pool) : (s.setPool p x).srep = s.srep := rfl
@[simp] theorem State.setPool_sb (p : Nat) (x : Pool) : (s.setPool p x).sb = s.sb := rfl
@[simp] theorem State.setPool_trip (p : Nat) (x : Pool) : (s.setPool p x).trip = s.trip := rfl
@[simp] theorem State.setPool_bup (p : Nat) (x : Pool) : (s.setPool p x).bup = s.bup := rfl
@[simp] theorem State.setPool_link (p : Nat) (x : Pool) : (s.setPool p x).link = s.link := rfl
@[simp] theorem State.setPool_mbx (p : Nat) (x : Pool) : (s.setPool p x).mbx = s.mbx := rfl
@[simp] theorem State.setPool_stage (p : Nat) (x : Pool) : (s.setPool p x).stage = s.stage := rfl
@[simp] theorem State.setPool_img (p : Nat) (x : Pool) : (s.setPool p x).img = s.img := rfl
@[simp] theorem State.setPool_frame (p : Nat) (x : Pool) : (s.setPool p x).frame = s.frame := rfl
@[simp] theorem State.setPool_parts (p : Nat) (x : Pool) : (s.setPool p x).parts = s.parts := rfl
@[simp] theorem State.setPool_tagErr (p : Nat) (x : Pool) : (s.setPool p x).tagErr = s.tagErr := rfl
@[simp] theorem State.setPool_tagErrLast (p : Nat) (x : Pool) : (s.setPool p x).tagErrLast = s.tagErrLast := rfl
@[simp] theorem State.setPool_drbgOk (p : Nat) (x : Pool) : (s.setPool p x).drbgOk = s.drbgOk := rfl
@[simp] theorem State.setPool_drbg (p : Nat) (x : Pool) : (s.setPool p x).drbg = s.drbg := rfl
@[simp] theorem State.setPool_keys (p : Nat) (x : Pool) : (s.setPool p x).keys = s.keys := rfl
@[simp] theorem State.setPool_window (p : Nat) (x : Pool) : (s.setPool p x).window = s.window := rfl
@[simp] theorem State.setPool_windows (p : Nat) (x : Pool) : (s.setPool p x).windows = s.windows := rfl
@[simp] theorem State.setPool_cores (p : Nat) (x : Pool) : (s.setPool p x).cores = s.cores := rfl
@[simp] theorem State.setPool_towers (p : Nat) (x : Pool) : (s.setPool p x).towers = s.towers := rfl
@[simp] theorem State.setPool_nbStacks (p : Nat) (x : Pool) : (s.setPool p x).nbStacks = s.nbStacks := rfl
@[simp] theorem State.setPool_nbus (p : Nat) (x : Pool) : (s.setPool p x).nbus = s.nbus := rfl
@[simp] theorem State.setPool_regions (p : Nat) (x : Pool) : (s.setPool p x).regions = s.regions := rfl
@[simp] theorem State.setPool_rings (p : Nat) (x : Pool) : (s.setPool p x).rings = s.rings := rfl
@[simp] theorem State.setPool_pfQueSel (p : Nat) (x : Pool) : (s.setPool p x).pfQueSel = s.pfQueSel := rfl
@[simp] theorem State.setPool_pfBadDb (p : Nat) (x : Pool) : (s.setPool p x).pfBadDb = s.pfBadDb := rfl
@[simp] theorem State.setPool_poolErr (p : Nat) (x : Pool) : (s.setPool p x).poolErr = s.poolErr := rfl
@[simp] theorem State.setPool_turn (p : Nat) (x : Pool) : (s.setPool p x).turn = s.turn := rfl
@[simp] theorem State.setPool_fab (p : Nat) (x : Pool) : (s.setPool p x).fab = s.fab := rfl
@[simp] theorem State.setPool_tim (p : Nat) (x : Pool) : (s.setPool p x).tim = s.tim := rfl
@[simp] theorem State.setPool_pwr (p : Nat) (x : Pool) : (s.setPool p x).pwr = s.pwr := rfl
@[simp] theorem State.setPool_evc (p : Nat) (x : Pool) : (s.setPool p x).evc = s.evc := rfl
@[simp] theorem State.setPool_snap (p : Nat) (x : Pool) : (s.setPool p x).snap = s.snap := rfl
@[simp] theorem State.setPool_flt (p : Nat) (x : Pool) : (s.setPool p x).flt = s.flt := rfl
@[simp] theorem State.setPool_lamps (p : Nat) (x : Pool) : (s.setPool p x).lamps = s.lamps := rfl
@[simp] theorem State.setPool_recals (p : Nat) (x : Pool) : (s.setPool p x).recals = s.recals := rfl
@[simp] theorem State.setPool_test (p : Nat) (x : Pool) : (s.setPool p x).test = s.test := rfl
@[simp] theorem State.setPool_view_core (p : Nat) (x : Pool) (c' : Nat) : (s.setPool p x).core c' = s.core c' := rfl
@[simp] theorem State.setPool_view_part (p : Nat) (x : Pool) (n' : Nat) : (s.setPool p x).part n' = s.part n' := rfl
@[simp] theorem State.setPool_view_tower (p : Nat) (x : Pool) (n' : Nat) : (s.setPool p x).tower n' = s.tower n' := rfl
@[simp] theorem State.setPool_view_stack (p : Nat) (x : Pool) (k' : Nat) : (s.setPool p x).stack k' = s.stack k' := rfl
@[simp] theorem State.setPool_view_nbu (p : Nat) (x : Pool) (i' : Nat) : (s.setPool p x).nbu i' = s.nbu i' := rfl
@[simp] theorem State.setPool_view_region (p : Nat) (x : Pool) (i' : Nat) : (s.setPool p x).region i' = s.region i' := rfl
@[simp] theorem State.setPool_view_ring (p : Nat) (x : Pool) (r' : Nat) : (s.setPool p x).ring r' = s.ring r' := rfl
@[simp] theorem State.setPool_view_lamp (p : Nat) (x : Pool) (n' : Nat) : (s.setPool p x).lamp n' = s.lamp n' := rfl
@[simp] theorem State.setPool_view_key (p : Nat) (x : Pool) (k' : Nat) : (s.setPool p x).key k' = s.key k' := rfl
@[simp] theorem State.setPool_view_port (p : Nat) (x : Pool) (p' : Nat) : (s.setPool p x).port p' = s.port p' := rfl
@[simp] theorem State.setPool_view_dk36 (p : Nat) (x : Pool)  : (s.setPool p x).dk36 = s.dk36 := rfl
@[simp] theorem State.setPool_view_hubId (p : Nat) (x : Pool)  : (s.setPool p x).hubId = s.hubId := rfl
@[simp] theorem State.setPool_view_portCount (p : Nat) (x : Pool)  : (s.setPool p x).portCount = s.portCount := rfl
@[simp] theorem State.setPool_view_stackRows (p : Nat) (x : Pool)  : (s.setPool p x).stackRows = s.stackRows := rfl
@[simp] theorem State.setPool_view_groupUp (p : Nat) (x : Pool) (n' g' : Nat) : (s.setPool p x).groupUp n' g' = s.groupUp n' g' := rfl
@[simp] theorem State.setPool_view_coreUp (p : Nat) (x : Pool) (c' : Nat) : (s.setPool p x).coreUp c' = s.coreUp c' := rfl
@[simp] theorem State.setPool_view_stackUp (p : Nat) (x : Pool) (k' : Nat) : (s.setPool p x).stackUp k' = s.stackUp k' := rfl
@[simp] theorem State.setPool_view_partRec (p : Nat) (x : Pool) (n' : Nat) : (s.setPool p x).partRec n' = s.partRec n' := rfl
@[simp] theorem State.setPool_view_coreOwner (p : Nat) (x : Pool) (c' : Nat) : (s.setPool p x).coreOwner c' = s.coreOwner c' := rfl
@[simp] theorem State.setPool_view_regionRec (p : Nat) (x : Pool) (i' : Nat) : (s.setPool p x).regionRec i' = s.regionRec i' := rfl
@[simp] theorem State.setPool_view_poolRec (p : Nat) (x : Pool) (p' : Nat) : (s.setPool p x).poolRec p' = s.poolRec p' := rfl
@[simp] theorem State.setPool_view_ringOwner (p : Nat) (x : Pool) (r' : Nat) : (s.setPool p x).ringOwner r' = s.ringOwner r' := rfl
@[simp] theorem State.setPool_view_absRing (p : Nat) (x : Pool) (n' r' : Nat) : (s.setPool p x).absRing n' r' = s.absRing n' r' := rfl
@[simp] theorem State.setPool_view_pinned (p : Nat) (x : Pool) (c' : Nat) : (s.setPool p x).pinned c' = s.pinned c' := rfl
@[simp] theorem State.setPool_view_image (p : Nat) (x : Pool) (n' : Nat) : (s.setPool p x).image n' = s.image n' := rfl
@[simp] theorem State.setPool_view_floorSum (p : Nat) (x : Pool)  : (s.setPool p x).floorSum = s.floorSum := rfl
@[simp] theorem State.setPool_view_limit (p : Nat) (x : Pool)  : (s.setPool p x).limit = s.limit := rfl
@[simp] theorem State.setPool_view_stamp (p : Nat) (x : Pool)  : (s.setPool p x).stamp = s.stamp := rfl
@[simp] theorem State.setPool_view_now (p : Nat) (x : Pool)  : (s.setPool p x).now = s.now := rfl
@[simp] theorem State.setPool_view_mono (p : Nat) (x : Pool)  : (s.setPool p x).mono = s.mono := rfl
@[simp] theorem State.setPool_view_powered (p : Nat) (x : Pool)  : (s.setPool p x).powered = s.powered := rfl
@[simp] theorem State.setPool_view_tadpole (p : Nat) (x : Pool)  : (s.setPool p x).tadpole = s.tadpole := rfl
@[simp] theorem State.setPool_view_dmaOk (p : Nat) (x : Pool) (n' : Nat) : (s.setPool p x).dmaOk n' = s.dmaOk n' := rfl

@[simp] theorem State.setLamp_clock (n : Nat) (x : Lamp) : (s.setLamp n x).clock = s.clock := rfl
@[simp] theorem State.setLamp_free (n : Nat) (x : Lamp) : (s.setLamp n x).free = s.free := rfl
@[simp] theorem State.setLamp_pending (n : Nat) (x : Lamp) : (s.setLamp n x).pending = s.pending := rfl
@[simp] theorem State.setLamp_out (n : Nat) (x : Lamp) : (s.setLamp n x).out = s.out := rfl
@[simp] theorem State.setLamp_rails (n : Nat) (x : Lamp) : (s.setLamp n x).rails = s.rails := rfl
@[simp] theorem State.setLamp_fuse (n : Nat) (x : Lamp) : (s.setLamp n x).fuse = s.fuse := rfl
@[simp] theorem State.setLamp_digest (n : Nat) (x : Lamp) : (s.setLamp n x).digest = s.digest := rfl
@[simp] theorem State.setLamp_srep (n : Nat) (x : Lamp) : (s.setLamp n x).srep = s.srep := rfl
@[simp] theorem State.setLamp_sb (n : Nat) (x : Lamp) : (s.setLamp n x).sb = s.sb := rfl
@[simp] theorem State.setLamp_trip (n : Nat) (x : Lamp) : (s.setLamp n x).trip = s.trip := rfl
@[simp] theorem State.setLamp_bup (n : Nat) (x : Lamp) : (s.setLamp n x).bup = s.bup := rfl
@[simp] theorem State.setLamp_link (n : Nat) (x : Lamp) : (s.setLamp n x).link = s.link := rfl
@[simp] theorem State.setLamp_mbx (n : Nat) (x : Lamp) : (s.setLamp n x).mbx = s.mbx := rfl
@[simp] theorem State.setLamp_stage (n : Nat) (x : Lamp) : (s.setLamp n x).stage = s.stage := rfl
@[simp] theorem State.setLamp_img (n : Nat) (x : Lamp) : (s.setLamp n x).img = s.img := rfl
@[simp] theorem State.setLamp_frame (n : Nat) (x : Lamp) : (s.setLamp n x).frame = s.frame := rfl
@[simp] theorem State.setLamp_parts (n : Nat) (x : Lamp) : (s.setLamp n x).parts = s.parts := rfl
@[simp] theorem State.setLamp_tagErr (n : Nat) (x : Lamp) : (s.setLamp n x).tagErr = s.tagErr := rfl
@[simp] theorem State.setLamp_tagErrLast (n : Nat) (x : Lamp) : (s.setLamp n x).tagErrLast = s.tagErrLast := rfl
@[simp] theorem State.setLamp_drbgOk (n : Nat) (x : Lamp) : (s.setLamp n x).drbgOk = s.drbgOk := rfl
@[simp] theorem State.setLamp_drbg (n : Nat) (x : Lamp) : (s.setLamp n x).drbg = s.drbg := rfl
@[simp] theorem State.setLamp_keys (n : Nat) (x : Lamp) : (s.setLamp n x).keys = s.keys := rfl
@[simp] theorem State.setLamp_window (n : Nat) (x : Lamp) : (s.setLamp n x).window = s.window := rfl
@[simp] theorem State.setLamp_windows (n : Nat) (x : Lamp) : (s.setLamp n x).windows = s.windows := rfl
@[simp] theorem State.setLamp_cores (n : Nat) (x : Lamp) : (s.setLamp n x).cores = s.cores := rfl
@[simp] theorem State.setLamp_towers (n : Nat) (x : Lamp) : (s.setLamp n x).towers = s.towers := rfl
@[simp] theorem State.setLamp_nbStacks (n : Nat) (x : Lamp) : (s.setLamp n x).nbStacks = s.nbStacks := rfl
@[simp] theorem State.setLamp_nbus (n : Nat) (x : Lamp) : (s.setLamp n x).nbus = s.nbus := rfl
@[simp] theorem State.setLamp_regions (n : Nat) (x : Lamp) : (s.setLamp n x).regions = s.regions := rfl
@[simp] theorem State.setLamp_rings (n : Nat) (x : Lamp) : (s.setLamp n x).rings = s.rings := rfl
@[simp] theorem State.setLamp_pfQueSel (n : Nat) (x : Lamp) : (s.setLamp n x).pfQueSel = s.pfQueSel := rfl
@[simp] theorem State.setLamp_pfBadDb (n : Nat) (x : Lamp) : (s.setLamp n x).pfBadDb = s.pfBadDb := rfl
@[simp] theorem State.setLamp_pools (n : Nat) (x : Lamp) : (s.setLamp n x).pools = s.pools := rfl
@[simp] theorem State.setLamp_poolErr (n : Nat) (x : Lamp) : (s.setLamp n x).poolErr = s.poolErr := rfl
@[simp] theorem State.setLamp_turn (n : Nat) (x : Lamp) : (s.setLamp n x).turn = s.turn := rfl
@[simp] theorem State.setLamp_fab (n : Nat) (x : Lamp) : (s.setLamp n x).fab = s.fab := rfl
@[simp] theorem State.setLamp_tim (n : Nat) (x : Lamp) : (s.setLamp n x).tim = s.tim := rfl
@[simp] theorem State.setLamp_pwr (n : Nat) (x : Lamp) : (s.setLamp n x).pwr = s.pwr := rfl
@[simp] theorem State.setLamp_evc (n : Nat) (x : Lamp) : (s.setLamp n x).evc = s.evc := rfl
@[simp] theorem State.setLamp_snap (n : Nat) (x : Lamp) : (s.setLamp n x).snap = s.snap := rfl
@[simp] theorem State.setLamp_flt (n : Nat) (x : Lamp) : (s.setLamp n x).flt = s.flt := rfl
@[simp] theorem State.setLamp_recals (n : Nat) (x : Lamp) : (s.setLamp n x).recals = s.recals := rfl
@[simp] theorem State.setLamp_test (n : Nat) (x : Lamp) : (s.setLamp n x).test = s.test := rfl
@[simp] theorem State.setLamp_view_core (n : Nat) (x : Lamp) (c' : Nat) : (s.setLamp n x).core c' = s.core c' := rfl
@[simp] theorem State.setLamp_view_part (n : Nat) (x : Lamp) (n' : Nat) : (s.setLamp n x).part n' = s.part n' := rfl
@[simp] theorem State.setLamp_view_tower (n : Nat) (x : Lamp) (n' : Nat) : (s.setLamp n x).tower n' = s.tower n' := rfl
@[simp] theorem State.setLamp_view_stack (n : Nat) (x : Lamp) (k' : Nat) : (s.setLamp n x).stack k' = s.stack k' := rfl
@[simp] theorem State.setLamp_view_nbu (n : Nat) (x : Lamp) (i' : Nat) : (s.setLamp n x).nbu i' = s.nbu i' := rfl
@[simp] theorem State.setLamp_view_region (n : Nat) (x : Lamp) (i' : Nat) : (s.setLamp n x).region i' = s.region i' := rfl
@[simp] theorem State.setLamp_view_ring (n : Nat) (x : Lamp) (r' : Nat) : (s.setLamp n x).ring r' = s.ring r' := rfl
@[simp] theorem State.setLamp_view_pool (n : Nat) (x : Lamp) (p' : Nat) : (s.setLamp n x).pool p' = s.pool p' := rfl
@[simp] theorem State.setLamp_view_key (n : Nat) (x : Lamp) (k' : Nat) : (s.setLamp n x).key k' = s.key k' := rfl
@[simp] theorem State.setLamp_view_port (n : Nat) (x : Lamp) (p' : Nat) : (s.setLamp n x).port p' = s.port p' := rfl
@[simp] theorem State.setLamp_view_dk36 (n : Nat) (x : Lamp)  : (s.setLamp n x).dk36 = s.dk36 := rfl
@[simp] theorem State.setLamp_view_hubId (n : Nat) (x : Lamp)  : (s.setLamp n x).hubId = s.hubId := rfl
@[simp] theorem State.setLamp_view_portCount (n : Nat) (x : Lamp)  : (s.setLamp n x).portCount = s.portCount := rfl
@[simp] theorem State.setLamp_view_stackRows (n : Nat) (x : Lamp)  : (s.setLamp n x).stackRows = s.stackRows := rfl
@[simp] theorem State.setLamp_view_groupUp (n : Nat) (x : Lamp) (n' g' : Nat) : (s.setLamp n x).groupUp n' g' = s.groupUp n' g' := rfl
@[simp] theorem State.setLamp_view_coreUp (n : Nat) (x : Lamp) (c' : Nat) : (s.setLamp n x).coreUp c' = s.coreUp c' := rfl
@[simp] theorem State.setLamp_view_stackUp (n : Nat) (x : Lamp) (k' : Nat) : (s.setLamp n x).stackUp k' = s.stackUp k' := rfl
@[simp] theorem State.setLamp_view_partRec (n : Nat) (x : Lamp) (n' : Nat) : (s.setLamp n x).partRec n' = s.partRec n' := rfl
@[simp] theorem State.setLamp_view_coreOwner (n : Nat) (x : Lamp) (c' : Nat) : (s.setLamp n x).coreOwner c' = s.coreOwner c' := rfl
@[simp] theorem State.setLamp_view_regionRec (n : Nat) (x : Lamp) (i' : Nat) : (s.setLamp n x).regionRec i' = s.regionRec i' := rfl
@[simp] theorem State.setLamp_view_poolRec (n : Nat) (x : Lamp) (p' : Nat) : (s.setLamp n x).poolRec p' = s.poolRec p' := rfl
@[simp] theorem State.setLamp_view_ringOwner (n : Nat) (x : Lamp) (r' : Nat) : (s.setLamp n x).ringOwner r' = s.ringOwner r' := rfl
@[simp] theorem State.setLamp_view_absRing (n : Nat) (x : Lamp) (n' r' : Nat) : (s.setLamp n x).absRing n' r' = s.absRing n' r' := rfl
@[simp] theorem State.setLamp_view_pinned (n : Nat) (x : Lamp) (c' : Nat) : (s.setLamp n x).pinned c' = s.pinned c' := rfl
@[simp] theorem State.setLamp_view_image (n : Nat) (x : Lamp) (n' : Nat) : (s.setLamp n x).image n' = s.image n' := rfl
@[simp] theorem State.setLamp_view_floorSum (n : Nat) (x : Lamp)  : (s.setLamp n x).floorSum = s.floorSum := rfl
@[simp] theorem State.setLamp_view_limit (n : Nat) (x : Lamp)  : (s.setLamp n x).limit = s.limit := rfl
@[simp] theorem State.setLamp_view_stamp (n : Nat) (x : Lamp)  : (s.setLamp n x).stamp = s.stamp := rfl
@[simp] theorem State.setLamp_view_now (n : Nat) (x : Lamp)  : (s.setLamp n x).now = s.now := rfl
@[simp] theorem State.setLamp_view_mono (n : Nat) (x : Lamp)  : (s.setLamp n x).mono = s.mono := rfl
@[simp] theorem State.setLamp_view_powered (n : Nat) (x : Lamp)  : (s.setLamp n x).powered = s.powered := rfl
@[simp] theorem State.setLamp_view_tadpole (n : Nat) (x : Lamp)  : (s.setLamp n x).tadpole = s.tadpole := rfl
@[simp] theorem State.setLamp_view_dmaOk (n : Nat) (x : Lamp) (n' : Nat) : (s.setLamp n x).dmaOk n' = s.dmaOk n' := rfl

@[simp] theorem State.setKey_clock (k : Nat) (x : KeySlot) : (s.setKey k x).clock = s.clock := rfl
@[simp] theorem State.setKey_free (k : Nat) (x : KeySlot) : (s.setKey k x).free = s.free := rfl
@[simp] theorem State.setKey_pending (k : Nat) (x : KeySlot) : (s.setKey k x).pending = s.pending := rfl
@[simp] theorem State.setKey_out (k : Nat) (x : KeySlot) : (s.setKey k x).out = s.out := rfl
@[simp] theorem State.setKey_rails (k : Nat) (x : KeySlot) : (s.setKey k x).rails = s.rails := rfl
@[simp] theorem State.setKey_fuse (k : Nat) (x : KeySlot) : (s.setKey k x).fuse = s.fuse := rfl
@[simp] theorem State.setKey_digest (k : Nat) (x : KeySlot) : (s.setKey k x).digest = s.digest := rfl
@[simp] theorem State.setKey_srep (k : Nat) (x : KeySlot) : (s.setKey k x).srep = s.srep := rfl
@[simp] theorem State.setKey_sb (k : Nat) (x : KeySlot) : (s.setKey k x).sb = s.sb := rfl
@[simp] theorem State.setKey_trip (k : Nat) (x : KeySlot) : (s.setKey k x).trip = s.trip := rfl
@[simp] theorem State.setKey_bup (k : Nat) (x : KeySlot) : (s.setKey k x).bup = s.bup := rfl
@[simp] theorem State.setKey_link (k : Nat) (x : KeySlot) : (s.setKey k x).link = s.link := rfl
@[simp] theorem State.setKey_mbx (k : Nat) (x : KeySlot) : (s.setKey k x).mbx = s.mbx := rfl
@[simp] theorem State.setKey_stage (k : Nat) (x : KeySlot) : (s.setKey k x).stage = s.stage := rfl
@[simp] theorem State.setKey_img (k : Nat) (x : KeySlot) : (s.setKey k x).img = s.img := rfl
@[simp] theorem State.setKey_frame (k : Nat) (x : KeySlot) : (s.setKey k x).frame = s.frame := rfl
@[simp] theorem State.setKey_parts (k : Nat) (x : KeySlot) : (s.setKey k x).parts = s.parts := rfl
@[simp] theorem State.setKey_tagErr (k : Nat) (x : KeySlot) : (s.setKey k x).tagErr = s.tagErr := rfl
@[simp] theorem State.setKey_tagErrLast (k : Nat) (x : KeySlot) : (s.setKey k x).tagErrLast = s.tagErrLast := rfl
@[simp] theorem State.setKey_drbgOk (k : Nat) (x : KeySlot) : (s.setKey k x).drbgOk = s.drbgOk := rfl
@[simp] theorem State.setKey_drbg (k : Nat) (x : KeySlot) : (s.setKey k x).drbg = s.drbg := rfl
@[simp] theorem State.setKey_window (k : Nat) (x : KeySlot) : (s.setKey k x).window = s.window := rfl
@[simp] theorem State.setKey_windows (k : Nat) (x : KeySlot) : (s.setKey k x).windows = s.windows := rfl
@[simp] theorem State.setKey_cores (k : Nat) (x : KeySlot) : (s.setKey k x).cores = s.cores := rfl
@[simp] theorem State.setKey_towers (k : Nat) (x : KeySlot) : (s.setKey k x).towers = s.towers := rfl
@[simp] theorem State.setKey_nbStacks (k : Nat) (x : KeySlot) : (s.setKey k x).nbStacks = s.nbStacks := rfl
@[simp] theorem State.setKey_nbus (k : Nat) (x : KeySlot) : (s.setKey k x).nbus = s.nbus := rfl
@[simp] theorem State.setKey_regions (k : Nat) (x : KeySlot) : (s.setKey k x).regions = s.regions := rfl
@[simp] theorem State.setKey_rings (k : Nat) (x : KeySlot) : (s.setKey k x).rings = s.rings := rfl
@[simp] theorem State.setKey_pfQueSel (k : Nat) (x : KeySlot) : (s.setKey k x).pfQueSel = s.pfQueSel := rfl
@[simp] theorem State.setKey_pfBadDb (k : Nat) (x : KeySlot) : (s.setKey k x).pfBadDb = s.pfBadDb := rfl
@[simp] theorem State.setKey_pools (k : Nat) (x : KeySlot) : (s.setKey k x).pools = s.pools := rfl
@[simp] theorem State.setKey_poolErr (k : Nat) (x : KeySlot) : (s.setKey k x).poolErr = s.poolErr := rfl
@[simp] theorem State.setKey_turn (k : Nat) (x : KeySlot) : (s.setKey k x).turn = s.turn := rfl
@[simp] theorem State.setKey_fab (k : Nat) (x : KeySlot) : (s.setKey k x).fab = s.fab := rfl
@[simp] theorem State.setKey_tim (k : Nat) (x : KeySlot) : (s.setKey k x).tim = s.tim := rfl
@[simp] theorem State.setKey_pwr (k : Nat) (x : KeySlot) : (s.setKey k x).pwr = s.pwr := rfl
@[simp] theorem State.setKey_evc (k : Nat) (x : KeySlot) : (s.setKey k x).evc = s.evc := rfl
@[simp] theorem State.setKey_snap (k : Nat) (x : KeySlot) : (s.setKey k x).snap = s.snap := rfl
@[simp] theorem State.setKey_flt (k : Nat) (x : KeySlot) : (s.setKey k x).flt = s.flt := rfl
@[simp] theorem State.setKey_lamps (k : Nat) (x : KeySlot) : (s.setKey k x).lamps = s.lamps := rfl
@[simp] theorem State.setKey_recals (k : Nat) (x : KeySlot) : (s.setKey k x).recals = s.recals := rfl
@[simp] theorem State.setKey_test (k : Nat) (x : KeySlot) : (s.setKey k x).test = s.test := rfl
@[simp] theorem State.setKey_view_core (k : Nat) (x : KeySlot) (c' : Nat) : (s.setKey k x).core c' = s.core c' := rfl
@[simp] theorem State.setKey_view_part (k : Nat) (x : KeySlot) (n' : Nat) : (s.setKey k x).part n' = s.part n' := rfl
@[simp] theorem State.setKey_view_tower (k : Nat) (x : KeySlot) (n' : Nat) : (s.setKey k x).tower n' = s.tower n' := rfl
@[simp] theorem State.setKey_view_stack (k : Nat) (x : KeySlot) (k' : Nat) : (s.setKey k x).stack k' = s.stack k' := rfl
@[simp] theorem State.setKey_view_nbu (k : Nat) (x : KeySlot) (i' : Nat) : (s.setKey k x).nbu i' = s.nbu i' := rfl
@[simp] theorem State.setKey_view_region (k : Nat) (x : KeySlot) (i' : Nat) : (s.setKey k x).region i' = s.region i' := rfl
@[simp] theorem State.setKey_view_ring (k : Nat) (x : KeySlot) (r' : Nat) : (s.setKey k x).ring r' = s.ring r' := rfl
@[simp] theorem State.setKey_view_pool (k : Nat) (x : KeySlot) (p' : Nat) : (s.setKey k x).pool p' = s.pool p' := rfl
@[simp] theorem State.setKey_view_lamp (k : Nat) (x : KeySlot) (n' : Nat) : (s.setKey k x).lamp n' = s.lamp n' := rfl
@[simp] theorem State.setKey_view_port (k : Nat) (x : KeySlot) (p' : Nat) : (s.setKey k x).port p' = s.port p' := rfl
@[simp] theorem State.setKey_view_dk36 (k : Nat) (x : KeySlot)  : (s.setKey k x).dk36 = s.dk36 := rfl
@[simp] theorem State.setKey_view_hubId (k : Nat) (x : KeySlot)  : (s.setKey k x).hubId = s.hubId := rfl
@[simp] theorem State.setKey_view_portCount (k : Nat) (x : KeySlot)  : (s.setKey k x).portCount = s.portCount := rfl
@[simp] theorem State.setKey_view_stackRows (k : Nat) (x : KeySlot)  : (s.setKey k x).stackRows = s.stackRows := rfl
@[simp] theorem State.setKey_view_groupUp (k : Nat) (x : KeySlot) (n' g' : Nat) : (s.setKey k x).groupUp n' g' = s.groupUp n' g' := rfl
@[simp] theorem State.setKey_view_coreUp (k : Nat) (x : KeySlot) (c' : Nat) : (s.setKey k x).coreUp c' = s.coreUp c' := rfl
@[simp] theorem State.setKey_view_stackUp (k : Nat) (x : KeySlot) (k' : Nat) : (s.setKey k x).stackUp k' = s.stackUp k' := rfl
@[simp] theorem State.setKey_view_partRec (k : Nat) (x : KeySlot) (n' : Nat) : (s.setKey k x).partRec n' = s.partRec n' := rfl
@[simp] theorem State.setKey_view_coreOwner (k : Nat) (x : KeySlot) (c' : Nat) : (s.setKey k x).coreOwner c' = s.coreOwner c' := rfl
@[simp] theorem State.setKey_view_regionRec (k : Nat) (x : KeySlot) (i' : Nat) : (s.setKey k x).regionRec i' = s.regionRec i' := rfl
@[simp] theorem State.setKey_view_poolRec (k : Nat) (x : KeySlot) (p' : Nat) : (s.setKey k x).poolRec p' = s.poolRec p' := rfl
@[simp] theorem State.setKey_view_ringOwner (k : Nat) (x : KeySlot) (r' : Nat) : (s.setKey k x).ringOwner r' = s.ringOwner r' := rfl
@[simp] theorem State.setKey_view_absRing (k : Nat) (x : KeySlot) (n' r' : Nat) : (s.setKey k x).absRing n' r' = s.absRing n' r' := rfl
@[simp] theorem State.setKey_view_pinned (k : Nat) (x : KeySlot) (c' : Nat) : (s.setKey k x).pinned c' = s.pinned c' := rfl
@[simp] theorem State.setKey_view_image (k : Nat) (x : KeySlot) (n' : Nat) : (s.setKey k x).image n' = s.image n' := rfl
@[simp] theorem State.setKey_view_floorSum (k : Nat) (x : KeySlot)  : (s.setKey k x).floorSum = s.floorSum := rfl
@[simp] theorem State.setKey_view_limit (k : Nat) (x : KeySlot)  : (s.setKey k x).limit = s.limit := rfl
@[simp] theorem State.setKey_view_stamp (k : Nat) (x : KeySlot)  : (s.setKey k x).stamp = s.stamp := rfl
@[simp] theorem State.setKey_view_now (k : Nat) (x : KeySlot)  : (s.setKey k x).now = s.now := rfl
@[simp] theorem State.setKey_view_mono (k : Nat) (x : KeySlot)  : (s.setKey k x).mono = s.mono := rfl
@[simp] theorem State.setKey_view_powered (k : Nat) (x : KeySlot)  : (s.setKey k x).powered = s.powered := rfl
@[simp] theorem State.setKey_view_tadpole (k : Nat) (x : KeySlot)  : (s.setKey k x).tadpole = s.tadpole := rfl
@[simp] theorem State.setKey_view_dmaOk (k : Nat) (x : KeySlot) (n' : Nat) : (s.setKey k x).dmaOk n' = s.dmaOk n' := rfl

@[simp] theorem State.setPort_clock (p : Nat) (x : Port) : (s.setPort p x).clock = s.clock := rfl
@[simp] theorem State.setPort_free (p : Nat) (x : Port) : (s.setPort p x).free = s.free := rfl
@[simp] theorem State.setPort_pending (p : Nat) (x : Port) : (s.setPort p x).pending = s.pending := rfl
@[simp] theorem State.setPort_out (p : Nat) (x : Port) : (s.setPort p x).out = s.out := rfl
@[simp] theorem State.setPort_rails (p : Nat) (x : Port) : (s.setPort p x).rails = s.rails := rfl
@[simp] theorem State.setPort_fuse (p : Nat) (x : Port) : (s.setPort p x).fuse = s.fuse := rfl
@[simp] theorem State.setPort_digest (p : Nat) (x : Port) : (s.setPort p x).digest = s.digest := rfl
@[simp] theorem State.setPort_srep (p : Nat) (x : Port) : (s.setPort p x).srep = s.srep := rfl
@[simp] theorem State.setPort_sb (p : Nat) (x : Port) : (s.setPort p x).sb = s.sb := rfl
@[simp] theorem State.setPort_trip (p : Nat) (x : Port) : (s.setPort p x).trip = s.trip := rfl
@[simp] theorem State.setPort_bup (p : Nat) (x : Port) : (s.setPort p x).bup = s.bup := rfl
@[simp] theorem State.setPort_link (p : Nat) (x : Port) : (s.setPort p x).link = s.link := rfl
@[simp] theorem State.setPort_mbx (p : Nat) (x : Port) : (s.setPort p x).mbx = s.mbx := rfl
@[simp] theorem State.setPort_stage (p : Nat) (x : Port) : (s.setPort p x).stage = s.stage := rfl
@[simp] theorem State.setPort_img (p : Nat) (x : Port) : (s.setPort p x).img = s.img := rfl
@[simp] theorem State.setPort_frame (p : Nat) (x : Port) : (s.setPort p x).frame = s.frame := rfl
@[simp] theorem State.setPort_parts (p : Nat) (x : Port) : (s.setPort p x).parts = s.parts := rfl
@[simp] theorem State.setPort_tagErr (p : Nat) (x : Port) : (s.setPort p x).tagErr = s.tagErr := rfl
@[simp] theorem State.setPort_tagErrLast (p : Nat) (x : Port) : (s.setPort p x).tagErrLast = s.tagErrLast := rfl
@[simp] theorem State.setPort_drbgOk (p : Nat) (x : Port) : (s.setPort p x).drbgOk = s.drbgOk := rfl
@[simp] theorem State.setPort_drbg (p : Nat) (x : Port) : (s.setPort p x).drbg = s.drbg := rfl
@[simp] theorem State.setPort_keys (p : Nat) (x : Port) : (s.setPort p x).keys = s.keys := rfl
@[simp] theorem State.setPort_window (p : Nat) (x : Port) : (s.setPort p x).window = s.window := rfl
@[simp] theorem State.setPort_windows (p : Nat) (x : Port) : (s.setPort p x).windows = s.windows := rfl
@[simp] theorem State.setPort_cores (p : Nat) (x : Port) : (s.setPort p x).cores = s.cores := rfl
@[simp] theorem State.setPort_towers (p : Nat) (x : Port) : (s.setPort p x).towers = s.towers := rfl
@[simp] theorem State.setPort_nbStacks (p : Nat) (x : Port) : (s.setPort p x).nbStacks = s.nbStacks := rfl
@[simp] theorem State.setPort_nbus (p : Nat) (x : Port) : (s.setPort p x).nbus = s.nbus := rfl
@[simp] theorem State.setPort_regions (p : Nat) (x : Port) : (s.setPort p x).regions = s.regions := rfl
@[simp] theorem State.setPort_rings (p : Nat) (x : Port) : (s.setPort p x).rings = s.rings := rfl
@[simp] theorem State.setPort_pfQueSel (p : Nat) (x : Port) : (s.setPort p x).pfQueSel = s.pfQueSel := rfl
@[simp] theorem State.setPort_pfBadDb (p : Nat) (x : Port) : (s.setPort p x).pfBadDb = s.pfBadDb := rfl
@[simp] theorem State.setPort_pools (p : Nat) (x : Port) : (s.setPort p x).pools = s.pools := rfl
@[simp] theorem State.setPort_poolErr (p : Nat) (x : Port) : (s.setPort p x).poolErr = s.poolErr := rfl
@[simp] theorem State.setPort_turn (p : Nat) (x : Port) : (s.setPort p x).turn = s.turn := rfl
@[simp] theorem State.setPort_tim (p : Nat) (x : Port) : (s.setPort p x).tim = s.tim := rfl
@[simp] theorem State.setPort_pwr (p : Nat) (x : Port) : (s.setPort p x).pwr = s.pwr := rfl
@[simp] theorem State.setPort_evc (p : Nat) (x : Port) : (s.setPort p x).evc = s.evc := rfl
@[simp] theorem State.setPort_snap (p : Nat) (x : Port) : (s.setPort p x).snap = s.snap := rfl
@[simp] theorem State.setPort_flt (p : Nat) (x : Port) : (s.setPort p x).flt = s.flt := rfl
@[simp] theorem State.setPort_lamps (p : Nat) (x : Port) : (s.setPort p x).lamps = s.lamps := rfl
@[simp] theorem State.setPort_recals (p : Nat) (x : Port) : (s.setPort p x).recals = s.recals := rfl
@[simp] theorem State.setPort_test (p : Nat) (x : Port) : (s.setPort p x).test = s.test := rfl
@[simp] theorem State.setPort_view_core (p : Nat) (x : Port) (c' : Nat) : (s.setPort p x).core c' = s.core c' := rfl
@[simp] theorem State.setPort_view_part (p : Nat) (x : Port) (n' : Nat) : (s.setPort p x).part n' = s.part n' := rfl
@[simp] theorem State.setPort_view_tower (p : Nat) (x : Port) (n' : Nat) : (s.setPort p x).tower n' = s.tower n' := rfl
@[simp] theorem State.setPort_view_stack (p : Nat) (x : Port) (k' : Nat) : (s.setPort p x).stack k' = s.stack k' := rfl
@[simp] theorem State.setPort_view_nbu (p : Nat) (x : Port) (i' : Nat) : (s.setPort p x).nbu i' = s.nbu i' := rfl
@[simp] theorem State.setPort_view_region (p : Nat) (x : Port) (i' : Nat) : (s.setPort p x).region i' = s.region i' := rfl
@[simp] theorem State.setPort_view_ring (p : Nat) (x : Port) (r' : Nat) : (s.setPort p x).ring r' = s.ring r' := rfl
@[simp] theorem State.setPort_view_pool (p : Nat) (x : Port) (p' : Nat) : (s.setPort p x).pool p' = s.pool p' := rfl
@[simp] theorem State.setPort_view_lamp (p : Nat) (x : Port) (n' : Nat) : (s.setPort p x).lamp n' = s.lamp n' := rfl
@[simp] theorem State.setPort_view_key (p : Nat) (x : Port) (k' : Nat) : (s.setPort p x).key k' = s.key k' := rfl
@[simp] theorem State.setPort_view_dk36 (p : Nat) (x : Port)  : (s.setPort p x).dk36 = s.dk36 := rfl
@[simp] theorem State.setPort_view_hubId (p : Nat) (x : Port)  : (s.setPort p x).hubId = s.hubId := rfl
@[simp] theorem State.setPort_view_portCount (p : Nat) (x : Port)  : (s.setPort p x).portCount = s.portCount := rfl
@[simp] theorem State.setPort_view_stackRows (p : Nat) (x : Port)  : (s.setPort p x).stackRows = s.stackRows := rfl
@[simp] theorem State.setPort_view_groupUp (p : Nat) (x : Port) (n' g' : Nat) : (s.setPort p x).groupUp n' g' = s.groupUp n' g' := rfl
@[simp] theorem State.setPort_view_coreUp (p : Nat) (x : Port) (c' : Nat) : (s.setPort p x).coreUp c' = s.coreUp c' := rfl
@[simp] theorem State.setPort_view_stackUp (p : Nat) (x : Port) (k' : Nat) : (s.setPort p x).stackUp k' = s.stackUp k' := rfl
@[simp] theorem State.setPort_view_partRec (p : Nat) (x : Port) (n' : Nat) : (s.setPort p x).partRec n' = s.partRec n' := rfl
@[simp] theorem State.setPort_view_coreOwner (p : Nat) (x : Port) (c' : Nat) : (s.setPort p x).coreOwner c' = s.coreOwner c' := rfl
@[simp] theorem State.setPort_view_regionRec (p : Nat) (x : Port) (i' : Nat) : (s.setPort p x).regionRec i' = s.regionRec i' := rfl
@[simp] theorem State.setPort_view_poolRec (p : Nat) (x : Port) (p' : Nat) : (s.setPort p x).poolRec p' = s.poolRec p' := rfl
@[simp] theorem State.setPort_view_ringOwner (p : Nat) (x : Port) (r' : Nat) : (s.setPort p x).ringOwner r' = s.ringOwner r' := rfl
@[simp] theorem State.setPort_view_absRing (p : Nat) (x : Port) (n' r' : Nat) : (s.setPort p x).absRing n' r' = s.absRing n' r' := rfl
@[simp] theorem State.setPort_view_pinned (p : Nat) (x : Port) (c' : Nat) : (s.setPort p x).pinned c' = s.pinned c' := rfl
@[simp] theorem State.setPort_view_image (p : Nat) (x : Port) (n' : Nat) : (s.setPort p x).image n' = s.image n' := rfl
@[simp] theorem State.setPort_view_floorSum (p : Nat) (x : Port)  : (s.setPort p x).floorSum = s.floorSum := rfl
@[simp] theorem State.setPort_view_limit (p : Nat) (x : Port)  : (s.setPort p x).limit = s.limit := rfl
@[simp] theorem State.setPort_view_stamp (p : Nat) (x : Port)  : (s.setPort p x).stamp = s.stamp := rfl
@[simp] theorem State.setPort_view_now (p : Nat) (x : Port)  : (s.setPort p x).now = s.now := rfl
@[simp] theorem State.setPort_view_mono (p : Nat) (x : Port)  : (s.setPort p x).mono = s.mono := rfl
@[simp] theorem State.setPort_view_powered (p : Nat) (x : Port)  : (s.setPort p x).powered = s.powered := rfl
@[simp] theorem State.setPort_view_tadpole (p : Nat) (x : Port)  : (s.setPort p x).tadpole = s.tadpole := rfl
@[simp] theorem State.setPort_view_dmaOk (p : Nat) (x : Port) (n' : Nat) : (s.setPort p x).dmaOk n' = s.dmaOk n' := rfl

@[simp] theorem State.at_free (t : Nat) : (s.at t).free = s.free := rfl
@[simp] theorem State.at_pending (t : Nat) : (s.at t).pending = s.pending := rfl
@[simp] theorem State.at_out (t : Nat) : (s.at t).out = s.out := rfl
@[simp] theorem State.at_rails (t : Nat) : (s.at t).rails = s.rails := rfl
@[simp] theorem State.at_fuse (t : Nat) : (s.at t).fuse = s.fuse := rfl
@[simp] theorem State.at_digest (t : Nat) : (s.at t).digest = s.digest := rfl
@[simp] theorem State.at_srep (t : Nat) : (s.at t).srep = s.srep := rfl
@[simp] theorem State.at_sb (t : Nat) : (s.at t).sb = s.sb := rfl
@[simp] theorem State.at_trip (t : Nat) : (s.at t).trip = s.trip := rfl
@[simp] theorem State.at_bup (t : Nat) : (s.at t).bup = s.bup := rfl
@[simp] theorem State.at_link (t : Nat) : (s.at t).link = s.link := rfl
@[simp] theorem State.at_mbx (t : Nat) : (s.at t).mbx = s.mbx := rfl
@[simp] theorem State.at_stage (t : Nat) : (s.at t).stage = s.stage := rfl
@[simp] theorem State.at_img (t : Nat) : (s.at t).img = s.img := rfl
@[simp] theorem State.at_frame (t : Nat) : (s.at t).frame = s.frame := rfl
@[simp] theorem State.at_parts (t : Nat) : (s.at t).parts = s.parts := rfl
@[simp] theorem State.at_tagErr (t : Nat) : (s.at t).tagErr = s.tagErr := rfl
@[simp] theorem State.at_tagErrLast (t : Nat) : (s.at t).tagErrLast = s.tagErrLast := rfl
@[simp] theorem State.at_drbgOk (t : Nat) : (s.at t).drbgOk = s.drbgOk := rfl
@[simp] theorem State.at_drbg (t : Nat) : (s.at t).drbg = s.drbg := rfl
@[simp] theorem State.at_keys (t : Nat) : (s.at t).keys = s.keys := rfl
@[simp] theorem State.at_window (t : Nat) : (s.at t).window = s.window := rfl
@[simp] theorem State.at_windows (t : Nat) : (s.at t).windows = s.windows := rfl
@[simp] theorem State.at_cores (t : Nat) : (s.at t).cores = s.cores := rfl
@[simp] theorem State.at_towers (t : Nat) : (s.at t).towers = s.towers := rfl
@[simp] theorem State.at_nbStacks (t : Nat) : (s.at t).nbStacks = s.nbStacks := rfl
@[simp] theorem State.at_nbus (t : Nat) : (s.at t).nbus = s.nbus := rfl
@[simp] theorem State.at_regions (t : Nat) : (s.at t).regions = s.regions := rfl
@[simp] theorem State.at_rings (t : Nat) : (s.at t).rings = s.rings := rfl
@[simp] theorem State.at_pfQueSel (t : Nat) : (s.at t).pfQueSel = s.pfQueSel := rfl
@[simp] theorem State.at_pfBadDb (t : Nat) : (s.at t).pfBadDb = s.pfBadDb := rfl
@[simp] theorem State.at_pools (t : Nat) : (s.at t).pools = s.pools := rfl
@[simp] theorem State.at_poolErr (t : Nat) : (s.at t).poolErr = s.poolErr := rfl
@[simp] theorem State.at_turn (t : Nat) : (s.at t).turn = s.turn := rfl
@[simp] theorem State.at_fab (t : Nat) : (s.at t).fab = s.fab := rfl
@[simp] theorem State.at_tim (t : Nat) : (s.at t).tim = s.tim := rfl
@[simp] theorem State.at_pwr (t : Nat) : (s.at t).pwr = s.pwr := rfl
@[simp] theorem State.at_evc (t : Nat) : (s.at t).evc = s.evc := rfl
@[simp] theorem State.at_snap (t : Nat) : (s.at t).snap = s.snap := rfl
@[simp] theorem State.at_flt (t : Nat) : (s.at t).flt = s.flt := rfl
@[simp] theorem State.at_lamps (t : Nat) : (s.at t).lamps = s.lamps := rfl
@[simp] theorem State.at_recals (t : Nat) : (s.at t).recals = s.recals := rfl
@[simp] theorem State.at_test (t : Nat) : (s.at t).test = s.test := rfl
@[simp] theorem State.at_view_core (t : Nat) (c' : Nat) : (s.at t).core c' = s.core c' := rfl
@[simp] theorem State.at_view_part (t : Nat) (n' : Nat) : (s.at t).part n' = s.part n' := rfl
@[simp] theorem State.at_view_tower (t : Nat) (n' : Nat) : (s.at t).tower n' = s.tower n' := rfl
@[simp] theorem State.at_view_stack (t : Nat) (k' : Nat) : (s.at t).stack k' = s.stack k' := rfl
@[simp] theorem State.at_view_nbu (t : Nat) (i' : Nat) : (s.at t).nbu i' = s.nbu i' := rfl
@[simp] theorem State.at_view_region (t : Nat) (i' : Nat) : (s.at t).region i' = s.region i' := rfl
@[simp] theorem State.at_view_ring (t : Nat) (r' : Nat) : (s.at t).ring r' = s.ring r' := rfl
@[simp] theorem State.at_view_pool (t : Nat) (p' : Nat) : (s.at t).pool p' = s.pool p' := rfl
@[simp] theorem State.at_view_lamp (t : Nat) (n' : Nat) : (s.at t).lamp n' = s.lamp n' := rfl
@[simp] theorem State.at_view_key (t : Nat) (k' : Nat) : (s.at t).key k' = s.key k' := rfl
@[simp] theorem State.at_view_port (t : Nat) (p' : Nat) : (s.at t).port p' = s.port p' := rfl
@[simp] theorem State.at_view_dk36 (t : Nat)  : (s.at t).dk36 = s.dk36 := rfl
@[simp] theorem State.at_view_hubId (t : Nat)  : (s.at t).hubId = s.hubId := rfl
@[simp] theorem State.at_view_portCount (t : Nat)  : (s.at t).portCount = s.portCount := rfl
@[simp] theorem State.at_view_stackRows (t : Nat)  : (s.at t).stackRows = s.stackRows := rfl
@[simp] theorem State.at_view_groupUp (t : Nat) (n' g' : Nat) : (s.at t).groupUp n' g' = s.groupUp n' g' := rfl
@[simp] theorem State.at_view_coreUp (t : Nat) (c' : Nat) : (s.at t).coreUp c' = s.coreUp c' := rfl
@[simp] theorem State.at_view_stackUp (t : Nat) (k' : Nat) : (s.at t).stackUp k' = s.stackUp k' := rfl
@[simp] theorem State.at_view_partRec (t : Nat) (n' : Nat) : (s.at t).partRec n' = s.partRec n' := rfl
@[simp] theorem State.at_view_coreOwner (t : Nat) (c' : Nat) : (s.at t).coreOwner c' = s.coreOwner c' := rfl
@[simp] theorem State.at_view_regionRec (t : Nat) (i' : Nat) : (s.at t).regionRec i' = s.regionRec i' := rfl
@[simp] theorem State.at_view_poolRec (t : Nat) (p' : Nat) : (s.at t).poolRec p' = s.poolRec p' := rfl
@[simp] theorem State.at_view_ringOwner (t : Nat) (r' : Nat) : (s.at t).ringOwner r' = s.ringOwner r' := rfl
@[simp] theorem State.at_view_absRing (t : Nat) (n' r' : Nat) : (s.at t).absRing n' r' = s.absRing n' r' := rfl
@[simp] theorem State.at_view_pinned (t : Nat) (c' : Nat) : (s.at t).pinned c' = s.pinned c' := rfl
@[simp] theorem State.at_view_image (t : Nat) (n' : Nat) : (s.at t).image n' = s.image n' := rfl
@[simp] theorem State.at_view_floorSum (t : Nat)  : (s.at t).floorSum = s.floorSum := rfl
@[simp] theorem State.at_view_limit (t : Nat)  : (s.at t).limit = s.limit := rfl
@[simp] theorem State.at_view_powered (t : Nat)  : (s.at t).powered = s.powered := rfl
@[simp] theorem State.at_view_tadpole (t : Nat)  : (s.at t).tadpole = s.tadpole := rfl
@[simp] theorem State.at_view_dmaOk (t : Nat) (n' : Nat) : (s.at t).dmaOk n' = s.dmaOk n' := rfl

@[simp] theorem State.drawn_clock : (s.drawn).clock = s.clock := rfl
@[simp] theorem State.drawn_pending : (s.drawn).pending = s.pending := rfl
@[simp] theorem State.drawn_out : (s.drawn).out = s.out := rfl
@[simp] theorem State.drawn_rails : (s.drawn).rails = s.rails := rfl
@[simp] theorem State.drawn_fuse : (s.drawn).fuse = s.fuse := rfl
@[simp] theorem State.drawn_digest : (s.drawn).digest = s.digest := rfl
@[simp] theorem State.drawn_srep : (s.drawn).srep = s.srep := rfl
@[simp] theorem State.drawn_sb : (s.drawn).sb = s.sb := rfl
@[simp] theorem State.drawn_trip : (s.drawn).trip = s.trip := rfl
@[simp] theorem State.drawn_bup : (s.drawn).bup = s.bup := rfl
@[simp] theorem State.drawn_link : (s.drawn).link = s.link := rfl
@[simp] theorem State.drawn_mbx : (s.drawn).mbx = s.mbx := rfl
@[simp] theorem State.drawn_stage : (s.drawn).stage = s.stage := rfl
@[simp] theorem State.drawn_img : (s.drawn).img = s.img := rfl
@[simp] theorem State.drawn_frame : (s.drawn).frame = s.frame := rfl
@[simp] theorem State.drawn_parts : (s.drawn).parts = s.parts := rfl
@[simp] theorem State.drawn_tagErr : (s.drawn).tagErr = s.tagErr := rfl
@[simp] theorem State.drawn_tagErrLast : (s.drawn).tagErrLast = s.tagErrLast := rfl
@[simp] theorem State.drawn_drbgOk : (s.drawn).drbgOk = s.drbgOk := rfl
@[simp] theorem State.drawn_drbg : (s.drawn).drbg = s.drbg := rfl
@[simp] theorem State.drawn_keys : (s.drawn).keys = s.keys := rfl
@[simp] theorem State.drawn_window : (s.drawn).window = s.window := rfl
@[simp] theorem State.drawn_windows : (s.drawn).windows = s.windows := rfl
@[simp] theorem State.drawn_cores : (s.drawn).cores = s.cores := rfl
@[simp] theorem State.drawn_towers : (s.drawn).towers = s.towers := rfl
@[simp] theorem State.drawn_nbStacks : (s.drawn).nbStacks = s.nbStacks := rfl
@[simp] theorem State.drawn_nbus : (s.drawn).nbus = s.nbus := rfl
@[simp] theorem State.drawn_regions : (s.drawn).regions = s.regions := rfl
@[simp] theorem State.drawn_rings : (s.drawn).rings = s.rings := rfl
@[simp] theorem State.drawn_pfQueSel : (s.drawn).pfQueSel = s.pfQueSel := rfl
@[simp] theorem State.drawn_pfBadDb : (s.drawn).pfBadDb = s.pfBadDb := rfl
@[simp] theorem State.drawn_pools : (s.drawn).pools = s.pools := rfl
@[simp] theorem State.drawn_poolErr : (s.drawn).poolErr = s.poolErr := rfl
@[simp] theorem State.drawn_turn : (s.drawn).turn = s.turn := rfl
@[simp] theorem State.drawn_fab : (s.drawn).fab = s.fab := rfl
@[simp] theorem State.drawn_tim : (s.drawn).tim = s.tim := rfl
@[simp] theorem State.drawn_pwr : (s.drawn).pwr = s.pwr := rfl
@[simp] theorem State.drawn_evc : (s.drawn).evc = s.evc := rfl
@[simp] theorem State.drawn_snap : (s.drawn).snap = s.snap := rfl
@[simp] theorem State.drawn_flt : (s.drawn).flt = s.flt := rfl
@[simp] theorem State.drawn_lamps : (s.drawn).lamps = s.lamps := rfl
@[simp] theorem State.drawn_recals : (s.drawn).recals = s.recals := rfl
@[simp] theorem State.drawn_test : (s.drawn).test = s.test := rfl
@[simp] theorem State.drawn_view_core  (c' : Nat) : (s.drawn).core c' = s.core c' := rfl
@[simp] theorem State.drawn_view_part  (n' : Nat) : (s.drawn).part n' = s.part n' := rfl
@[simp] theorem State.drawn_view_tower  (n' : Nat) : (s.drawn).tower n' = s.tower n' := rfl
@[simp] theorem State.drawn_view_stack  (k' : Nat) : (s.drawn).stack k' = s.stack k' := rfl
@[simp] theorem State.drawn_view_nbu  (i' : Nat) : (s.drawn).nbu i' = s.nbu i' := rfl
@[simp] theorem State.drawn_view_region  (i' : Nat) : (s.drawn).region i' = s.region i' := rfl
@[simp] theorem State.drawn_view_ring  (r' : Nat) : (s.drawn).ring r' = s.ring r' := rfl
@[simp] theorem State.drawn_view_pool  (p' : Nat) : (s.drawn).pool p' = s.pool p' := rfl
@[simp] theorem State.drawn_view_lamp  (n' : Nat) : (s.drawn).lamp n' = s.lamp n' := rfl
@[simp] theorem State.drawn_view_key  (k' : Nat) : (s.drawn).key k' = s.key k' := rfl
@[simp] theorem State.drawn_view_port  (p' : Nat) : (s.drawn).port p' = s.port p' := rfl
@[simp] theorem State.drawn_view_dk36   : (s.drawn).dk36 = s.dk36 := rfl
@[simp] theorem State.drawn_view_hubId   : (s.drawn).hubId = s.hubId := rfl
@[simp] theorem State.drawn_view_portCount   : (s.drawn).portCount = s.portCount := rfl
@[simp] theorem State.drawn_view_stackRows   : (s.drawn).stackRows = s.stackRows := rfl
@[simp] theorem State.drawn_view_groupUp  (n' g' : Nat) : (s.drawn).groupUp n' g' = s.groupUp n' g' := rfl
@[simp] theorem State.drawn_view_coreUp  (c' : Nat) : (s.drawn).coreUp c' = s.coreUp c' := rfl
@[simp] theorem State.drawn_view_stackUp  (k' : Nat) : (s.drawn).stackUp k' = s.stackUp k' := rfl
@[simp] theorem State.drawn_view_partRec  (n' : Nat) : (s.drawn).partRec n' = s.partRec n' := rfl
@[simp] theorem State.drawn_view_coreOwner  (c' : Nat) : (s.drawn).coreOwner c' = s.coreOwner c' := rfl
@[simp] theorem State.drawn_view_regionRec  (i' : Nat) : (s.drawn).regionRec i' = s.regionRec i' := rfl
@[simp] theorem State.drawn_view_poolRec  (p' : Nat) : (s.drawn).poolRec p' = s.poolRec p' := rfl
@[simp] theorem State.drawn_view_ringOwner  (r' : Nat) : (s.drawn).ringOwner r' = s.ringOwner r' := rfl
@[simp] theorem State.drawn_view_absRing  (n' r' : Nat) : (s.drawn).absRing n' r' = s.absRing n' r' := rfl
@[simp] theorem State.drawn_view_pinned  (c' : Nat) : (s.drawn).pinned c' = s.pinned c' := rfl
@[simp] theorem State.drawn_view_image  (n' : Nat) : (s.drawn).image n' = s.image n' := rfl
@[simp] theorem State.drawn_view_floorSum   : (s.drawn).floorSum = s.floorSum := rfl
@[simp] theorem State.drawn_view_limit   : (s.drawn).limit = s.limit := rfl
@[simp] theorem State.drawn_view_stamp   : (s.drawn).stamp = s.stamp := rfl
@[simp] theorem State.drawn_view_now   : (s.drawn).now = s.now := rfl
@[simp] theorem State.drawn_view_mono   : (s.drawn).mono = s.mono := rfl
@[simp] theorem State.drawn_view_powered   : (s.drawn).powered = s.powered := rfl
@[simp] theorem State.drawn_view_tadpole   : (s.drawn).tadpole = s.tadpole := rfl
@[simp] theorem State.drawn_view_dmaOk  (n' : Nat) : (s.drawn).dmaOk n' = s.dmaOk n' := rfl

@[simp] theorem State.signal_clock (f v : Nat) : (s.signal f v).clock = s.clock := rfl
@[simp] theorem State.signal_free (f v : Nat) : (s.signal f v).free = s.free := rfl
@[simp] theorem State.signal_pending (f v : Nat) : (s.signal f v).pending = s.pending := rfl
@[simp] theorem State.signal_rails (f v : Nat) : (s.signal f v).rails = s.rails := rfl
@[simp] theorem State.signal_fuse (f v : Nat) : (s.signal f v).fuse = s.fuse := rfl
@[simp] theorem State.signal_digest (f v : Nat) : (s.signal f v).digest = s.digest := rfl
@[simp] theorem State.signal_srep (f v : Nat) : (s.signal f v).srep = s.srep := rfl
@[simp] theorem State.signal_sb (f v : Nat) : (s.signal f v).sb = s.sb := rfl
@[simp] theorem State.signal_trip (f v : Nat) : (s.signal f v).trip = s.trip := rfl
@[simp] theorem State.signal_bup (f v : Nat) : (s.signal f v).bup = s.bup := rfl
@[simp] theorem State.signal_link (f v : Nat) : (s.signal f v).link = s.link := rfl
@[simp] theorem State.signal_mbx (f v : Nat) : (s.signal f v).mbx = s.mbx := rfl
@[simp] theorem State.signal_stage (f v : Nat) : (s.signal f v).stage = s.stage := rfl
@[simp] theorem State.signal_img (f v : Nat) : (s.signal f v).img = s.img := rfl
@[simp] theorem State.signal_frame (f v : Nat) : (s.signal f v).frame = s.frame := rfl
@[simp] theorem State.signal_parts (f v : Nat) : (s.signal f v).parts = s.parts := rfl
@[simp] theorem State.signal_tagErr (f v : Nat) : (s.signal f v).tagErr = s.tagErr := rfl
@[simp] theorem State.signal_tagErrLast (f v : Nat) : (s.signal f v).tagErrLast = s.tagErrLast := rfl
@[simp] theorem State.signal_drbgOk (f v : Nat) : (s.signal f v).drbgOk = s.drbgOk := rfl
@[simp] theorem State.signal_drbg (f v : Nat) : (s.signal f v).drbg = s.drbg := rfl
@[simp] theorem State.signal_keys (f v : Nat) : (s.signal f v).keys = s.keys := rfl
@[simp] theorem State.signal_window (f v : Nat) : (s.signal f v).window = s.window := rfl
@[simp] theorem State.signal_windows (f v : Nat) : (s.signal f v).windows = s.windows := rfl
@[simp] theorem State.signal_cores (f v : Nat) : (s.signal f v).cores = s.cores := rfl
@[simp] theorem State.signal_towers (f v : Nat) : (s.signal f v).towers = s.towers := rfl
@[simp] theorem State.signal_nbStacks (f v : Nat) : (s.signal f v).nbStacks = s.nbStacks := rfl
@[simp] theorem State.signal_nbus (f v : Nat) : (s.signal f v).nbus = s.nbus := rfl
@[simp] theorem State.signal_regions (f v : Nat) : (s.signal f v).regions = s.regions := rfl
@[simp] theorem State.signal_rings (f v : Nat) : (s.signal f v).rings = s.rings := rfl
@[simp] theorem State.signal_pfQueSel (f v : Nat) : (s.signal f v).pfQueSel = s.pfQueSel := rfl
@[simp] theorem State.signal_pfBadDb (f v : Nat) : (s.signal f v).pfBadDb = s.pfBadDb := rfl
@[simp] theorem State.signal_pools (f v : Nat) : (s.signal f v).pools = s.pools := rfl
@[simp] theorem State.signal_poolErr (f v : Nat) : (s.signal f v).poolErr = s.poolErr := rfl
@[simp] theorem State.signal_turn (f v : Nat) : (s.signal f v).turn = s.turn := rfl
@[simp] theorem State.signal_fab (f v : Nat) : (s.signal f v).fab = s.fab := rfl
@[simp] theorem State.signal_tim (f v : Nat) : (s.signal f v).tim = s.tim := rfl
@[simp] theorem State.signal_pwr (f v : Nat) : (s.signal f v).pwr = s.pwr := rfl
@[simp] theorem State.signal_evc (f v : Nat) : (s.signal f v).evc = s.evc := rfl
@[simp] theorem State.signal_snap (f v : Nat) : (s.signal f v).snap = s.snap := rfl
@[simp] theorem State.signal_flt (f v : Nat) : (s.signal f v).flt = s.flt := rfl
@[simp] theorem State.signal_lamps (f v : Nat) : (s.signal f v).lamps = s.lamps := rfl
@[simp] theorem State.signal_recals (f v : Nat) : (s.signal f v).recals = s.recals := rfl
@[simp] theorem State.signal_test (f v : Nat) : (s.signal f v).test = s.test := rfl
@[simp] theorem State.signal_view_core (f v : Nat) (c' : Nat) : (s.signal f v).core c' = s.core c' := rfl
@[simp] theorem State.signal_view_part (f v : Nat) (n' : Nat) : (s.signal f v).part n' = s.part n' := rfl
@[simp] theorem State.signal_view_tower (f v : Nat) (n' : Nat) : (s.signal f v).tower n' = s.tower n' := rfl
@[simp] theorem State.signal_view_stack (f v : Nat) (k' : Nat) : (s.signal f v).stack k' = s.stack k' := rfl
@[simp] theorem State.signal_view_nbu (f v : Nat) (i' : Nat) : (s.signal f v).nbu i' = s.nbu i' := rfl
@[simp] theorem State.signal_view_region (f v : Nat) (i' : Nat) : (s.signal f v).region i' = s.region i' := rfl
@[simp] theorem State.signal_view_ring (f v : Nat) (r' : Nat) : (s.signal f v).ring r' = s.ring r' := rfl
@[simp] theorem State.signal_view_pool (f v : Nat) (p' : Nat) : (s.signal f v).pool p' = s.pool p' := rfl
@[simp] theorem State.signal_view_lamp (f v : Nat) (n' : Nat) : (s.signal f v).lamp n' = s.lamp n' := rfl
@[simp] theorem State.signal_view_key (f v : Nat) (k' : Nat) : (s.signal f v).key k' = s.key k' := rfl
@[simp] theorem State.signal_view_port (f v : Nat) (p' : Nat) : (s.signal f v).port p' = s.port p' := rfl
@[simp] theorem State.signal_view_dk36 (f v : Nat)  : (s.signal f v).dk36 = s.dk36 := rfl
@[simp] theorem State.signal_view_hubId (f v : Nat)  : (s.signal f v).hubId = s.hubId := rfl
@[simp] theorem State.signal_view_portCount (f v : Nat)  : (s.signal f v).portCount = s.portCount := rfl
@[simp] theorem State.signal_view_stackRows (f v : Nat)  : (s.signal f v).stackRows = s.stackRows := rfl
@[simp] theorem State.signal_view_groupUp (f v : Nat) (n' g' : Nat) : (s.signal f v).groupUp n' g' = s.groupUp n' g' := rfl
@[simp] theorem State.signal_view_coreUp (f v : Nat) (c' : Nat) : (s.signal f v).coreUp c' = s.coreUp c' := rfl
@[simp] theorem State.signal_view_stackUp (f v : Nat) (k' : Nat) : (s.signal f v).stackUp k' = s.stackUp k' := rfl
@[simp] theorem State.signal_view_partRec (f v : Nat) (n' : Nat) : (s.signal f v).partRec n' = s.partRec n' := rfl
@[simp] theorem State.signal_view_coreOwner (f v : Nat) (c' : Nat) : (s.signal f v).coreOwner c' = s.coreOwner c' := rfl
@[simp] theorem State.signal_view_regionRec (f v : Nat) (i' : Nat) : (s.signal f v).regionRec i' = s.regionRec i' := rfl
@[simp] theorem State.signal_view_poolRec (f v : Nat) (p' : Nat) : (s.signal f v).poolRec p' = s.poolRec p' := rfl
@[simp] theorem State.signal_view_ringOwner (f v : Nat) (r' : Nat) : (s.signal f v).ringOwner r' = s.ringOwner r' := rfl
@[simp] theorem State.signal_view_absRing (f v : Nat) (n' r' : Nat) : (s.signal f v).absRing n' r' = s.absRing n' r' := rfl
@[simp] theorem State.signal_view_pinned (f v : Nat) (c' : Nat) : (s.signal f v).pinned c' = s.pinned c' := rfl
@[simp] theorem State.signal_view_image (f v : Nat) (n' : Nat) : (s.signal f v).image n' = s.image n' := rfl
@[simp] theorem State.signal_view_floorSum (f v : Nat)  : (s.signal f v).floorSum = s.floorSum := rfl
@[simp] theorem State.signal_view_limit (f v : Nat)  : (s.signal f v).limit = s.limit := rfl
@[simp] theorem State.signal_view_stamp (f v : Nat)  : (s.signal f v).stamp = s.stamp := rfl
@[simp] theorem State.signal_view_now (f v : Nat)  : (s.signal f v).now = s.now := rfl
@[simp] theorem State.signal_view_mono (f v : Nat)  : (s.signal f v).mono = s.mono := rfl
@[simp] theorem State.signal_view_powered (f v : Nat)  : (s.signal f v).powered = s.powered := rfl
@[simp] theorem State.signal_view_tadpole (f v : Nat)  : (s.signal f v).tadpole = s.tadpole := rfl
@[simp] theorem State.signal_view_dmaOk (f v : Nat) (n' : Nat) : (s.signal f v).dmaOk n' = s.dmaOk n' := rfl

@[simp] theorem State.reads_clock (b : Bytes) : (s.reads b).clock = s.clock := rfl
@[simp] theorem State.reads_free (b : Bytes) : (s.reads b).free = s.free := rfl
@[simp] theorem State.reads_pending (b : Bytes) : (s.reads b).pending = s.pending := rfl
@[simp] theorem State.reads_rails (b : Bytes) : (s.reads b).rails = s.rails := rfl
@[simp] theorem State.reads_fuse (b : Bytes) : (s.reads b).fuse = s.fuse := rfl
@[simp] theorem State.reads_digest (b : Bytes) : (s.reads b).digest = s.digest := rfl
@[simp] theorem State.reads_srep (b : Bytes) : (s.reads b).srep = s.srep := rfl
@[simp] theorem State.reads_sb (b : Bytes) : (s.reads b).sb = s.sb := rfl
@[simp] theorem State.reads_trip (b : Bytes) : (s.reads b).trip = s.trip := rfl
@[simp] theorem State.reads_bup (b : Bytes) : (s.reads b).bup = s.bup := rfl
@[simp] theorem State.reads_link (b : Bytes) : (s.reads b).link = s.link := rfl
@[simp] theorem State.reads_mbx (b : Bytes) : (s.reads b).mbx = s.mbx := rfl
@[simp] theorem State.reads_stage (b : Bytes) : (s.reads b).stage = s.stage := rfl
@[simp] theorem State.reads_img (b : Bytes) : (s.reads b).img = s.img := rfl
@[simp] theorem State.reads_frame (b : Bytes) : (s.reads b).frame = s.frame := rfl
@[simp] theorem State.reads_parts (b : Bytes) : (s.reads b).parts = s.parts := rfl
@[simp] theorem State.reads_tagErr (b : Bytes) : (s.reads b).tagErr = s.tagErr := rfl
@[simp] theorem State.reads_tagErrLast (b : Bytes) : (s.reads b).tagErrLast = s.tagErrLast := rfl
@[simp] theorem State.reads_drbgOk (b : Bytes) : (s.reads b).drbgOk = s.drbgOk := rfl
@[simp] theorem State.reads_drbg (b : Bytes) : (s.reads b).drbg = s.drbg := rfl
@[simp] theorem State.reads_keys (b : Bytes) : (s.reads b).keys = s.keys := rfl
@[simp] theorem State.reads_window (b : Bytes) : (s.reads b).window = s.window := rfl
@[simp] theorem State.reads_windows (b : Bytes) : (s.reads b).windows = s.windows := rfl
@[simp] theorem State.reads_cores (b : Bytes) : (s.reads b).cores = s.cores := rfl
@[simp] theorem State.reads_towers (b : Bytes) : (s.reads b).towers = s.towers := rfl
@[simp] theorem State.reads_nbStacks (b : Bytes) : (s.reads b).nbStacks = s.nbStacks := rfl
@[simp] theorem State.reads_nbus (b : Bytes) : (s.reads b).nbus = s.nbus := rfl
@[simp] theorem State.reads_regions (b : Bytes) : (s.reads b).regions = s.regions := rfl
@[simp] theorem State.reads_rings (b : Bytes) : (s.reads b).rings = s.rings := rfl
@[simp] theorem State.reads_pfQueSel (b : Bytes) : (s.reads b).pfQueSel = s.pfQueSel := rfl
@[simp] theorem State.reads_pfBadDb (b : Bytes) : (s.reads b).pfBadDb = s.pfBadDb := rfl
@[simp] theorem State.reads_pools (b : Bytes) : (s.reads b).pools = s.pools := rfl
@[simp] theorem State.reads_poolErr (b : Bytes) : (s.reads b).poolErr = s.poolErr := rfl
@[simp] theorem State.reads_turn (b : Bytes) : (s.reads b).turn = s.turn := rfl
@[simp] theorem State.reads_fab (b : Bytes) : (s.reads b).fab = s.fab := rfl
@[simp] theorem State.reads_tim (b : Bytes) : (s.reads b).tim = s.tim := rfl
@[simp] theorem State.reads_pwr (b : Bytes) : (s.reads b).pwr = s.pwr := rfl
@[simp] theorem State.reads_evc (b : Bytes) : (s.reads b).evc = s.evc := rfl
@[simp] theorem State.reads_snap (b : Bytes) : (s.reads b).snap = s.snap := rfl
@[simp] theorem State.reads_flt (b : Bytes) : (s.reads b).flt = s.flt := rfl
@[simp] theorem State.reads_lamps (b : Bytes) : (s.reads b).lamps = s.lamps := rfl
@[simp] theorem State.reads_recals (b : Bytes) : (s.reads b).recals = s.recals := rfl
@[simp] theorem State.reads_test (b : Bytes) : (s.reads b).test = s.test := rfl
@[simp] theorem State.reads_view_core (b : Bytes) (c' : Nat) : (s.reads b).core c' = s.core c' := rfl
@[simp] theorem State.reads_view_part (b : Bytes) (n' : Nat) : (s.reads b).part n' = s.part n' := rfl
@[simp] theorem State.reads_view_tower (b : Bytes) (n' : Nat) : (s.reads b).tower n' = s.tower n' := rfl
@[simp] theorem State.reads_view_stack (b : Bytes) (k' : Nat) : (s.reads b).stack k' = s.stack k' := rfl
@[simp] theorem State.reads_view_nbu (b : Bytes) (i' : Nat) : (s.reads b).nbu i' = s.nbu i' := rfl
@[simp] theorem State.reads_view_region (b : Bytes) (i' : Nat) : (s.reads b).region i' = s.region i' := rfl
@[simp] theorem State.reads_view_ring (b : Bytes) (r' : Nat) : (s.reads b).ring r' = s.ring r' := rfl
@[simp] theorem State.reads_view_pool (b : Bytes) (p' : Nat) : (s.reads b).pool p' = s.pool p' := rfl
@[simp] theorem State.reads_view_lamp (b : Bytes) (n' : Nat) : (s.reads b).lamp n' = s.lamp n' := rfl
@[simp] theorem State.reads_view_key (b : Bytes) (k' : Nat) : (s.reads b).key k' = s.key k' := rfl
@[simp] theorem State.reads_view_port (b : Bytes) (p' : Nat) : (s.reads b).port p' = s.port p' := rfl
@[simp] theorem State.reads_view_dk36 (b : Bytes)  : (s.reads b).dk36 = s.dk36 := rfl
@[simp] theorem State.reads_view_hubId (b : Bytes)  : (s.reads b).hubId = s.hubId := rfl
@[simp] theorem State.reads_view_portCount (b : Bytes)  : (s.reads b).portCount = s.portCount := rfl
@[simp] theorem State.reads_view_stackRows (b : Bytes)  : (s.reads b).stackRows = s.stackRows := rfl
@[simp] theorem State.reads_view_groupUp (b : Bytes) (n' g' : Nat) : (s.reads b).groupUp n' g' = s.groupUp n' g' := rfl
@[simp] theorem State.reads_view_coreUp (b : Bytes) (c' : Nat) : (s.reads b).coreUp c' = s.coreUp c' := rfl
@[simp] theorem State.reads_view_stackUp (b : Bytes) (k' : Nat) : (s.reads b).stackUp k' = s.stackUp k' := rfl
@[simp] theorem State.reads_view_partRec (b : Bytes) (n' : Nat) : (s.reads b).partRec n' = s.partRec n' := rfl
@[simp] theorem State.reads_view_coreOwner (b : Bytes) (c' : Nat) : (s.reads b).coreOwner c' = s.coreOwner c' := rfl
@[simp] theorem State.reads_view_regionRec (b : Bytes) (i' : Nat) : (s.reads b).regionRec i' = s.regionRec i' := rfl
@[simp] theorem State.reads_view_poolRec (b : Bytes) (p' : Nat) : (s.reads b).poolRec p' = s.poolRec p' := rfl
@[simp] theorem State.reads_view_ringOwner (b : Bytes) (r' : Nat) : (s.reads b).ringOwner r' = s.ringOwner r' := rfl
@[simp] theorem State.reads_view_absRing (b : Bytes) (n' r' : Nat) : (s.reads b).absRing n' r' = s.absRing n' r' := rfl
@[simp] theorem State.reads_view_pinned (b : Bytes) (c' : Nat) : (s.reads b).pinned c' = s.pinned c' := rfl
@[simp] theorem State.reads_view_image (b : Bytes) (n' : Nat) : (s.reads b).image n' = s.image n' := rfl
@[simp] theorem State.reads_view_floorSum (b : Bytes)  : (s.reads b).floorSum = s.floorSum := rfl
@[simp] theorem State.reads_view_limit (b : Bytes)  : (s.reads b).limit = s.limit := rfl
@[simp] theorem State.reads_view_stamp (b : Bytes)  : (s.reads b).stamp = s.stamp := rfl
@[simp] theorem State.reads_view_now (b : Bytes)  : (s.reads b).now = s.now := rfl
@[simp] theorem State.reads_view_mono (b : Bytes)  : (s.reads b).mono = s.mono := rfl
@[simp] theorem State.reads_view_powered (b : Bytes)  : (s.reads b).powered = s.powered := rfl
@[simp] theorem State.reads_view_tadpole (b : Bytes)  : (s.reads b).tadpole = s.tadpole := rfl
@[simp] theorem State.reads_view_dmaOk (b : Bytes) (n' : Nat) : (s.reads b).dmaOk n' = s.dmaOk n' := rfl

@[simp] theorem State.report_clock (r : FltRec) : (s.report r).clock = s.clock := rfl
@[simp] theorem State.report_free (r : FltRec) : (s.report r).free = s.free := rfl
@[simp] theorem State.report_pending (r : FltRec) : (s.report r).pending = s.pending := rfl
@[simp] theorem State.report_out (r : FltRec) : (s.report r).out = s.out := rfl
@[simp] theorem State.report_rails (r : FltRec) : (s.report r).rails = s.rails := rfl
@[simp] theorem State.report_fuse (r : FltRec) : (s.report r).fuse = s.fuse := rfl
@[simp] theorem State.report_digest (r : FltRec) : (s.report r).digest = s.digest := rfl
@[simp] theorem State.report_srep (r : FltRec) : (s.report r).srep = s.srep := rfl
@[simp] theorem State.report_sb (r : FltRec) : (s.report r).sb = s.sb := rfl
@[simp] theorem State.report_trip (r : FltRec) : (s.report r).trip = s.trip := rfl
@[simp] theorem State.report_bup (r : FltRec) : (s.report r).bup = s.bup := rfl
@[simp] theorem State.report_link (r : FltRec) : (s.report r).link = s.link := rfl
@[simp] theorem State.report_mbx (r : FltRec) : (s.report r).mbx = s.mbx := rfl
@[simp] theorem State.report_stage (r : FltRec) : (s.report r).stage = s.stage := rfl
@[simp] theorem State.report_img (r : FltRec) : (s.report r).img = s.img := rfl
@[simp] theorem State.report_frame (r : FltRec) : (s.report r).frame = s.frame := rfl
@[simp] theorem State.report_parts (r : FltRec) : (s.report r).parts = s.parts := rfl
@[simp] theorem State.report_tagErr (r : FltRec) : (s.report r).tagErr = s.tagErr := rfl
@[simp] theorem State.report_tagErrLast (r : FltRec) : (s.report r).tagErrLast = s.tagErrLast := rfl
@[simp] theorem State.report_drbgOk (r : FltRec) : (s.report r).drbgOk = s.drbgOk := rfl
@[simp] theorem State.report_drbg (r : FltRec) : (s.report r).drbg = s.drbg := rfl
@[simp] theorem State.report_keys (r : FltRec) : (s.report r).keys = s.keys := rfl
@[simp] theorem State.report_window (r : FltRec) : (s.report r).window = s.window := rfl
@[simp] theorem State.report_windows (r : FltRec) : (s.report r).windows = s.windows := rfl
@[simp] theorem State.report_cores (r : FltRec) : (s.report r).cores = s.cores := rfl
@[simp] theorem State.report_towers (r : FltRec) : (s.report r).towers = s.towers := rfl
@[simp] theorem State.report_nbStacks (r : FltRec) : (s.report r).nbStacks = s.nbStacks := rfl
@[simp] theorem State.report_nbus (r : FltRec) : (s.report r).nbus = s.nbus := rfl
@[simp] theorem State.report_regions (r : FltRec) : (s.report r).regions = s.regions := rfl
@[simp] theorem State.report_rings (r : FltRec) : (s.report r).rings = s.rings := rfl
@[simp] theorem State.report_pfQueSel (r : FltRec) : (s.report r).pfQueSel = s.pfQueSel := rfl
@[simp] theorem State.report_pfBadDb (r : FltRec) : (s.report r).pfBadDb = s.pfBadDb := rfl
@[simp] theorem State.report_pools (r : FltRec) : (s.report r).pools = s.pools := rfl
@[simp] theorem State.report_poolErr (r : FltRec) : (s.report r).poolErr = s.poolErr := rfl
@[simp] theorem State.report_turn (r : FltRec) : (s.report r).turn = s.turn := rfl
@[simp] theorem State.report_fab (r : FltRec) : (s.report r).fab = s.fab := rfl
@[simp] theorem State.report_tim (r : FltRec) : (s.report r).tim = s.tim := rfl
@[simp] theorem State.report_pwr (r : FltRec) : (s.report r).pwr = s.pwr := rfl
@[simp] theorem State.report_evc (r : FltRec) : (s.report r).evc = s.evc := rfl
@[simp] theorem State.report_snap (r : FltRec) : (s.report r).snap = s.snap := rfl
@[simp] theorem State.report_lamps (r : FltRec) : (s.report r).lamps = s.lamps := rfl
@[simp] theorem State.report_recals (r : FltRec) : (s.report r).recals = s.recals := rfl
@[simp] theorem State.report_test (r : FltRec) : (s.report r).test = s.test := rfl
@[simp] theorem State.report_view_core (r : FltRec) (c' : Nat) : (s.report r).core c' = s.core c' := rfl
@[simp] theorem State.report_view_part (r : FltRec) (n' : Nat) : (s.report r).part n' = s.part n' := rfl
@[simp] theorem State.report_view_tower (r : FltRec) (n' : Nat) : (s.report r).tower n' = s.tower n' := rfl
@[simp] theorem State.report_view_stack (r : FltRec) (k' : Nat) : (s.report r).stack k' = s.stack k' := rfl
@[simp] theorem State.report_view_nbu (r : FltRec) (i' : Nat) : (s.report r).nbu i' = s.nbu i' := rfl
@[simp] theorem State.report_view_region (r : FltRec) (i' : Nat) : (s.report r).region i' = s.region i' := rfl
@[simp] theorem State.report_view_ring (r : FltRec) (r' : Nat) : (s.report r).ring r' = s.ring r' := rfl
@[simp] theorem State.report_view_pool (r : FltRec) (p' : Nat) : (s.report r).pool p' = s.pool p' := rfl
@[simp] theorem State.report_view_lamp (r : FltRec) (n' : Nat) : (s.report r).lamp n' = s.lamp n' := rfl
@[simp] theorem State.report_view_key (r : FltRec) (k' : Nat) : (s.report r).key k' = s.key k' := rfl
@[simp] theorem State.report_view_port (r : FltRec) (p' : Nat) : (s.report r).port p' = s.port p' := rfl
@[simp] theorem State.report_view_dk36 (r : FltRec)  : (s.report r).dk36 = s.dk36 := rfl
@[simp] theorem State.report_view_hubId (r : FltRec)  : (s.report r).hubId = s.hubId := rfl
@[simp] theorem State.report_view_portCount (r : FltRec)  : (s.report r).portCount = s.portCount := rfl
@[simp] theorem State.report_view_stackRows (r : FltRec)  : (s.report r).stackRows = s.stackRows := rfl
@[simp] theorem State.report_view_groupUp (r : FltRec) (n' g' : Nat) : (s.report r).groupUp n' g' = s.groupUp n' g' := rfl
@[simp] theorem State.report_view_coreUp (r : FltRec) (c' : Nat) : (s.report r).coreUp c' = s.coreUp c' := rfl
@[simp] theorem State.report_view_stackUp (r : FltRec) (k' : Nat) : (s.report r).stackUp k' = s.stackUp k' := rfl
@[simp] theorem State.report_view_partRec (r : FltRec) (n' : Nat) : (s.report r).partRec n' = s.partRec n' := rfl
@[simp] theorem State.report_view_coreOwner (r : FltRec) (c' : Nat) : (s.report r).coreOwner c' = s.coreOwner c' := rfl
@[simp] theorem State.report_view_regionRec (r : FltRec) (i' : Nat) : (s.report r).regionRec i' = s.regionRec i' := rfl
@[simp] theorem State.report_view_poolRec (r : FltRec) (p' : Nat) : (s.report r).poolRec p' = s.poolRec p' := rfl
@[simp] theorem State.report_view_ringOwner (r : FltRec) (r' : Nat) : (s.report r).ringOwner r' = s.ringOwner r' := rfl
@[simp] theorem State.report_view_absRing (r : FltRec) (n' r' : Nat) : (s.report r).absRing n' r' = s.absRing n' r' := rfl
@[simp] theorem State.report_view_pinned (r : FltRec) (c' : Nat) : (s.report r).pinned c' = s.pinned c' := rfl
@[simp] theorem State.report_view_image (r : FltRec) (n' : Nat) : (s.report r).image n' = s.image n' := rfl
@[simp] theorem State.report_view_floorSum (r : FltRec)  : (s.report r).floorSum = s.floorSum := rfl
@[simp] theorem State.report_view_limit (r : FltRec)  : (s.report r).limit = s.limit := rfl
@[simp] theorem State.report_view_stamp (r : FltRec)  : (s.report r).stamp = s.stamp := rfl
@[simp] theorem State.report_view_now (r : FltRec)  : (s.report r).now = s.now := rfl
@[simp] theorem State.report_view_mono (r : FltRec)  : (s.report r).mono = s.mono := rfl
@[simp] theorem State.report_view_powered (r : FltRec)  : (s.report r).powered = s.powered := rfl
@[simp] theorem State.report_view_tadpole (r : FltRec)  : (s.report r).tadpole = s.tadpole := rfl
@[simp] theorem State.report_view_dmaOk (r : FltRec) (n' : Nat) : (s.report r).dmaOk n' = s.dmaOk n' := rfl

@[simp] theorem State.setCore_same (c : Nat) (x : Core) : (s.setCore c x).core c = x := by simp [State.setCore, State.core]
theorem State.setCore_get (c : Nat) (x : Core) (c' : Nat) : (s.setCore c x).core c' = if c' = c then x else s.core c' := by simp [State.setCore, State.core, AMap.get_put]
theorem State.setCore_other (c : Nat) (x : Core) {c' : Nat} (h : c' ≠ c) : (s.setCore c x).core c' = s.core c' := by simp [State.setCore_get, h]
@[simp] theorem State.setPart_same (n : Nat) (x : Part) : (s.setPart n x).part n = x := by simp [State.setPart, State.part]
theorem State.setPart_get (n : Nat) (x : Part) (n' : Nat) : (s.setPart n x).part n' = if n' = n then x else s.part n' := by simp [State.setPart, State.part, AMap.get_put]
theorem State.setPart_other (n : Nat) (x : Part) {n' : Nat} (h : n' ≠ n) : (s.setPart n x).part n' = s.part n' := by simp [State.setPart_get, h]
@[simp] theorem State.setTower_same (n : Nat) (x : Tower) : (s.setTower n x).tower n = x := by simp [State.setTower, State.tower]
theorem State.setTower_get (n : Nat) (x : Tower) (n' : Nat) : (s.setTower n x).tower n' = if n' = n then x else s.tower n' := by simp [State.setTower, State.tower, AMap.get_put]
theorem State.setTower_other (n : Nat) (x : Tower) {n' : Nat} (h : n' ≠ n) : (s.setTower n x).tower n' = s.tower n' := by simp [State.setTower_get, h]
@[simp] theorem State.setStack_same (k : Nat) (x : Stack) : (s.setStack k x).stack k = x := by simp [State.setStack, State.stack]
theorem State.setStack_get (k : Nat) (x : Stack) (k' : Nat) : (s.setStack k x).stack k' = if k' = k then x else s.stack k' := by simp [State.setStack, State.stack, AMap.get_put]
theorem State.setStack_other (k : Nat) (x : Stack) {k' : Nat} (h : k' ≠ k) : (s.setStack k x).stack k' = s.stack k' := by simp [State.setStack_get, h]
@[simp] theorem State.setNbu_same (i : Nat) (x : Nbu) : (s.setNbu i x).nbu i = x := by simp [State.setNbu, State.nbu]
theorem State.setNbu_get (i : Nat) (x : Nbu) (i' : Nat) : (s.setNbu i x).nbu i' = if i' = i then x else s.nbu i' := by simp [State.setNbu, State.nbu, AMap.get_put]
theorem State.setNbu_other (i : Nat) (x : Nbu) {i' : Nat} (h : i' ≠ i) : (s.setNbu i x).nbu i' = s.nbu i' := by simp [State.setNbu_get, h]
@[simp] theorem State.setRegion_same (i : Nat) (x : Region) : (s.setRegion i x).region i = x := by simp [State.setRegion, State.region]
theorem State.setRegion_get (i : Nat) (x : Region) (i' : Nat) : (s.setRegion i x).region i' = if i' = i then x else s.region i' := by simp [State.setRegion, State.region, AMap.get_put]
theorem State.setRegion_other (i : Nat) (x : Region) {i' : Nat} (h : i' ≠ i) : (s.setRegion i x).region i' = s.region i' := by simp [State.setRegion_get, h]
@[simp] theorem State.setRing_same (r : Nat) (x : Ring) : (s.setRing r x).ring r = x := by simp [State.setRing, State.ring]
theorem State.setRing_get (r : Nat) (x : Ring) (r' : Nat) : (s.setRing r x).ring r' = if r' = r then x else s.ring r' := by simp [State.setRing, State.ring, AMap.get_put]
theorem State.setRing_other (r : Nat) (x : Ring) {r' : Nat} (h : r' ≠ r) : (s.setRing r x).ring r' = s.ring r' := by simp [State.setRing_get, h]
@[simp] theorem State.setPool_same (p : Nat) (x : Pool) : (s.setPool p x).pool p = x := by simp [State.setPool, State.pool]
theorem State.setPool_get (p : Nat) (x : Pool) (p' : Nat) : (s.setPool p x).pool p' = if p' = p then x else s.pool p' := by simp [State.setPool, State.pool, AMap.get_put]
theorem State.setPool_other (p : Nat) (x : Pool) {p' : Nat} (h : p' ≠ p) : (s.setPool p x).pool p' = s.pool p' := by simp [State.setPool_get, h]
@[simp] theorem State.setLamp_same (n : Nat) (x : Lamp) : (s.setLamp n x).lamp n = x := by simp [State.setLamp, State.lamp]
theorem State.setLamp_get (n : Nat) (x : Lamp) (n' : Nat) : (s.setLamp n x).lamp n' = if n' = n then x else s.lamp n' := by simp [State.setLamp, State.lamp, AMap.get_put]
theorem State.setLamp_other (n : Nat) (x : Lamp) {n' : Nat} (h : n' ≠ n) : (s.setLamp n x).lamp n' = s.lamp n' := by simp [State.setLamp_get, h]
@[simp] theorem State.setKey_same (k : Nat) (x : KeySlot) : (s.setKey k x).key k = x := by simp [State.setKey, State.key]
theorem State.setKey_get (k : Nat) (x : KeySlot) (k' : Nat) : (s.setKey k x).key k' = if k' = k then x else s.key k' := by simp [State.setKey, State.key, AMap.get_put]
theorem State.setKey_other (k : Nat) (x : KeySlot) {k' : Nat} (h : k' ≠ k) : (s.setKey k x).key k' = s.key k' := by simp [State.setKey_get, h]
@[simp] theorem State.setPort_same (p : Nat) (x : Port) : (s.setPort p x).port p = x := by simp [State.setPort, State.port]
theorem State.setPort_get (p : Nat) (x : Port) (p' : Nat) : (s.setPort p x).port p' = if p' = p then x else s.port p' := by simp [State.setPort, State.port, AMap.get_put]
theorem State.setPort_other (p : Nat) (x : Port) {p' : Nat} (h : p' ≠ p) : (s.setPort p x).port p' = s.port p' := by simp [State.setPort_get, h]

@[simp] theorem State.at_clock (t : Nat) : (s.at t).clock = max s.clock t := rfl
@[simp] theorem State.drawn_free : s.drawn.free = s.free + 1 := rfl
@[simp] theorem State.modCore_eq (c : Nat) (f : Core → Core) : s.modCore c f = s.setCore c (f (s.core c)) := rfl
@[simp] theorem State.modPart_eq (n : Nat) (f : Part → Part) : s.modPart n f = s.setPart n (f (s.part n)) := rfl
@[simp] theorem State.modTower_eq (n : Nat) (f : Tower → Tower) : s.modTower n f = s.setTower n (f (s.tower n)) := rfl
@[simp] theorem State.modStack_eq (k : Nat) (f : Stack → Stack) : s.modStack k f = s.setStack k (f (s.stack k)) := rfl
@[simp] theorem State.modNbu_eq (i : Nat) (f : Nbu → Nbu) : s.modNbu i f = s.setNbu i (f (s.nbu i)) := rfl
@[simp] theorem State.modRegion_eq (i : Nat) (f : Region → Region) : s.modRegion i f = s.setRegion i (f (s.region i)) := rfl
@[simp] theorem State.modRing_eq (r : Nat) (f : Ring → Ring) : s.modRing r f = s.setRing r (f (s.ring r)) := rfl
@[simp] theorem State.modPool_eq (p : Nat) (f : Pool → Pool) : s.modPool p f = s.setPool p (f (s.pool p)) := rfl
@[simp] theorem State.modPort_eq (p : Nat) (f : Port → Port) : s.modPort p f = s.setPort p (f (s.port p)) := rfl
@[simp] theorem State.modRun_eq (c : Nat) (f : CoreRun → CoreRun) : s.modRun c f = s.setCore c { s.core c with run := f (s.core c).run } := rfl
@[simp] theorem State.modArr_eq (c : Nat) (f : Arr → Arr) :
    s.modArr c f = s.setCore c { s.core c with run := { (s.core c).run with arr := f (s.core c).run.arr } } := rfl
@[simp] theorem State.modStr_eq (c : Nat) (f : Str → Str) :
    s.modStr c f = s.setCore c { s.core c with run := { (s.core c).run with str := f (s.core c).run.str } } := rfl
@[simp] theorem State.modSfu_eq (c : Nat) (f : SfuRun → SfuRun) :
    s.modSfu c f = s.setCore c { s.core c with run := { (s.core c).run with sfu := f (s.core c).run.sfu } } := rfl

/-- Records reported one after another wait in that order, all with the stamp of now. -/
theorem State.reportAll_eq (rs : List FltRec) :
    s.reportAll rs = { s with flt := { s.flt with waiting := s.flt.waiting ++ rs.map (fun r => { r with stamp := s.stamp }) } } := by
  induction rs generalizing s with
  | nil => simp [State.reportAll]
  | cons r rs ih =>
    exact (ih (s.report r)).trans (congrArg (fun l => { s with flt := { s.flt with waiting := l } })
      (List.append_assoc s.flt.waiting [{ r with stamp := s.stamp }] _))

/-- A core's event changes that core's counters and, on an overflow that asks for it, what waits for the log. -/
theorem State.countCore_eq (c src n : Nat) :
    ∃ (m : AMap Counter) (rs : List FltRec), s.countCore c src n =
      { s with cores := AMap.put {} s.cores c { s.core c with evc := m },
               flt := { s.flt with waiting := s.flt.waiting ++ rs } } :=
  ⟨(countAll 0 c (s.coreOwner c) src n none 8 (s.core c).evc).1,
   (countAll 0 c (s.coreOwner c) src n none 8 (s.core c).evc).2.map (fun r => { r with stamp := s.stamp }),
   by unfold State.countCore; dsimp only; rw [State.reportAll_eq]; rfl⟩

/-- A tower's event changes that tower's counters and, on an overflow that asks for it, what waits for the log. -/
theorem State.countTower_eq (w src n : Nat) (tag : Option Nat) :
    ∃ (m : AMap Counter) (rs : List FltRec), s.countTower w src n tag =
      { s with towers := AMap.put {} s.towers w { s.tower w with evc := m },
               flt := { s.flt with waiting := s.flt.waiting ++ rs } } :=
  ⟨(countAll 1 w none src n tag 16 (s.tower w).evc).1,
   (countAll 1 w none src n tag 16 (s.tower w).evc).2.map (fun r => { r with stamp := s.stamp }),
   by unfold State.countTower; dsimp only; rw [State.reportAll_eq]; rfl⟩

/-- A hub event changes the hub's counters and, on an overflow that asks for it, what waits for the log. -/
theorem State.countHub_eq (src n : Nat) (tag : Option Nat) :
    ∃ (m : AMap Counter) (rs : List FltRec), s.countHub src n tag =
      { s with evc := m, flt := { s.flt with waiting := s.flt.waiting ++ rs } } :=
  ⟨(countAll 2 0 none src n tag 64 s.evc).1,
   (countAll 2 0 none src n tag 64 s.evc).2.map (fun r => { r with stamp := s.stamp }),
   by unfold State.countHub; dsimp only; rw [State.reportAll_eq]; rfl⟩

end Sys2Proof.Machine
end

