-- ==== Sys2Proof/Laws/Issue.lean ====
section
/-!
SUPPORT. What an issue does before the instruction's own effect, and what a core's event count leaves as it is.
-/
namespace Sys2Proof.Machine

/-- Nothing changed but the clock. -/
theorem OnlyCore.refl (s : State) (c t : Nat) : OnlyCore s (s.at t) c :=
  ⟨fun _ _ => rfl, ⟨[], by simp [State.at]⟩, rfl⟩

theorem FltLog.grew_trans {a b c : FltLog} (h : a.grew b) (g : b.grew c) : a.grew c := by
  obtain ⟨l, rfl⟩ := h
  obtain ⟨m, rfl⟩ := g
  exact ⟨l ++ m, by simp⟩

theorem OnlyCore.trans {s t u : State} {c : Nat} (h : OnlyCore s t c) (g : OnlyCore t u c) : OnlyCore s u c := by
  obtain ⟨h1, h2, h3⟩ := h
  obtain ⟨g1, g2, g3⟩ := g
  refine ⟨fun d hd => (g1 d hd).trans (h1 d hd), FltLog.grew_trans h2 g2, ?_⟩
  rw [← h3]
  conv_rhs => rw [← g3]

theorem OnlyCore.setCore (s : State) (c : Nat) (x : Core) : OnlyCore s (s.setCore c x) c :=
  ⟨fun _ h => State.setCore_other s c x h, ⟨[], by simp⟩, rfl⟩

theorem OnlyCore.countCore (s : State) (c a n : Nat) : OnlyCore s (s.countCore c a n) c := by
  obtain ⟨m, rs, h⟩ := State.countCore_eq s c a n
  rw [h]
  exact ⟨fun d hd => AMap.get_put_other _ _ _ hd, ⟨rs, rfl⟩, rfl⟩

/-- What an event count leaves of a core: all but its counters. -/
theorem State.countCore_core (s : State) (c a n : Nat) :
    ∃ m, (s.countCore c a n).core c = { s.core c with evc := m } := by
  obtain ⟨m, rs, h⟩ := State.countCore_eq s c a n
  rw [h]
  exact ⟨m, AMap.get_put_same _ _ _ _⟩

@[simp] theorem State.countCore_quiet (s : State) (c a n : Nat) :
    ((s.countCore c a n).core c).quiet = (s.core c).quiet := by
  obtain ⟨m, h⟩ := s.countCore_core c a n
  rw [h]; rfl

@[simp] theorem State.countCore_clock (s : State) (c a n : Nat) : (s.countCore c a n).clock = s.clock := by
  obtain ⟨m, rs, h⟩ := State.countCore_eq s c a n
  rw [h]

@[simp] theorem State.countCore_mode (s : State) (c a n : Nat) : ((s.countCore c a n).core c).mode = (s.core c).mode := by
  obtain ⟨m, h⟩ := s.countCore_core c a n
  rw [h]

@[simp] theorem State.countCore_run (s : State) (c a n : Nat) : ((s.countCore c a n).core c).run = (s.core c).run := by
  obtain ⟨m, h⟩ := s.countCore_core c a n
  rw [h]

@[simp] theorem State.countCore_shownPc (s : State) (c a n : Nat) :
    ((s.countCore c a n).core c).shownPc = (s.core c).shownPc := by
  obtain ⟨m, h⟩ := s.countCore_core c a n
  rw [h]

/-- `t` follows `s` by changes of core `c` that leave `Core.quiet` and the PC as they are. -/
structure Settled (s t : State) (c : Nat) : Prop where
  only : OnlyCore s t c
  clock : t.clock = s.clock
  quiet : (t.core c).quiet = (s.core c).quiet
  pc : (t.core c).run.pc = (s.core c).run.pc

theorem Settled.trans {s t u : State} {c : Nat} (h : Settled s t c) (g : Settled t u c) : Settled s u c :=
  ⟨h.only.trans g.only, g.clock.trans h.clock, g.quiet.trans h.quiet, g.pc.trans h.pc⟩

theorem Settled.countCore (s : State) (c a n : Nat) : Settled s (s.countCore c a n) c :=
  ⟨OnlyCore.countCore s c a n, by simp, by simp, by simp⟩

theorem Settled.setCore (s : State) (c : Nat) (x : Core) (h : x.quiet = (s.core c).quiet) (h' : x.run.pc = (s.core c).run.pc) :
    Settled s (s.setCore c x) c :=
  ⟨OnlyCore.setCore s c x, rfl, by simpa using h, by simpa using h'⟩

theorem Settled.modCore (s : State) (c : Nat) (f : Core → Core) (h : (f (s.core c)).quiet = (s.core c).quiet)
    (h' : (f (s.core c)).run.pc = (s.core c).run.pc) : Settled s (s.modCore c f) c := Settled.setCore s c _ h h'

theorem Settled.refl (s : State) (c : Nat) : Settled s s c :=
  ⟨⟨fun _ _ => rfl, ⟨[], by simp⟩, rfl⟩, rfl, rfl, rfl⟩

theorem Settled.endWait (s : State) (c : Nat) : Settled s (s.endWait c) c := by
  unfold State.endWait
  split
  · exact (Settled.modCore s c _ rfl rfl).trans (Settled.countCore _ c _ _)
  · exact Settled.modCore s c _ rfl rfl

theorem State.endWait_mode (s : State) (c : Nat) : ((s.endWait c).core c).mode = .running := by
  unfold State.endWait
  split <;> simp

/-- What every issued instruction does leaves `Core.quiet` and the PC, and the core runs. -/
theorem State.counted_settled (s : State) (i : Issue) (h : (s.core i.c).issuing = true) :
    Settled s (s.counted i) i.c ∧ ((s.counted i).core i.c).mode = .running ∧
      ((s.counted i).core i.c).shownPc = (s.core i.c).run.pc := by
  have key : ∀ t : State, (t.core i.c).mode = .running → Settled s t i.c →
      let u := (t.modCore i.c (fun k =>
        { k with shownPc := k.run.pc, budgetIssues := k.budgetIssues - 1,
                 run := { k.run with prev := if (s.core i.c).pairs i then none else some k.word } })).countCore i.c 4 1
      let v := if (s.core i.c).pairs i then u.countCore i.c 5 1 else u
      Settled s v i.c ∧ (v.core i.c).mode = .running ∧ (v.core i.c).shownPc = (s.core i.c).run.pc := by
    intro t ht hs u v
    have hu : Settled s u i.c := (hs.trans (Settled.modCore t i.c _ rfl rfl)).trans (Settled.countCore _ _ _ _)
    have hm : (u.core i.c).mode = .running := by simp [u, ht]
    have hp : (u.core i.c).shownPc = (s.core i.c).run.pc := by simp [u, hs.pc]
    unfold v
    split
    · exact ⟨hu.trans (Settled.countCore _ _ _ _), by simp [hm], by simp [hp]⟩
    · exact ⟨hu, hm, hp⟩
  unfold State.counted
  by_cases hw : (s.core i.c).mode = .waiting
  · simp only [hw, if_true]
    exact key _ (State.endWait_mode s i.c) (Settled.endWait s i.c)
  · simp only [hw, if_false]
    refine key s ?_ (Settled.refl s i.c)
    unfold Core.issuing at h
    split at h
    · assumption
    · contradiction
    · cases h

/-- The word at the PC of a row that is spelt there. -/
theorem Spelt.word {s : State} {x : Instr} {i : Issue} {cls op : Nat} (h : Spelt s x) (hx : rowOp x = some (i, cls, op)) :
    (s.core i.c).word = i.word cls op := by
  obtain ⟨j, c, o, h1, h2⟩ := h
  rw [hx] at h1
  injection h1 with h1; injection h1 with h1 h3; injection h3 with h3 h4
  subst h1 h3 h4
  exact h2

/-- A core that issues has not just been stopped by another. -/
theorem Core.issuing_not_halting {k : Core} (h : k.issuing = true) (now : Nat) : k.halting now = false := by
  unfold Core.issuing at h
  split at h
  · rename_i hm; simp [Core.halting, hm]
  · rename_i hm _; simp [Core.halting, hm]
  · cases h

/-- The fields of a word (R229, R237). -/
theorem word_class (i : Issue) (cls op : Nat) (h : cls < 16) (h' : op < 64) :
    bits (i.word cls op).toNat 63 60 = cls ∧ bits (i.word cls op).toNat 59 54 = op := by
  have e : (i.word cls op).toNat = cls * 2 ^ 60 + op * 2 ^ 54 + i.rd.toNat * 2 ^ 49 + i.rs1.toNat * 2 ^ 44 + i.rs2.toNat * 2 ^ 39
      + i.md.toNat * 2 ^ 32 + i.imm.toNat := by
    simp only [Issue.word, BitVec.toNat_append, BitVec.toNat_ofNat]
    have := i.rd.isLt; have := i.rs1.isLt; have := i.rs2.isLt; have := i.md.isLt; have := i.imm.isLt
    repeat rw [← Nat.shiftLeft_add_eq_or_of_lt (by omega)]
    simp only [Nat.shiftLeft_eq]
    omega
  have := i.rd.isLt; have := i.rs1.isLt; have := i.rs2.isLt; have := i.md.isLt; have := i.imm.isLt
  unfold bits
  rw [e]
  constructor <;> omega

/-- A word is one of an operation where its CLASS has that OP. -/
theorem definedWord_word (i : Issue) (cls op : Nat) (h : definedOp cls op = true) : definedWord (i.word cls op) = true := by
  have hb : cls < 16 ∧ op < 64 := by
    unfold definedOp at h
    split at h <;> simp at h <;> omega
  obtain ⟨h1, h2⟩ := word_class i cls op hb.1 hb.2
  rw [definedWord, h1, h2, h]

/-- An instruction that nothing stops: its own effect is applied to a state in which only what every issue changes has
changed and the PC is the next word's. -/
theorem State.issue_runs (s : State) (i : Issue) (cls op : Nat) (legal : Bool) (check : Core → Option (Nat × Nat × W64))
    (ready : Core → Bool) (body : State → State) (h : Issues s i) (hw : (s.core i.c).word = i.word cls op)
    (hd : definedOp cls op = true) (hl : legal = true) (hc : check (s.core i.c) = none) (hr : ready (s.core i.c) = true) :
    ∃ u, s.issue i cls op legal check ready body = body u ∧ Issued s u i ∧ (u.core i.c).quiet = (s.core i.c).quiet ∧ NextPc s u i := by
  obtain ⟨h1, h2, h3, h4⟩ := h
  have h5 : definedWord (s.core i.c).word = true := hw ▸ definedWord_word i cls op hd
  have h7 : (s.core i.c).halting (s.at i.time).clock = false := Core.issuing_not_halting h1 _
  have key : ∀ t : State, t.clock = max s.clock i.time → OnlyCore s t i.c → (t.core i.c).issuing = true →
      (t.core i.c).quiet = (s.core i.c).quiet → (t.core i.c).run.pc = (s.core i.c).run.pc →
      let u := (t.counted i).modRun i.c (fun x => { x with pc := x.pc + 1 })
      Issued s u i ∧ (u.core i.c).quiet = (s.core i.c).quiet ∧ NextPc s u i := by
    intro t hk ho hi hq hp u
    obtain ⟨hs, hm, hsp⟩ := t.counted_settled i hi
    refine ⟨⟨(ho.trans hs.only).trans (OnlyCore.setCore _ _ _), ?_, ?_, ?_⟩, ?_, ?_⟩
    · simp [u, hs.clock, hk]
    · simp [u, hm]
    · simp [u, hsp, hp]
    · refine Eq.trans ?_ (hs.quiet.trans hq)
      simp [u, Core.quiet]
    · simp [u, NextPc, hs.pc, hp]
  by_cases hcode : i.code = .corrected
  · have hs := (Settled.countCore (s.at i.time) i.c 0x12 1)
    refine ⟨_, ?_, key ((s.at i.time).countCore i.c 0x12 1) (by simp) ((OnlyCore.refl s i.c i.time).trans hs.only) ?_ ?_ ?_⟩
    · unfold State.issue
      have e : ((s.at i.time).core i.c) = s.core i.c := rfl
      have e2 : (s.at i.time).pinned i.c = s.pinned i.c := rfl
      have e3 : (!(s.core i.c).issuing && !false || (s.pinned i.c && decide ((s.core i.c).budgetIssues = 0))) = false := by
        cases hp : s.pinned i.c <;> simp [h1, hp] at * ; omega
      simp only [e, e2, e3, h3, h5, h7, hcode, hl, hc, hr]
      simp [hw]
    · unfold Core.issuing at *
      simpa using h1
    · simp
    · simp
  · refine ⟨_, ?_, key (s.at i.time) rfl (OnlyCore.refl s i.c i.time) h1 rfl rfl⟩
    unfold State.issue
    have e : ((s.at i.time).core i.c) = s.core i.c := rfl
    have e2 : (s.at i.time).pinned i.c = s.pinned i.c := rfl
    have e3 : (!(s.core i.c).issuing && !false || (s.pinned i.c && decide ((s.core i.c).budgetIssues = 0))) = false := by
      cases hp : s.pinned i.c <;> simp [h1, hp] at * ; omega
    simp only [e, e2, e3, h3, h5, h7, hcode, h4, hl, hc, hr]
    simp [hw]

/-! ## What an instruction writes -/

theorem Core.reg_of_quiet {k k' : Core} (h : k.quiet = k'.quiet) (r : Nat) : k.reg r = k'.reg r := by
  have : k.run.g = k'.run.g := congrArg (fun x => x.run.g) h
  simp [Core.reg, this]

theorem Core.vreg_of_quiet {k k' : Core} (h : k.quiet = k'.quiet) (r : Nat) : k.vreg r = k'.vreg r := by
  have : k.run.v = k'.run.v := congrArg (fun x => x.run.v) h
  simp [Core.vreg, this]

theorem Core.near_of_quiet {k k' : Core} (h : k.quiet = k'.quiet) : k.near = k'.near := congrArg (fun x => x.near) h

/-- A general register read after a write: g0 reads 0, RD what was written, every other register as before. -/
theorem State.setReg_reg (s : State) (c d r : Nat) (v : W64) :
    ((s.setReg c d v).core c).reg r = if r = 0 then 0 else if r = d then v else (s.core c).reg r := by
  unfold State.setReg Core.reg
  by_cases hr : r = 0
  · simp [hr]
  · by_cases hd : d = 0
    · subst hd; simp [hr]
    · simp [hr, hd, AMap.get_put]

theorem OnlyCore.same (s : State) (c : Nat) : OnlyCore s s c := ⟨fun _ _ => rfl, ⟨[], by simp⟩, rfl⟩

theorem State.setReg_only (s : State) (c d : Nat) (v : W64) : OnlyCore s (s.setReg c d v) c := by
  unfold State.setReg
  split
  · exact OnlyCore.same s c
  · exact OnlyCore.setCore _ _ _

/-- After an event count of core `c`, what was issued still stands issued. -/
theorem Issued.then {s t u : State} {i : Issue} (h : Issued s t i) (ho : OnlyCore t u i.c) (hk : u.clock = t.clock)
    (hm : (u.core i.c).mode = (t.core i.c).mode) (hp : (u.core i.c).shownPc = (t.core i.c).shownPc) : Issued s u i :=
  ⟨h.1.trans ho, hk.trans h.2.1, hm.trans h.2.2.1, hp.trans h.2.2.2⟩

/-- An issue that writes a value to RD. -/
theorem RegResult.setReg {s u : State} {i : Issue} (h : Issued s u i) (hq : (u.core i.c).quiet = (s.core i.c).quiet) (v : W64) :
    RegResult s (u.setReg i.c i.d v) i v := by
  refine ⟨h.then (State.setReg_only _ _ _ _) ?_ ?_ ?_, ?_, ?_⟩
  · unfold State.setReg; split <;> simp
  · unfold State.setReg; split <;> simp
  · unfold State.setReg; split <;> simp
  · intro r; rw [State.setReg_reg, Core.reg_of_quiet hq]
  · rw [← hq]; unfold State.setReg; split
    · rfl
    · simp [Core.quiet]

@[simp] theorem State.setReg_pc (s : State) (c d : Nat) (v : W64) : ((s.setReg c d v).core c).run.pc = (s.core c).run.pc := by
  unfold State.setReg; split <;> simp

/-- A register instruction that nothing stops. -/
theorem State.issue_reg (s : State) (i : Issue) (cls op : Nat) (legal : Bool) (check : Core → Option (Nat × Nat × W64))
    (h : Issues s i) (hw : (s.core i.c).word = i.word cls op) (hd : definedOp cls op = true) (hl : legal = true) (hc : check (s.core i.c) = none) (f : Core → W64) (hf : ∀ k k', k.quiet = k'.quiet → f k = f k') :
    RegResult s (s.issue i cls op legal check always (fun t => t.setReg i.c i.d (f (t.core i.c)))) i (f (s.core i.c)) ∧
      NextPc s (s.issue i cls op legal check always (fun t => t.setReg i.c i.d (f (t.core i.c)))) i := by
  obtain ⟨u, e, hi, hq, hp⟩ := s.issue_runs i cls op legal check always (fun t => t.setReg i.c i.d (f (t.core i.c))) h hw hd hl hc rfl
  rw [e, hf _ _ hq]
  exact ⟨RegResult.setReg hi hq _, by simpa [NextPc] using hp⟩

end Sys2Proof.Machine
end

