-- ==== Sys2Proof/Laws/Numbers.lean ====
section
/-!
SUPPORT. Elements placed side by side are read back.
-/
namespace Sys2Proof.Machine

/-- An element read from elements placed side by side. -/
theorem elem_packElems (w : Nat) (l : List Nat) (e : Nat) : elem (packElems w l) w e = l.getD e 0 % 2 ^ w := by
  induction l generalizing e with
  | nil => simp [packElems, elem]
  | cons x l ih =>
    cases e with
    | zero => simp [packElems, elem]
    | succ e =>
      have h : (x % 2 ^ w + 2 ^ w * packElems w l) / 2 ^ (w * (e + 1)) = packElems w l / 2 ^ (w * e) := by
        rw [Nat.mul_succ, Nat.pow_add, Nat.mul_comm (2 ^ (w * e)), ← Nat.div_div_eq_div_mul,
          Nat.add_mul_div_left _ _ (Nat.two_pow_pos w), Nat.div_eq_of_lt (Nat.mod_lt _ (Nat.two_pow_pos w)), Nat.zero_add]
      simp only [packElems, elem, h, List.getD_cons_succ]
      exact ih e

/-- A register's width does not cut the elements that lie in it. -/
theorem elem_mod (x w e n : Nat) (h : w * e + w ≤ n) : elem (x % 2 ^ n) w e = elem x w e := by
  obtain ⟨d, rfl⟩ : ∃ d, n = w * e + w + d := ⟨n - (w * e + w), by omega⟩
  unfold elem
  rw [Nat.add_assoc, Nat.pow_add 2 (w * e), Nat.mod_mul_right_div_self, Nat.pow_add, Nat.mod_mul_right_mod]

/-- An element of a register that was formed from a list. -/
theorem elem_register (w : Nat) (l : List Nat) (e : Nat) (h : w * e + w ≤ 1024) :
    elem (BitVec.ofNat 1024 (packElems w l)).toNat w e = l.getD e 0 % 2 ^ w := by
  rw [BitVec.toNat_ofNat, elem_mod _ _ _ _ h, elem_packElems]

theorem elem_lt (x w e : Nat) : elem x w e < 2 ^ w := Nat.mod_lt _ (Nat.two_pow_pos w)

theorem elems_getD (x w n e : Nat) (h : e < n) : (elems x w n).getD e 0 = elem x w e := by
  simp [elems, List.getD, h]

end Sys2Proof.Machine
end

