-- ==== Sys2Proof/Tests/Slice0.lean ====
section
/-!
SUPPORT. The model's own tests: ill-formed commands that the checks refuse, worked examples and tables of the spec on single
steps, and for the hypotheses of every statement a state and operands that meet them.
-/
namespace Sys2Proof.Tests

open Sys2Proof Sys2Proof.Machine

/-! ## Well-formed commands -/

def noCmd : MbxCmd := { tag := 1, args := [], commit := 1 }

theorem test_wf_args : (Instr.mbxNop 0 { noCmd with args := List.replicate 9 0 }).wellFormed = false := by decide
theorem test_wf_args_ok : (Instr.mbxNop 0 { noCmd with args := List.replicate 8 0 }).wellFormed = true := by decide
theorem test_wf_stage_any : (Instr.stagingWrite 0 3 [0, 0, 0]).wellFormed = true := by decide
theorem test_wf_stage_empty : (Instr.stagingWrite 0 4 []).wellFormed = false := by decide
theorem test_wf_nb_empty : (Instr.nbRequest 0 { src := .core 0 0, region := 0, offset := 0, write := some [], count := 0 }).wellFormed = false := by
  decide
theorem test_wf_nb_none : (Instr.nbRequest 0 { src := .core 0 0, region := 0, offset := 0, write := none, count := 0 }).wellFormed = false := by
  decide
theorem test_wf_doorbell : (Instr.launchDoorbell 0 .pf 128 0).wellFormed = false := by decide
theorem test_wf_wires : (Instr.meshTransfer 0 0 .north [] 0).wellFormed = false := by decide
theorem test_wf_register : (Instr.registerWrite 0 .pf 0x2 0).wellFormed = false := by decide
theorem test_wf_page : (Instr.pageWindowAccess 0 0 0x4001 none).wellFormed = false := by decide

/-! ## Small states -/

/-- A state in which core 0 is `k`. -/
def on (k : Core) : State := { cores := [(0, k)] }

/-- Core 0 runs at the start of a program of 8 words. -/
def run0 : CoreRun := { words := 8 }
def core0 : Core := { mode := .running, run := run0 }
def s0 : State := on core0
def i0 : Issue := { time := 5, core := 0 }

/-- Core 0 runs with these registers. -/
def regs (g : AMap W64) : Core := { core0 with run := { run0 with g := g } }
def withRegs (g : AMap W64) : State := on (regs g)

/-- A DK48 with nothing faulty, test access fused. -/
def dk48 : FuseMap :=
  { variant := .dk48, unitId := 0x1234, faulty := [], repairs := [], policy := 0, tmxLevel := 1, keyDigest := none,
    sensorsMapped := [], tripMapped := [] }

/-- What holds of the next state. -/
def after (o : Result) (p : State → Bool) : Bool :=
  match o with
  | .next t => p t
  | _ => false

/-- Core 0 is `k`, and the word at its PC is the row's. -/
def coded (k : Core) (i : Issue) (cls op : Nat) : State := on { k with code := [(k.run.pc, i.word cls op)] }

/-- What every statement about an instruction's row asks: nothing stops it, and the word at the PC spells it. -/
def Ready (s : State) (x : Instr) (i : Issue) : Prop := Issues s i ∧ Spelt s x

theorem ready (k : Core) (x : Instr) (i : Issue) (cls op : Nat) (h : rowOp x = some (i, cls, op)) (hc : i.core = 0)
    (h2 : i.code = .clean) (hk : k.mode = .running) (hp : k.run.pc = 0) (hb : k.run.base = 0) (hn : k.run.words = 8) :
    Ready (coded k i cls op) x i := by
  have hc : i.c = 0 := by rw [Issue.c, hc]; rfl
  refine ⟨⟨?_, ?_, ?_, by rw [h2]; decide⟩, i, cls, op, h, ?_⟩ <;> rw [hc]
  · show Core.issuing k = true
    unfold Core.issuing
    rw [hk]
  · intro h; exact nomatch (show false = true from h)
  · show (decide (k.run.base ≤ k.run.pc) && decide (k.run.pc < k.run.base + k.run.words)) = true
    rw [hp, hb, hn]; rfl
  · show AMap.get 0 [(k.run.pc, i.word cls op)] k.run.pc = i.word cls op
    rw [hp]; rfl

/-- The words of the rows: each has the CLASS and OP that `rowOp` names, in bits [63:60] and [59:54] (R237, R239). -/
theorem test_words :
    (Issue.word { i0 with rd := 3, rs1 := 1, rs2 := 2 } 0 0).toNat = 3 * 2 ^ 49 + 1 * 2 ^ 44 + 2 * 2 ^ 39 ∧
    (Issue.word { i0 with md := 0x7F, imm := 0xFFFFFFFF } 9 3).toNat = 9 * 2 ^ 60 + 3 * 2 ^ 54 + 2 ^ 39 - 1 := by decide

/-! ## Core instructions (O1 to O9) -/

/-- ScalarArithmetic: a divisor of 1, a shift by 63. -/
theorem wit_scalar :
    (let i : Issue := { i0 with rd := 3, rs1 := 1, rs2 := 2 }
     let s := coded (regs [(2, 1)]) i 0 0xE
     Ready s (.divu i) i ∧ i.md = 0 ∧ i.imm = 0 ∧ (s.core i.c).reg i.rs2.toNat ≠ 0) ∧
    (let i : Issue := { i0 with rd := 31, imm := 63 }
     Ready (coded core0 i 0 0x26) (.srai i) i ∧ Ready (coded core0 i 0 0x28) (.movhi i) i ∧ i.rs2 = 0 ∧ i.md = 0 ∧
       i.imm.toNat < 64 ∧ i.rs1 = 0) :=
  ⟨⟨ready _ _ _ _ _ rfl rfl rfl rfl rfl rfl rfl, rfl, rfl, by decide⟩, ready _ _ _ _ _ rfl rfl rfl rfl rfl rfl rfl,
   ready _ _ _ _ _ rfl rfl rfl rfl rfl rfl rfl, rfl, rfl, by decide, rfl⟩

theorem wit_branches : let i : Issue := { i0 with imm := 0xFFFFFFFF }
    Ready (coded core0 i 1 0) (.beq i) i ∧ Ready (coded core0 i 1 8) (.jal i) i ∧ Ready (coded core0 i 1 0xA) (.loop i) i ∧
      i.md = 0 ∧ i.rd = 0 ∧ i.rs1 = 0 ∧ i.rs2 = 0 :=
  ⟨ready _ _ _ _ _ rfl rfl rfl rfl rfl rfl rfl, ready _ _ _ _ _ rfl rfl rfl rfl rfl rfl rfl,
   ready _ _ _ _ _ rfl rfl rfl rfl rfl rfl rfl, rfl, rfl, rfl, rfl⟩

/-- The last byte, the last aligned word and vector below the context slots. -/
theorem wit_loads : let a := fun (s : State) (i : Issue) => ((s.core i.c).reg i.rs1.toNat + i.imm.signExtend 64).toNat
    (let i : Issue := { i0 with imm := 0x5BFFF }
     let s := coded core0 i 2 0
     Ready s (.ld8u i) i ∧ i.rs2 = 0 ∧ i.md = 0 ∧ i.data ≠ .uncorrectable ∧ a s i < 0x5C000) ∧
    (let i : Issue := { i0 with imm := 0x5BFF8 }
     let s := coded core0 i 2 3
     Ready s (.ld64 i) i ∧ a s i % 8 = 0 ∧ a s i % 4 = 0 ∧ a s i % 2 = 0 ∧ a s i < 0x5C000 ∧ (s.core i.c).sfuFree [i.rd.toNat] = true) ∧
    (let i : Issue := { i0 with imm := 0x5BF80 }
     let s := coded core0 i 2 0x10
     Ready s (.ldv i) i ∧ a s i % 128 = 0 ∧ a s i < 0x5C000 ∧ (s.core i.c).sfuFree [i.rd.toNat] = true) := by
  refine ⟨⟨ready _ _ _ _ _ rfl rfl rfl rfl rfl rfl rfl, ?_⟩, ⟨ready _ _ _ _ _ rfl rfl rfl rfl rfl rfl rfl, ?_⟩,
    ⟨ready _ _ _ _ _ rfl rfl rfl rfl rfl rfl rfl, ?_⟩⟩ <;> decide

theorem wit_stores : let a := fun (s : State) (i : Issue) => ((s.core i.c).reg i.rs1.toNat + i.imm.signExtend 64).toNat
    (let i : Issue := { i0 with imm := 0x5B7F8 }
     let s := coded core0 i 2 0xB
     Ready s (.st64 i) i ∧ i.md = 0 ∧ a s i < 0x5B800 ∧ i.rd = 0 ∧ i.data ≠ .uncorrectable ∧ a s i % 8 = 0) ∧
    (let i : Issue := { i0 with imm := 0x5B780 }
     let s := coded core0 i 2 0x11
     Ready s (.stv i) i ∧ a s i < 0x5B800 ∧ i.rs2 = 0 ∧ a s i % 128 = 0 ∧ (s.core i.c).sfuFree [i.rd.toNat] = true) := by
  refine ⟨⟨ready _ _ _ _ _ rfl rfl rfl rfl rfl rfl rfl, ?_⟩, ⟨ready _ _ _ _ _ rfl rfl rfl rfl rfl rfl rfl, ?_⟩⟩ <;> decide

/-- Integer and floating-point formats, for every statement about vectors. -/
theorem wit_vectors :
    (∀ f ∈ [8, 9, 10], let i : Issue := { i0 with md := BitVec.ofNat 7 f }
      let s := coded core0 i 3 0
      Ready s (.vadd i) i ∧ Ready (coded core0 i 3 8) (.vrsum i) i ∧ Ready (coded core0 i 3 0x18) (.vperm i) i ∧
        i.imm = 0 ∧ i.md.toNat = f ∧ i.rs2 = 0 ∧ modRnd i = 0 ∧
        (s.core i.c).sfuFree [i.rd.toNat, i.rs1.toNat, i.rs2.toNat] = true) ∧
    (∀ f ∈ [0, 1, 2], let i : Issue := { i0 with md := BitVec.ofNat 7 (f + 0x70), imm := 5 }
      let s := coded core0 i 3 6
      Ready s (.vcmp i) i ∧ Ready (coded core0 { i with imm := 0 } 3 3) (.vfma { i with imm := 0 }) { i with imm := 0 } ∧
        i.md.toNat % 16 = f ∧ i.imm.toNat < 6 ∧ i.rs2 = 0 ∧ i.imm.toNat < fmtCount f ∧
        (s.core i.c).sfuFree [i.rd.toNat, i.rs1.toNat, i.rs2.toNat] = true) := by
  constructor <;> intro f hf <;> simp only [List.mem_cons, List.not_mem_nil, or_false] at hf
  · rcases hf with rfl | rfl | rfl <;> exact ⟨ready _ _ _ _ _ rfl rfl rfl rfl rfl rfl rfl,
      ready _ _ _ _ _ rfl rfl rfl rfl rfl rfl rfl, ready _ _ _ _ _ rfl rfl rfl rfl rfl rfl rfl, by decide⟩
  · rcases hf with rfl | rfl | rfl <;> exact ⟨ready _ _ _ _ _ rfl rfl rfl rfl rfl rfl rfl,
      ready _ _ _ _ _ rfl rfl rfl rfl rfl rfl rfl, by decide⟩

/-- FP32 to FP16, its last part; FP16 to FP32; FP32 to FP32. -/
theorem wit_conversion :
    let ok := fun (i : Issue) => let s := coded core0 i 3 0x10
      Ready s (.vcvt i) i ∧ i.rs2 = 0 ∧ convertible (i.imm.toNat % 16) (i.md.toNat % 16) = true ∧
      (s.core i.c).sfuFree [i.rd.toNat, i.rs1.toNat] = true
    (let i : Issue := { i0 with imm := 0x10, md := 1 }
     ok i ∧ fmtCount 0 ≤ fmtCount 1 ∧ i.imm.toNat / 16 < fmtCount 1 / fmtCount 0) ∧
    (let i : Issue := { i0 with imm := 0x11, md := 0 }
     ok i ∧ fmtCount 0 < fmtCount 1 ∧ i.imm.toNat / 16 < fmtCount 1 / fmtCount 0) ∧
    (let i : Issue := { i0 with imm := 0, md := 0 }
     ok i ∧ i.imm.toNat / 16 < fmtCount 0 / fmtCount 0) := by
  refine ⟨⟨⟨ready _ _ _ _ _ rfl rfl rfl rfl rfl rfl rfl, ?_⟩, ?_⟩, ⟨⟨ready _ _ _ _ _ rfl rfl rfl rfl rfl rfl rfl, ?_⟩, ?_⟩,
    ⟨⟨ready _ _ _ _ _ rfl rfl rfl rfl rfl rfl rfl, ?_⟩, ?_⟩⟩ <;> decide

/-! ## The units of a core (O10 to O17) -/

/-- Core 0 runs with this array, stream engine, SFU. -/
def arrs (a : Arr) : Core := { core0 with run := { run0 with arr := a } }
def strs (x : Str) : Core := { core0 with run := { run0 with str := x } }
def withArr (a : Arr) : State := on (arrs a)
def withStr (x : Str) : State := on (strs x)
def withSfu (x : SfuRun) : State := on { core0 with run := { run0 with sfu := x } }
def waits (w : WaitKind) : State := on { core0 with mode := .waiting, run := { run0 with wait := some (w, 0) } }

theorem wit_array_issue :
    (∀ md ∈ [0, 15, 16, 31], let i : Issue := { i0 with md := md }
      let s := coded core0 i 4 2
      Ready s (.aout i) i ∧ (s.core 0).run.arr.queue.length < 4) ∧
    (let i : Issue := { i0 with md := 15 }
     Ready (coded core0 i 4 0) (.acfg i) i ∧ i.md.toNat < 16) ∧
    (let s := coded (arrs { queue := List.replicate 4 .pass }) i0 4 1
     Ready s (.apass i0) i0 ∧ 4 ≤ (s.core 0).run.arr.queue.length) :=
  ⟨fun _ _ => ⟨ready _ _ _ _ _ rfl rfl rfl rfl rfl rfl rfl, (by decide : 0 < 4)⟩,
   ⟨ready _ _ _ _ _ rfl rfl rfl rfl rfl rfl rfl, by decide⟩, ready _ _ _ _ _ rfl rfl rfl rfl rfl rfl rfl, by decide⟩

/-- ACFG of FP16; APASS of one strip; AOUT to the last address that fits in FP32. -/
theorem wit_array_queue :
    (let s := withArr { queue := [.cfg 1 0 1] }
     (s.core 0).mode = .running ∧ (s.core 0).run.arr.queue = [.cfg 1 0 1] ∧ (s.core 0).run.arr.pass = false ∧
      (s.core 0).run.arr.out = none ∧ (s.arrCfg (coreTower 0) 1 0 1).isSome = true) ∧
    (let s := withArr { queue := [.pass], cfg := some { strips := 1 } }
     (s.core 0).run.arr.queue = [.pass] ∧ ∃ g, (s.core 0).run.arr.cfg = some g ∧ 0 < g.strips) ∧
    (let s := withArr { queue := [.out 0x4B800 0 none] }
     (s.core 0).run.arr.queue = [.out 0x4B800 0 none] ∧ 0 < outSize false false 0 ∧ (0x4B800 : W64).toNat % 128 = 0 ∧
      (0x4B800 : W64).toNat + 16384 * outSize false false 0 ≤ 0x5B800) :=
  ⟨by decide, ⟨rfl, _, rfl, by decide⟩, by decide⟩

theorem wit_array_strips :
    (let s := on { core0 with run := { run0 with arr := { pass := true, cfg := some { strips := 2 } },
                                                 str := { west := { base := some 0, tail := 8192 } } } }
     let k := s.core 0
     k.run.arr.asks k.run.str.west = true ∧ k.run.str.west.grantable = true ∧ k.run.str.west.ends.contains 0 = false) ∧
    (let s := on { core0 with run := { run0 with arr := { pass := true, cfg := some { strips := 2 } },
                                                 str := { west := { ahead := 1 }, north := { ahead := 1 } } } }
     let k := s.core 0
     k.run.arr.cfg = some { strips := 2 } ∧ k.stripRuns = true ∧ s.pinned 0 = false ∧ k.run.arr.done + 1 < 2 ∧
      k.run.str.west.ends = [] ∧ k.run.str.north.ends = []) ∧
    (let s := withArr { out := some (.out 0 0 none) }
     (s.core 0).run.arr.out = some (.out 0 0 none) ∧ 0 < outSize false false (0 % 16) ∧ s.pinned 0 = false) := by
  decide

/-- A table whose body R337 admits: 4,128 bytes with a SCALE of 1.0. -/
def table1 : Bytes := [0, 0, 0, 0, 0, 0, 0x80, 0x3F] ++ List.replicate 4120 0

/-- The near store that holds `table1` from 0x5A7E0. -/
def tableNear : Memory := [(0x5A7E6, 0x80), (0x5A7E7, 0x3F)]

theorem near_table : Memory.readN tableNear 0x5A7E0 4128 = table1 := by
  have h : ∀ b ∈ (List.range 4120).map (fun i => Memory.read tableNear (0x5A7E0 + (8 + i))), b = 0 := by
    intro b hb
    obtain ⟨i, _, rfl⟩ := List.mem_map.1 hb
    simp [Memory.read, tableNear, AMap.get, show ¬ 0x5A7E0 + (8 + i) = 0x5A7E6 by omega, show ¬ 0x5A7E0 + (8 + i) = 0x5A7E7 by omega]
  have e := List.eq_replicate_of_mem h
  rw [List.length_map, List.length_range] at e
  simp only [Memory.readN, show (4128 : Nat) = 8 + 4120 from rfl, List.range_add, List.map_append, List.map_map]
  exact congr (congrArg HAppend.hAppend rfl) e

theorem le_zeros (n : Nat) : leNat (List.replicate n 0) = 0 := by
  induction n with
  | zero => rfl
  | succ n h => simpa [List.replicate_succ, leNat] using h

theorem table_zeros (m a n : Nat) (h : 8 ≤ a) :
    field ([0, 0, 0, 0, 0, 0, 0x80, 0x3F] ++ List.replicate m 0) a n = 0 := by
  obtain ⟨k, rfl⟩ := Nat.exists_eq_add_of_le h
  have e : ([0, 0, 0, 0, 0, 0, 0x80, 0x3F] ++ List.replicate m 0 : Bytes).drop (8 + k) = List.replicate (m - k) 0 := by
    rw [← List.drop_drop]; exact List.drop_replicate
  rw [field, e, List.take_replicate, le_zeros]

theorem table_ok : tableOk table1 = true := by
  have z : ∀ a n, 8 ≤ a → field table1 a n = 0 := table_zeros 4120
  have l : table1.length = 4128 := by rw [table1, List.length_append, List.length_replicate]; rfl
  have f : (tabF table1 0).finite = true ∧ (tabF table1 4).positive = true := ⟨rfl, rfl⟩
  simp [tableOk, z, l, f, show ∀ i, 8 ≤ 0x20 + 16 * i + 12 by omega]

theorem wit_sfu_issue :
    (∀ md ∈ [0, 1], let i : Issue := { i0 with md := md }
      let s := coded core0 i 7 0
      Ready s (.sin i) i ∧ (s.core 0).run.sfu.queue.length < 4 ∧ (s.core 0).sfuFree [0, 0, 0 + 1, 0] = true) ∧
    (Ready (coded core0 i0 7 2) (.rcp i0) i0 ∧ Ready (coded core0 i0 7 7) (.tbl i0 3) i0 ∧
      (let i : Issue := { i0 with md := 1 }
       Ready (coded core0 i 7 4) (.tblLoad i 0) i)) ∧
    (let i : Issue := { i0 with imm := 0x36 }
     let s := coded core0 i 7 8
     Ready s (.rstat i) i ∧ i.imm.toNat < 64 ∧ i.imm.toNat % 16 < 8 ∧ i.imm.toNat % 8 ≠ 5 ∧ i.imm.toNat % 8 ≠ 7 ∧
      (s.core i.c).rowstatOut = false ∧ ((s.core i.c).reg i.rs2.toNat).toNat < 2 ^ 32 ∧
      (decodeNum 0 ((s.core i.c).reg i.rs2.toNat).toNat).finite = true) :=
  ⟨fun _ _ => ⟨ready _ _ _ _ _ rfl rfl rfl rfl rfl rfl rfl, (by decide : 0 < 4), rfl⟩,
   ⟨ready _ _ _ _ _ rfl rfl rfl rfl rfl rfl rfl, ready _ _ _ _ _ rfl rfl rfl rfl rfl rfl rfl,
    ready _ _ _ _ _ rfl rfl rfl rfl rfl rfl rfl⟩, ready _ _ _ _ _ rfl rfl rfl rfl rfl rfl rfl, by decide⟩

theorem wit_sfu_complete :
    (let o : SfuOp := { op := 3, rd := 31 }
     let s := withSfu { queue := [o] }
     (s.core 0).busy = true ∧ (s.core 0).run.sfu.queue = [o] ∧ o.load = false ∧ o.op < 8) ∧
    (let o : SfuOp := { op := 4 }
     let s := on { core0 with run := { run0 with sfu := { queue := [o] } }, tables := [(0, { loaded := true, body := table1 })] }
     (s.core 0).run.sfu.queue = [o] ∧ 4 ≤ o.op ∧ ((s.core 0).table (o.op - 4)).loaded = true) ∧
    (let o : SfuOp := { op := 7, load := true, sc := 0x5A7E0 }
     let s := on { core0 with run := { run0 with sfu := { queue := [o] } }, near := tableNear }
     (s.core 0).run.sfu.queue = [o] ∧ o.sc.toNat % 16 = 0 ∧ o.sc.toNat + 4128 ≤ 0x5B800 ∧
      tableOk (Memory.readN (s.core 0).near o.sc.toNat 4128) = true) :=
  ⟨⟨rfl, rfl, rfl, by decide⟩, ⟨rfl, by decide, rfl⟩, ⟨rfl, by decide, by decide, by
    show tableOk (Memory.readN tableNear 0x5A7E0 4128) = true
    rw [near_table]
    exact table_ok⟩⟩

theorem wit_waits :
    (let s := coded core0 i0 8 0
     Ready s (.wait i0) i0 ∧ i0.md = 0 ∧ i0.rd.toNat % 2 = 0 ∧ i0.imm = 0 ∧
      ((s.core 0).reg 0).setWidth 16 &&& 0x1F#16 = 0 ∧ (s.core 0).reg 0 = 0) ∧
    (let i : Issue := { i0 with rd := 30, rs1 := 1, imm := 0xFFFFFFFF }
     let s := coded (regs [(1, 1)]) i 8 1
     Ready s (.waitt i) i ∧ (s.core 0).selected (((s.core 0).reg 1).setWidth 16 &&& 0x1F#16) 0 = true) ∧
    (let i : Issue := { i0 with rs2 := 2, imm := 1 }
     let s := coded (regs [(2, 0x8000000000000000)]) i 8 1
     Ready s (.waitt i) i ∧ (s.core 0).selected 0 ((s.core 0).reg 2) = false ∧ (s.core 0).reg 2 ≠ 0) ∧
    (let s := waits (.cond 2 1 0 (some 5))
     (s.core 0).mode = .waiting ∧ (s.core 0).run.wait = some (.cond 2 1 0 (some 5), 0) ∧ (s.core 0).selected 1 0 = true ∧
      5 ≤ max s.clock 5) ∧
    (let s := waits (.fence 1)
     (s.core 0).mode = .waiting ∧ (s.core 0).run.wait = some (.fence 1, 0) ∧ s.fenced 0 1 = true) :=
  ⟨⟨ready _ _ _ _ _ rfl rfl rfl rfl rfl rfl rfl, by decide⟩, ⟨ready _ _ _ _ _ rfl rfl rfl rfl rfl rfl rfl, by decide⟩,
   ⟨ready _ _ _ _ _ rfl rfl rfl rfl rfl rfl rfl, by decide⟩, by decide, by decide⟩

/-- Core 0 belongs to P3. -/
def frame3 : Frame := { parts := [{ off := 64, part := 3, floor := 0, ringBase := 0, ringCount := 16, groups := 1, lamps := 1 }] }

theorem wit_fence_end :
    (∀ kind ∈ [1, 2], let i : Issue := { i0 with md := BitVec.ofNat 7 kind }
      let s := coded core0 i 8 2
      Ready s (.fence i) i ∧ i.md.toNat = kind ∧ s.fenced i.c kind = true) ∧
    (let i : Issue := { i0 with md := 2 }
     let s := coded { core0 with run := { run0 with sfu := { queue := [{}] } } } i 8 2
     Ready s (.fence i) i ∧ s.fenced i.c 2 = false) ∧
    (let i : Issue := { i0 with md := 3 }
     Ready (coded core0 i 8 2) (.fence i) i ∧ i.md ≠ 1 ∧ i.md ≠ 2) ∧
    Ready (coded core0 i0 9 0) (.endPart i0) i0 ∧
    (let s := { waits .ending with frame := some frame3 }
     (s.core 0).mode = .waiting ∧ (s.core 0).run.wait = some (.ending, 0) ∧ s.unitsIdle 0 = true ∧ s.coreOwner 0 = some 3) := by
  refine ⟨?_, ⟨ready _ _ _ _ _ rfl rfl rfl rfl rfl rfl rfl, by decide⟩, ⟨ready _ _ _ _ _ rfl rfl rfl rfl rfl rfl rfl, by decide⟩,
    ready _ _ _ _ _ rfl rfl rfl rfl rfl rfl rfl, by decide⟩
  intro kind h
  simp only [List.mem_cons, List.not_mem_nil, or_false] at h
  rcases h with rfl | rfl <;> exact ⟨ready _ _ _ _ _ rfl rfl rfl rfl rfl rfl rfl, by decide⟩

theorem wit_system :
    (∀ imm ∈ [0, 7], let i : Issue := { i0 with imm := imm }
      Ready (coded core0 i 9 1) (.rdsys i) i ∧ imm.toNat < 8) ∧
    (let i : Issue := { i0 with imm := 8 }
     Ready (coded core0 i 9 1) (.rdsys i) i ∧ 8 ≤ i.imm.toNat) ∧
    Ready (coded core0 i0 5 2) (.sqstat i0) i0 ∧ Ready (coded core0 i0 9 3) (.clrf i0) i0 := by
  refine ⟨?_, ⟨ready _ _ _ _ _ rfl rfl rfl rfl rfl rfl rfl, by decide⟩, ready _ _ _ _ _ rfl rfl rfl rfl rfl rfl rfl,
    ready _ _ _ _ _ rfl rfl rfl rfl rfl rfl rfl⟩
  intro imm h
  simp only [List.mem_cons, List.not_mem_nil, or_false] at h
  rcases h with rfl | rfl <;> exact ⟨ready _ _ _ _ _ rfl rfl rfl rfl rfl rfl rfl, by decide⟩

theorem wit_faults : let a := fun (s : State) (i : Issue) => ((s.core i.c).reg i.rs1.toNat + i.imm.signExtend 64).toNat
    (let i : Issue := { i0 with imm := 1 }
     Ready (coded core0 i 0 0) (.add i) i ∧ i.imm ≠ 0) ∧
    (let s := coded core0 i0 0 0xE
     Ready s (.divu i0) i0 ∧ (s.core 0).reg 0 = 0) ∧
    (let i : Issue := { i0 with imm := 0x5BFF9 }
     let s := coded core0 i 2 3
     Ready s (.ld64 i) i ∧ 0x5C000 < a s i + 8) ∧
    (let i : Issue := { i0 with imm := 0x5BFF7 }
     let s := coded core0 i 2 3
     Ready s (.ld64 i) i ∧ a s i + 8 ≤ 0x5C000 ∧ a s i % 8 ≠ 0) ∧
    (let i : Issue := { i0 with imm := 0x5B7F9 }
     let s := coded core0 i 2 0xB
     Ready s (.st64 i) i ∧ 0x5B800 < a s i + 8) ∧
    (let i : Issue := { i0 with imm := 255 }
     Ready (coded core0 i 9 2) (.softFault i) i ∧ i.imm.toNat < 256) ∧
    (let s := on { core0 with run := { run0 with pc := 8 } }
     (s.core 0).issuing = true ∧ s.pinned 0 = false ∧ (s.core 0).inProgram = false ∧ (s.core 0).busy = true) ∧
    (∀ w ∈ [0xA000000000000000#64, 0x9100000000000000#64], let s := on { core0 with code := [(0, w)] }
     (s.core 0).issuing = true ∧ s.pinned 0 = false ∧ (s.core 0).inProgram = true ∧
       (10 ≤ bits (s.core 0).word.toNat 63 60 ∨ bits (s.core 0).word.toNat 63 60 = 9 ∧ 4 ≤ bits (s.core 0).word.toNat 59 54)) :=
  ⟨⟨ready _ _ _ _ _ rfl rfl rfl rfl rfl rfl rfl, by decide⟩, ⟨ready _ _ _ _ _ rfl rfl rfl rfl rfl rfl rfl, by decide⟩,
   ⟨ready _ _ _ _ _ rfl rfl rfl rfl rfl rfl rfl, by decide⟩, ⟨ready _ _ _ _ _ rfl rfl rfl rfl rfl rfl rfl, by decide⟩,
   ⟨ready _ _ _ _ _ rfl rfl rfl rfl rfl rfl rfl, by decide⟩, ⟨ready _ _ _ _ _ rfl rfl rfl rfl rfl rfl rfl, by decide⟩, by decide, by
    intro w h
    simp only [List.mem_cons, List.not_mem_nil, or_false] at h
    rcases h with rfl | rfl
    · exact ⟨rfl, rfl, rfl, .inl (show 10 ≤ bits (0xA000000000000000#64).toNat 63 60 by simp [bits])⟩
    · exact ⟨rfl, rfl, rfl, .inr (show bits (0x9100000000000000#64).toNat 63 60 = 9 ∧
        4 ≤ bits (0x9100000000000000#64).toNat 59 54 by simp [bits])⟩⟩

/-- A row whose word is not at the PC has no effect (notes/assumptions/41.md); the word at the PC runs. -/
theorem test_row_word :
    let i : Issue := { i0 with rd := 3, imm := 7 }
    let s := coded core0 i 0 0x20
    after (execAddi i s) (fun t => decide ((t.core 0).reg 3 = 7)) = true ∧
      after (execSlti i s) (fun t => decide ((t.core 0).reg 3 = 0) && decide ((t.core 0).run.pc = 0)) = true := by decide +kernel

/-! ## Streams, channels, memories, NBUs (O18 to O27) -/

/-- Four elements of FP32 from the near store to the near store at 0x1000; four words of an Empty descriptor. -/
def copy4 : List W64 := [0, 0x40000001000, 4, 0]
def none4 : List W64 := [0, 0, 0, 0]

/-- SQ and SQDEF with seven and with eight descriptors queued, the last aligned address. -/
theorem wit_descriptors :
    (let i : Issue := { i0 with imm := 0x5BFE0 }
     let s := coded (strs { queue := List.replicate 7 (0, none4) }) i 5 0
     Ready s (.sq i) i ∧ (((s.core i.c).reg i.rs1.toNat + i.imm.signExtend 64).toNat % 32 = 0) ∧
       ((s.core i.c).reg i.rs1.toNat + i.imm.signExtend 64).toNat < 0x5C000 ∧ (s.core i.c).run.str.queue.length < 8) ∧
    (let s := coded (strs { queue := List.replicate 8 (0, none4) }) i0 5 0
     Ready s (.sq i0) i0 ∧ 8 ≤ (s.core i0.c).run.str.queue.length) ∧
    Ready (coded core0 i0 5 1) (.sqdef i0) i0 :=
  ⟨⟨ready _ _ _ _ _ rfl rfl rfl rfl rfl rfl rfl, by decide⟩, ⟨ready _ _ _ _ _ rfl rfl rfl rfl rfl rfl rfl, by decide⟩,
   ready _ _ _ _ _ rfl rfl rfl rfl rfl rfl rfl⟩

theorem wit_descriptor_lanes :
    (∀ ws ∈ [copy4, none4],
      let s := withStr { queue := [(7, ws)] }
      let r := (s.core 0).run.str
      (s.core 0).mode = .running ∧ r.queue = [(7, ws)] ∧ r.freeLane = some 0 ∧ ws ≠ [] ∧ (descOf ws).inlet = none ∧
        badDesc ws (s.towerFeature (coreTower 0) 0) (s.towerFeature (coreTower 0) 1) = false ∧
        ((descOf ws).empty = decide (ws = none4)) ∧ (descOf ws).outOfRange = false) ∧
    (let x : Lane := { pos := 7, words := copy4, done := 1, finished := true }
     let s := withStr { lanes := [(3, some x)] }
     AMap.get none (s.core 0).run.str.lanes 3 = some x ∧ x.finished = true ∧ (descOf x.words).inlet = none) ∧
    (let s := { on { core0 with stallLimit := 1, run := { run0 with str := { west := { since := some 0 } } } } with clock := 1001 }
     ((s.core 0).run.str.inlet .west).since = some 0 ∧ ((s.core 0).run.str.inlet .west).stalled = false ∧
       ((s.core 0).run.str.inlet .west).grantable = false ∧ 0 < (s.core 0).stallLimit.toNat % 2 ^ 20 ∧
       0 + 1000 * ((s.core 0).stallLimit.toNat % 2 ^ 20) < max s.clock 0) := by
  decide

theorem wit_burst :
    let x : Lane := { words := copy4 }
    let s := withStr { lanes := [(3, some x)] }
    let d := descOf x.words
    (s.core 0).mode = .running ∧ AMap.get none (s.core 0).run.str.lanes 3 = some x ∧ x.finished = false ∧ d.ss = 0 ∧ d.ds = 0 ∧
      d.mx = false ∧ s.pinned 0 = false := by
  decide

/-- P3's image: graph 0 on core 0, channel 1 from endpoint 0 of core 0 to endpoint 63 of core 0. -/
def image3 : PartImage :=
  { id := 7, chans := [{ chan := 1, credits := 4, src := 0, dst := 0xFC00 }], binds := [{ chans := [1] }],
    graphs := [{ graph := 0, cores := 1, defaults := [5, 6] }], progs := [{ words := [0, 0] }] }

/-- P3 ACTIVE with that image on a powered DK48; region 5 of P3 over every stack, pool 2 of two buffers, port 0. -/
def sys : State :=
  { fuse := some dk48, rails := { good := 0xFF, vaon := true },
    frame := some { frame3 with regions := [{ index := 5, part := 3, size := 8 }],
                                pools := [{ pool := 2, part := 3, region := 5, bufSize := 64, bufCount := 2 }],
                                ports := [{ port := 0, part := 3, share := 100 }] },
    parts := [(3, { st := .active, image := some image3 })],
    link := { up := true, vfEnable := true, numVfs := 4, bme := 0x8 } }

/-- There core 0 runs with these endpoints. -/
def sysEps (eps : AMap Ep) : State := { sys with cores := [(0, { core0 with eps := eps })] }

/-- There core 0 is `k`, and the word at its PC is the row's. -/
def sysCoded (k : Core) (i : Issue) (cls op : Nat) : State :=
  { sys with cores := [(0, { k with code := [(k.run.pc, i.word cls op)] })] }

theorem sys_ready (k : Core) (x : Instr) (i : Issue) (cls op : Nat) (h : rowOp x = some (i, cls, op)) (hc : i.core = 0)
    (h2 : i.code = .clean) (hk : k.mode = .running) (hp : k.run.pc = 0) (hb : k.run.base = 0) (hn : k.run.words = 8) :
    Ready (sysCoded k i cls op) x i := by
  obtain ⟨⟨h1, _, h3, h4⟩, y⟩ := ready k x i cls op h hc h2 hk hp hb hn
  have hc : i.c = 0 := by rw [Issue.c, hc]; rfl
  rw [hc] at h1 h3
  refine ⟨⟨by rw [hc]; exact h1, ?_, by rw [hc]; exact h3, h4⟩, i, cls, op, h, ?_⟩ <;> rw [hc]
  · intro h; exact nomatch (show false = true from h)
  · show AMap.get 0 [(k.run.pc, i.word cls op)] k.run.pc = i.word cls op
    rw [hp]; rfl

def sendEp : Ep := { valid := true, chan := 1, credits := 4, level := 1 }
def recvEp : Ep := { valid := true, recv := true, chan := 1, credits := 4 }

def ported (eps : AMap Ep) : Core := { core0 with eps := eps }

/-- SEND of a whole message that ends at the last byte; TOKEN with and without a credit; RECV; POLL of each kind. -/
theorem wit_messages :
    (let i : Issue := { i0 with rs1 := 1, rs2 := 2 }
     let s := sysCoded { ported [(0, sendEp)] with run := { run0 with g := [(1, 0x5B000), (2, 4096)] } } i 6 0
     let p := s.ep 0 0
     Ready s (.send i) i ∧ s.coreOwner 0 = some 3 ∧ s.image 3 = some image3 ∧ (image3.channel p.chan).map ChanRec.chan = some p.chan ∧
       (image3.channel p.chan).map ChanRec.leaves = some false ∧ (image3.channel p.chan).map ChanRec.enters = some false ∧
       s.epBound 0 0 = true ∧ p.recv = false ∧ 0 < p.level ∧ ((s.core 0).reg 2).toNat = 4096 ∧
       ((s.core 0).reg 1).toNat + 4096 = 0x5C000 ∧ ((s.core 0).reg 1).toNat % 16 = 0 ∧ s.pinned 0 = false) ∧
    (let s := sysCoded (ported [(0, sendEp)]) i0 6 2
     Ready s (.token i0) i0 ∧ Ready (sysCoded (ported [(0, sendEp)]) i0 6 3) (.poll i0) i0 ∧ s.epBound 0 0 = true ∧
       (s.ep 0 0).recv = false ∧ 0 < (s.ep 0 0).level) ∧
    (let i : Issue := { i0 with imm := 63 }
     let s := sysCoded (ported [(63, recvEp)]) i 6 1
     Ready s (.recv i) i ∧ Ready (sysCoded (ported [(63, recvEp)]) i 6 3) (.poll i) i ∧ s.epBound 0 63 = true ∧
      recvEp.posts.length < recvEp.credits ∧ recvEp.arrivals = []) ∧
    (let i : Issue := { i0 with imm := 63 }
     let p := { recvEp with arrivals := [(0x1000, 4096)] }
     let s := sysCoded (ported [(63, p)]) i 6 3
     Ready s (.poll i) i ∧ s.epBound 0 63 = true ∧ p.arrivals = [(0x1000, 4096)]) ∧
    (let p := { sendEp with level := 0 }
     let s := sysCoded (ported [(0, p)]) i0 6 2
     Ready s (.token i0) i0 ∧ s.epBound 0 0 = true ∧ p.recv = false ∧ p.level = 0) :=
  ⟨⟨sys_ready _ _ _ _ _ rfl rfl rfl rfl rfl rfl rfl, by decide⟩,
   ⟨sys_ready _ _ _ _ _ rfl rfl rfl rfl rfl rfl rfl, sys_ready _ _ _ _ _ rfl rfl rfl rfl rfl rfl rfl, by decide⟩,
   ⟨sys_ready _ _ _ _ _ rfl rfl rfl rfl rfl rfl rfl, sys_ready _ _ _ _ _ rfl rfl rfl rfl rfl rfl rfl, by decide⟩,
   ⟨sys_ready _ _ _ _ _ rfl rfl rfl rfl rfl rfl rfl, by decide⟩, ⟨sys_ready _ _ _ _ _ rfl rfl rfl rfl rfl rfl rfl, by decide⟩⟩

theorem wit_arrivals :
    let s := sysEps [(0, sendEp), (63, { recvEp with posts := [(0x1000, 8)] })]
    s.image 3 = some image3 ∧ (image3.channel 1).map ChanRec.src = some 0 ∧ (image3.channel 1).map ChanRec.dst = some 0xFC00 ∧
      endCore 0 = 0 ∧ endEp 0 = 0 ∧ endCore 0xFC00 = 0 ∧ endEp 0xFC00 = 63 ∧ (s.ep 0 0).valid = true ∧ (s.ep 0 0).epoch = 0 ∧
      (s.ep 0 63).valid = true ∧ (s.ep 0 63).epoch = 0 ∧ (s.ep 0 63).posts = [(0x1000, 8)] ∧
      (∀ fs ∈ ([[{ item := .credit 0 }], [{ item := .message 0 [1, 2, 3, 4, 5, 6, 7, 8] }],
                [{ item := .token 0, landed := true }]] : List (List Flight)),
        ({ s with parts := [(3, { st := .active, image := some image3, flights := [(1, fs)] })] } : State).flights 3 1 = fs) := by
  decide

/-- A busy core at the end of an open link; a link off the mesh's edge; a credit that is the oldest on its channel's way. -/
theorem wit_links :
    (let s := { sys with cores := [(0, core0)] }
     (0x3 : BitVec 4) ∉ ([0, 1, 2, 4, 8] : List (BitVec 4)) ∧ (s.meshOpen 0 .north = true ∨ s.meshOpen 0 .south = true) ∧
       (s.core 0).busy = true ∧ (s.meshOpen 0 .north = false ∨ s.meshOpen 0 .south = false)) ∧
    sys.coreOwner 767 ≠ some 3 ∧
    (let s := { sysEps [(0, sendEp)] with
                  parts := [(3, { st := .active, image := some image3, flights := [(1, [{ item := .credit 0, tag := 3 }])] })] }
     s.coreOwner 0 = some 3 ∧ (s.ep 0 0).valid = true ∧ (s.ep 0 0).epoch = 0 ∧ (s.ep 0 0).recv = false ∧
       s.flights 3 (s.ep 0 0).chan = [{ item := .credit 0, tag := 3 }] ∧ (sysEps [(0, sendEp)]).flights 3 1 = []) := by
  decide

theorem wit_slices :
    (let s := { sys with cores := [(0, { mode := .idle })] }
     s.rails.good.getLsbD 4 = true ∧ s.coreUp 0 = true ∧ (s.core 0).mode ≠ .off ∧ (128 * 0xFFFFF) % 128 = 0 ∧ 128 * 0xFFFFF < 2 ^ 27 ∧
      (s.core 0).marks = [] ∧ AMap.get 0 (s.core 0).owed 3 < 4 ∧ AMap.get 0 (s.core 0).owed (128 * 0xFFFFF / 1024 % 4) = 0 ∧
      (s.core 0).scrubbed + 1 < 2 ^ 20 ∧ (s.core 0).sweepDone = false ∧ bit (s.core 0).swept (0 / 128) = false ∧
      (s.tower (coreTower 0)).slcCfg.toNat % 256 ≠ 0 ∧ (s.tower (coreTower 0)).forced ≤ 0xFFFFFFFF ∧ s.sweepEnds 0 = 24 * 3600000000000 ∧
      s.sweepEnds 0 ≤ max s.clock 86400000000000 ∧ max s.clock 86399999999999 < s.sweepEnds 0) ∧
    (let s := { sys with cores := [(0, { owed := [(3, 4)] })] }
     4 ≤ AMap.get 0 (s.core 0).owed 3 ∧ AMap.get 0 (s.core 0).owed (3 * 1024 / 1024 % 4) ≠ 0) := by
  decide

/-- Core 256 of P3 and an ACTIVE core 0; the last bytes of the region, one byte beyond it; a granule far from tower 0 that its far
cache holds. -/
theorem wit_nearbank :
    (let s := { sys with cores := [(0, { mode := .idle })] }
     s.coreOwner 0 = some 3 ∧ (s.core 0).mode ≠ .off ∧ s.tagOk 3 5 0x7FFFFFE0 32 = true ∧ (s.region 5).poison = [] ∧
       s.tagOk 3 5 0x7FFFFFE0 33 = false ∧ (s.tower 0).far = [] ∧ (s.tower 0).farEnable = true) ∧
    (let x : RegionRec := { index := 5, part := 3, size := 8, farCached := true }
     let l : FarLine := { part := 3, region := 5, line := 4, data := [7, 7, 7, 7] }
     let s := { sys with frame := some { frame3 with regions := [x] }, cores := [(0, { mode := .idle })], towers := [(0, { far := [l] })] }
     s.coreOwner 0 = some 3 ∧ (s.core 0).mode ≠ .off ∧ s.regionRec 5 = some x ∧ s.tagOk 3 5 2528 32 = true ∧
       2528 % 512 + 32 ≤ 512 ∧ x.farOf 0 (2528 / 512) = true ∧ (s.tower 0).farEnable = true ∧
       (s.tower 0).farLine 3 5 4 = some l) ∧
    sys.coreOwner 767 = none ∧ (sys.core 0).mode = .off ∧
    (∀ st ∈ [PState.active, .held],
      let s := { sys with parts := [(3, { st := st, aper := 0x80000005 })] }
      s.reaches (.vf 3) = true ∧ (s.part 3).aper.getLsbD 31 = true ∧ (s.part 3).st = st ∧ (s.part 3).molting = false ∧
        (s.part 3).barred = false ∧ 0x7FFFFFF8 + 8 ≤ 2 ^ 32 ∧ s.tagOk 3 5 0x7FFFFFF8 8 = true ∧ (s.region 5).poison = []) ∧
    (sys.part 3).aper.getLsbD 31 = false ∧ sys.reaches (.vf 4) = false := by
  decide

theorem wit_stacks :
    sys.stacksOn 7 = true ∧ AMap.get 0 (sys.stack 7).owed 63 < 4 ∧ 0 < (sys.stack 7).cfg.toNat % 256 ∧
      4 ≤ AMap.get 0 (({ sys with nbStacks := [(7, { owed := [(63, 4)] })] } : State).stack 7).owed 63 ∧
      ({ sys with frame := none } : State).cellAt 7 63 0 = none ∧
      (sys.cellAt 7 63 0).map (fun x => (x.1.index, x.2)) = some (5, 0) ∧
      (0xFFFFFFFF : W32).getLsbD 0 = true ∧ (2 : W32).getLsbD 0 = false := by
  decide

/-- The commands of an NBU, each 32 bytes. -/
def cmd (op flags fmt sel count : Byte) (addr : List Byte) : Bytes :=
  [op, flags, fmt, sel, count, 0, 0, 0] ++ addr ++ List.replicate (24 - addr.length) 0

theorem wit_nbu_window :
    sys.coreOwner 0 = some 3 ∧ sys.nbuTagOk 3 5 7 63 = true ∧ (cmd 6 0 0 0 0 []).length = 32 ∧ (sys.nbu 511).queue.length < 16 ∧
      16 ≤ (({ sys with nbus := [(511, { queue := List.replicate 16 (5, 0, cmd 0 0 0 0 0 []) })] } : State).nbu 511).queue.length := by
  decide

/-- One command of each kind at the head: the clauses meet at the last local address, one operand register and eight. -/
theorem wit_nbu_commands :
    (∃ x, sys.regionRec 5 = some x ∧ x.localSize = 0x400000 ∧ (sys.region 5).poison = []) ∧
    (let b := cmd 7 0 0 0 0 []
     let s := { sys with nbus := [(511, { queue := [(5, 0, b)], fifo := List.replicate 1024 0 })] }
     (s.nbu 511).queue = [(5, 0, b)] ∧ (s.nbu 511).run = none ∧ 1024 ≤ (s.nbu 511).fifo.length) ∧
    ((sys.nbu 511).fifo.length < 1024 ∧ badCommand (cmd 8 0 0 0 0 []) = true ∧ nbuOps.contains (cmdOp (cmd 8 0 0 0 0 [])) = false) ∧
    (badCommand (cmd 1 0 0 0 0 [1]) = false ∧ cmdAddr (cmd 1 0 0 0 0 [1]) % 32 ≠ 0) ∧
    (let b := cmd 1 0 0 0 0 [0, 0, 0x40]
     badCommand b = false ∧ cmdAddr b % 32 = 0 ∧ cmdStride b % 32 = 0 ∧ (∃ l ∈ cmdReads b, ∃ a ∈ l, 0x400000 ≤ a)) ∧
    (let fifo : List W64 := List.replicate 1021 0
     fifo.length < 1024 ∧ min 4 (1024 - fifo.length) < 4) ∧
    (let b := cmd 1 0 0 7 0 [0xE0, 0xFF, 0x3F, 0]
     badCommand b = false ∧ cmdOp b = 1 ∧ cmdAddr b % 32 = 0 ∧ cmdAddr b < 0x400000) ∧
    (∀ op ∈ [0, 2, 3, 6, 7, 0xF], badCommand (cmd op 1 0 7 0 []) = false) ∧
    (let b := cmd 4 0 9 0x37 1 [0xE0, 0xFF, 0x3F, 0]
     badCommand b = false ∧ cmdOp b = 4 ∧ cmdAddr b % 32 = 0 ∧ cmdStride b % 32 = 0 ∧
       (∀ j < cmdCount b, cmdAddr b + j * cmdStride b < 0x400000) ∧ (dot 9 0 0 0).2 = false) ∧
    (let b := cmd 5 0 1 8 1 []
     badCommand b = false ∧ cmdOp b = 5 ∧ bit (cmdFlags b) 0 = false ∧ cmdCount b = 1 ∧
       (∀ m < cmdSel b, cmdAddr b + 32 * m < 0x400000) ∧ (nbuScore {} 1 0 (List.replicate 8 0)).2 = false) ∧
    (let b := [7, 0, 0, 0, 0, 0, 0, 0, 0, 0, 0, 0, 0, 0, 0, 0, 0, 0x80] ++ List.replicate 14 0
     badCommand b = true ∧ cmdOp b = 7) := by
  decide +kernel

/-! ## Rings, launches, pools (O28 to O31) -/

/-- The rings of P3: a launch ring of 16 entries with one record unread, a completion ring, both enabled. -/
def launchRing : Ring := { size := 16, enabled := true, prod := 1, defc := 1 }
def compRing : Ring := { cfg := 0x20000001, size := 16, enabled := true, phase := true }
def rung : State := { sys with rings := [(0, launchRing), (1, compRing)], tim := { st := .free } }

theorem wit_ring_enable :
    (∀ w ∈ [0xA0000001, 0xA000003F, 0x20000001],
      let v : W32 := BitVec.ofNat 32 w
      let s := { sys with rings := [(0, { size := if v = 0xA000003F then 0x10000 else 16 })] }
      s.reaches (.vf 3) = true ∧ s.selectedRing (.vf 3) = some 0 ∧ s.ringOwner 0 = some 3 ∧ (s.part 3).comps = [] ∧ (s.part 3).rma.events = [] ∧
        (s.part 3).st ≠ .held ∧ (s.ring 0).enabled = false ∧
        s.ringError 0 { s.ring 0 with cfg := cfgBits (.vf 3) (s.ring 0).cfg v } = 0) ∧
    (let s := { sys with rings := [(0, { size := 15 })] }
     s.ringError 0 { s.ring 0 with cfg := cfgBits (.vf 3) (s.ring 0).cfg 0xA0000001 } = 1) ∧
    (rung.selectedRing (.vf 3) = some 0 ∧ (rung.ring 0).enabled = true) := by
  decide

theorem wit_ring_checks :
    ((15 < 16 ∨ 65536 < 15) ∧ (0x10001 < 16 ∨ 65536 < 0x10001)) ∧
    (let q := { compRing with base := 0x1FFF }
     16 ≤ q.entries ∧ q.entries ≤ 65536 ∧ q.base.toNat % 4096 ≠ 0) ∧
    (∀ w ∈ [0x20000000, 0x20000001, 0x2000003F, 0x20000040],
      let v : W32 := BitVec.ofNat 32 w
      let q := { compRing with cfg := v }
      16 ≤ q.entries ∧ q.entries ≤ 65536 ∧ q.base.toNat % 4096 = 0 ∧ q.type = 1 ∧ q.cfg.getLsbD 26 = false) ∧
    rung.ringOwner 1 ≠ none := by
  decide

theorem wit_doorbells :
    rung.reaches (.vf 3) = true ∧ rung.absRing 3 0 = some 0 ∧ (rung.ring 0).enabled = true ∧ (15 : W32).toNat < (rung.ring 0).entries ∧ (rung.ring 0).type = 0 ∧
    rung.absRing 3 1 = some 1 ∧ (rung.ring 1).type = 1 ∧ (15 : W32).toNat < (rung.ring 1).entries ∧ rung.ringOwner 1 = some 3 ∧
    (rung.part 3).comps = [] ∧ (rung.part 3).rma.events = [] ∧ (rung.ring 0).entries ≤ (16 : W32).toNat ∧
    (∀ w ∈ [0x40000000, 0x48000000],
      let v : W32 := BitVec.ofNat 32 w
      let q : Ring := { size := 16, cfg := v, enabled := true }
      q.type = 2 ∧ q.event = decide (v = 0x48000000)) := by
  decide

/-- A record of graph 0 to completion ring 1, with one patch of the last default slot; its SERIAL is the next, or the last. -/
def record (serial : Byte) (np slot res : Byte) : Bytes :=
  [0, res, 1, 0, serial, 0, 0, 0, 0, np, slot, 0, 0, 0, 0, 0] ++ List.replicate 48 0

theorem wit_records :
    rung.absRing 3 0 = some 0 ∧ rung.inTurn 3 0 = true ∧ (record 0 1 1 0).length = 64 ∧
    (let b := record 0 1 1 0
     let serial := BitVec.ofNat 32 (field b 4 4)
     1 ≤ (serial - (rung.ring 0).lserial).toNat ∧ (serial - (rung.ring 0).lserial).toNat < 2 ^ 31 ∧ badLaunchRecord b = false ∧
       rung.image 3 = some image3 ∧ (image3.graph (field b 0 2 % 4096)).map GraphRec.graph = some 0 ∧ image3.span? = none ∧
       rung.absRing 3 (field b 2 2) = some 1 ∧ (rung.ring 1).completion = true ∧
       patchError 2 0 (inlinePatches b) none = none) ∧
    (let s := { rung with rings := [(0, { launchRing with lserial := 5 }), (1, compRing)] }
     let serial := BitVec.ofNat 32 (field (record 5 0 0 0) 4 4)
     ¬ 1 ≤ (serial - (s.ring 0).lserial).toNat ∧ recDup (record 5 0 0 0) = false ∧ s.inTurn 3 0 = true) ∧
    badLaunchRecord (record 0 0 0 0x10) = true ∧
    (let s := { rung with rings := [(0, launchRing)] }
     s.inTurn 3 0 = true ∧ s.recordRing 3 (s.ring 0) 1 = none) ∧
    (rung.recordRing 3 (rung.ring 0) 1 = some 1 ∧ rung.canWrite 3 1 = true ∧ (rung.part 3).comps = []) := by
  decide

/-- Launch 4 of graph 0 on core 0, IDLE; then started and ended there; with a deadline of 100 ns met and missed. -/
def launch4 : Launch := { id := 4, cring := 1, cores := [0], params := [9] }
def ended4 : Launch := { launch4 with started := some 0, ends := [(0, 0)] }

theorem wit_launches :
    (let s := { rung with cores := [(0, { mode := .idle })],
                          parts := [(3, { st := .active, image := some image3, launches := [launch4] })] }
     let now := s.at 0
     s.image 3 = some image3 ∧ s.launch 3 4 = some launch4 ∧ image3.span? = none ∧ image3.spanned = false ∧
       launch4.remote = false ∧ now.ready 3 launch4 = true ∧ (s.part 3).graphRuns launch4 = false ∧
       now.canStart 3 image3 launch4 = true ∧ launch4.ends = [] ∧ (s.core 0).holders = [] ∧ (s.core 0).busy = false ∧
       (s.core 0).eps = [] ∧ s.pendingOn 0 launch4 = false ∧ image3.program 0 0 = some (0, 2)) ∧
    (let l := { launch4 with timed := true, startTime := 1 }
     (rung.at 0).now < l.startTime.toNat) ∧
    (let s := { rung with cores := [(0, { mode := .idle })],
                          parts := [(3, { st := .active, image := some image3, launches := [ended4] })] }
     s.launch 3 4 = some ended4 ∧ ended4.started.isSome = true ∧ ended4.over = true ∧ ended4.owing = [] ∧
       (s.part 3).comps = [] ∧ s.canWrite 3 1 = true ∧ (s.ring 1).completion = true ∧ s.pendingOn 0 ended4 = false ∧
       image3.dead 0 = none ∧
       (let i := { image3 with deads := [{ graph := 0, deadline := 100 }] }
        (i.dead 0).map DeadRec.deadline = some 100 ∧ (s.at 100).mono ≤ 0 + 100 ∧ 0 + 100 < (s.at 101).mono ∧ ended4.own = 0)) := by
  decide

/-- A core without endpoints in use holds no message back. -/
theorem wit_launch_core : ∀ e, (({ mode := .idle } : Core).ep e).held = [] := fun _ => rfl

/-- P3 runs launch 4 of graph 0; launch 5 of graph 1, which has a deadline, waits for core 0. -/
def image31 : PartImage :=
  { image3 with graphs := [{ graph := 0 }, { graph := 1 }], progs := [{ words := [0] }, { graph := 1, words := [0] }],
                deads := [{ graph := 1, deadline := 100 }] }
def runs4 : Launch := { launch4 with started := some 0 }
def waits5 : Launch := { id := 5, cring := 1, graph := 1, cores := [0], started := some 0 }

theorem wit_preemption :
    (let s := { rung with cores := [(0, { core0 with run := { run0 with launch := 4 } })],
                          parts := [(3, { st := .active, image := some image31, launches := [runs4, waits5] })] }
     s.coreOwner 0 = some 3 ∧ (s.core 0).active = true ∧ s.preemptor 3 0 = some waits5 ∧ s.preemptSeen waits5 runs4 = false ∧
       s.launch 3 (s.core 0).run.launch = some runs4) ∧
    (let s := { rung with cores := [(0, { core0 with mode := .saving, run := { run0 with launch := 4 } })],
                          parts := [(3, { st := .active, image := some image31, launches := [runs4] })] }
     (s.core 0).mode = .saving ∧ (s.core 0).drained = true ∧ s.sending 0 = false ∧ s.saveStarved 0 = false ∧ s.pendingOn 0 runs4 = false ∧ (s.core 0).slot0 = none) ∧
    (let x : Ctx := { run := { run0 with launch := 4 } }
     let s := { rung with cores := [(0, { mode := .idle, slot0 := some x })],
                          parts := [(3, { st := .active, image := some image31, launches := [runs4] })] }
     (s.core 0).busy = false ∧ (s.core 0).mode ≠ .off ∧ s.saveStarved 0 = false ∧ s.resumable 3 0 = some (false, x) ∧
       s.outranked 3 0 ((s.launch 3 x.run.launch).getD {}) = false ∧ x.run.wait = none) := by
  refine ⟨⟨?_, ?_, ?_, ?_, ?_⟩, ⟨?_, ?_, ?_, ?_, ?_, ?_⟩, ⟨?_, nofun, ?_, ?_, ?_, ?_⟩⟩ <;> rfl

theorem wit_pools :
    (sys.poolRec 2).map PoolRec.part = some 3 ∧ sys.reaches (.vf 3) = true ∧ sys.poolFree 2 = [0, 1] ∧ (sys.pool 2).waiters = [] ∧
    (let s := { sys with pools := [(2, { taken := [0, 1] })] }
     s.poolFree 2 = [] ∧ (s.pool 2).cfg.getLsbD 31 = false ∧ bits (1 : W32).toNat 19 0 ∈ (s.pool 2).taken ∧
       ((sys.poolRec 2).map PoolRec.bufCount = some 2)) ∧
    (let s := { sys with pools := [(2, { taken := [0, 1], cfg := 0x80000000, waiters := List.replicate 63 (.host 0) })] }
     s.poolFree 2 = [] ∧ (s.pool 2).cfg.getLsbD 31 = true ∧ (s.pool 2).waiters.length < 64) ∧
    (let s := { sys with pools := [(2, { taken := [0, 1], cfg := 0x80000000, waiters := List.replicate 64 (.host 0) })] }
     s.poolFree 2 = [] ∧ (s.pool 2).cfg.getLsbD 31 = true ∧ 64 ≤ (s.pool 2).waiters.length) ∧
    1 ∉ (sys.pool 2).taken := by
  decide

/-! ## Fabric, spans, RMA (O32 to O38) -/

/-- Port 0 up with the neighbour 0x99 at address 9 heard at 0; the device itself is at address 4. -/
def adj9 : Adj := { unit := 0x99, address := 9, port := 1, cap := 0x1F01 }
def port0 : Port := { enable := true, link := .up, adjs := [adj9] }
def fabric4 : State :=
  { sys with fab := { addrState := .assigned, address := 4, ports := [(0, port0)], routes := [(9, { valid := true, hops := 1, ports := [0] })] } }

theorem wit_ports :
    sys.hasPort 17 = true ∧ sys.hasPort 18 = false ∧ (sys.port 0).adjs = [] ∧ (0x80000000 : W32).getLsbD 30 = false ∧
    (fabric4.port 0).enable = true ∧ (0 : W32).getLsbD 31 = false ∧ (fabric4.port 0).adjs ≠ [] ∧ (sys.port 0).link = .down ∧
    fabric4.portUp 0 = true ∧ (fabric4.port 0).link ≠ .down ∧
    (∀ w ∈ [0x1F01, 0x1F02],
      let cap : W64 := BitVec.ofNat 64 w
      let s := { fabric4 with fab := { fabric4.fab with addrState := .none, ports := [(0, { port0 with adjs := [] })] } }
      s.portUp 0 = true ∧ (0x99 : W64) ≠ s.unitId ∧ (s.port 0).mode = false ∧ (s.port 0).adjs = [] ∧
        compatible cap = decide (cap = 0x1F01) ∧ s.fab.addrState = .none ∧ s.fab.db = []) ∧
    (fabric4.port 0).adjs.find? (fun y => decide (y.unit = 0x99)) = some adj9 ∧ adj9.lastAt + 3000000 ≤ max fabric4.clock 3000000 ∧
    max fabric4.clock 2999999 < adj9.lastAt + 3000000 := by
  decide

def lsr9 (unit : W64) : Lsr := { unit := unit, address := 4, astate := 3, seq := 1, adj := [] }

theorem wit_routing :
    fabric4.adjacencies.any (fun a => decide (a.1 = 0) && decide (a.2.unit = 0x99)) = true ∧ (0x99 : W64) ≠ fabric4.unitId ∧
    AMap.get none fabric4.fab.db (0x99 : W64).toNat = none ∧ fabric4.fab.addrState = .assigned ∧
    (lsr9 0x99).address = fabric4.fab.address ∧ (lsr9 0x99).astate = 3 ∧ (0x99 : W64).toNat < fabric4.unitId.toNat ∧
    (let s := { fabric4 with fab := { fabric4.fab with db := [(0x99, some (lsr9 0x99, 0))], addrState := .tentative } }
     s.newerLsr (lsr9 0x99) = false ∧ s.fab.addrState ≠ .none ∧ s.fab.addrState ≠ .failed ∧ s.fab.addrState = .tentative ∧
       s.fab.since + 20000000 ≤ max s.clock 20000000 ∧ AMap.get none s.fab.db (0x99 : W64).toNat = some (lsr9 0x99, 0) ∧
       0 + 3500000000 ≤ max s.clock 3500000000 ∧ max s.clock 3499999999 < 0 + 3500000000) ∧
    sys.fab.addrState = .none ∧ (∀ n < 32, sys.spanRec n = none ∧ (sys.part n).rma.opened = []) := by
  decide

/-- The frame in which the neighbour 0x99 sends a packet to port 0. -/
def framed (h : Bft) : Bytes := macOf 0x1234 0 ++ macOf 0x99 1 ++ [0x88, 0xB5] ++ h.bytes

/-- P3's image with span 0x55 of the members 4, 9 and 10, in which this device is member `self`. -/
def imageSpan (self : Nat) : PartImage :=
  { image3 with spans := [{ spanId := 0x55, self := self, members := [4, 9, 10], digest := 0xABCD }], chans := [] }
def spanned (self : Nat) (x : Span) (ls : List Launch) : State :=
  { fabric4 with parts := [(3, { st := .active, image := some (imageSpan self), span := x, launches := ls })] }

/-- Channel 1 of that image goes from endpoint 0 of core 0 to the member at index 1, as a packet channel. -/
def spanned9 : State :=
  { fabric4 with parts := [(3, { st := .active, image := some { imageSpan 0 with
                                   chans := [{ chan := 1, kind := 1, credits := 4, src := 0, dst := 0xFC00, dstMember := 1 }] } })],
                 cores := [(0, { core0 with eps := [(0, sendEp)] })] }

theorem wit_packets :
    fabric4.portUp 0 = true ∧ (([] : Bytes).drop 12).take 2 ≠ [0x88, 0xB5] ∧ (fabric4.unwrap 0 []).bind Bft.parse = none ∧
    (let h : Bft := { type := 4, dst := 9, src := 9, spanId := 0x55, hops := 0 }
     (fabric4.unwrap 0 (framed h)).bind Bft.parse = some h ∧ h.type ≠ 2 ∧ h.type ≠ 3 ∧
       fabric4.sender 0 (framed h) = some adj9 ∧ adj9.mismatch = false ∧ h.dst ≠ fabric4.fab.address ∧ h.hops = 0 ∧
       ({ fabric4 with fab := { fabric4.fab with ports := [(0, { port0 with adjs := [{ adj9 with mismatch := true }] })] } } : State).sender
         0 (framed h) = some { adj9 with mismatch := true }) ∧
    (let h : Bft := { type := 4, dst := 8, src := 9, spanId := 0x55 }
     (fabric4.unwrap 0 (framed h)).bind Bft.parse = some h ∧ h.dst ≠ fabric4.fab.address ∧ h.hops ≠ 0 ∧
       (fabric4.route h.dst).valid = false) ∧
    (let h : Bft := { type := 4, dst := 9, src := 9, spanId := 0x55, hops := 1 }
     (fabric4.unwrap 0 (framed h)).bind Bft.parse = some h ∧ h.hops ≠ 0 ∧ fabric4.neighbour 0 9 = some adj9) ∧
    (let h : Bft := { type := 4, dst := 4, src := 9, spanId := 0x55 }
     (fabric4.unwrap 0 (framed h)).bind Bft.parse = some h ∧ h.dst = fabric4.fab.address ∧ fabric4.speaks = true ∧
       fabric4.spanTarget h.spanId h.src = none) ∧
    (let h : Bft := { type := 0, dst := 4, src := 9, spanId := 0x55, stream := 1, cls := 2 }
     let s := spanned9
     let ep := s.ep 0 0
     (s.unwrap 0 (framed h)).bind Bft.parse = some h ∧ (s.spanTarget h.spanId h.src).map (fun x => (x.1, x.2.2)) = some (3, 1) ∧
       seqKind (s.rxStream h).next ((s.rxStream h).held.map Prod.fst) 0x10000 = .stray ∧ h.seq = (s.rxStream h).next ∧
       (s.rxStream h).held = [] ∧ (s.rxStream h).unacked < 15 ∧
       (((s.image 3).getD {}).channel (h.stream % 4096)).map (fun c => (c.kind, c.leaves, c.src)) = some (1, true, 0) ∧ h.cls ≠ 1 ∧
       s.member 3 1 = h.src ∧ ep.valid = true ∧ ep.epoch = 0) := by
  decide +kernel

theorem wit_long_frame : 9216 < ((List.replicate 9231 (0 : Byte)).drop 14).length := by
  rw [List.length_drop, List.length_replicate]; decide

/-- A route of one port is taken whatever the hash gives. -/
theorem wit_next_hop : fabric4.nextHop { dst := 9 } = some { dst := 9 } := by
  have h : fabric4.route ({ dst := 9 } : Bft).dst = { valid := true, hops := 1, ports := [0] } := by rfl
  unfold State.nextHop
  simp only [h, List.length_singleton, Nat.mod_one]
  rfl

/-- The published check value of CRC-32C (R465), over the digits 1 to 9. -/
theorem test_crc : crc32c [0x31, 0x32, 0x33, 0x34, 0x35, 0x36, 0x37, 0x38, 0x39] = 0xE3069283 := by decide +kernel

theorem wit_acks :
    (let y : RxStream := { src := 9, type := 4, spanId := 0x55, unacked := 1 }
     let s := { fabric4 with fab := { fabric4.fab with rx := [y] } }
     s.fab.rx[0]? = some y ∧ s.fab.rx.find? (fun z => z.named y.src y.type y.spanId y.stream) = some y ∧ y.unacked ≠ 0) ∧
    (∀ sends ∈ [1, 7, 8],
      let x : TxStream := { dst := 9, type := 4, spanId := 0x55, part := 3, sent := [(2, [], sends, 0)] }
      let s := { spanned 0 {} [] with fab := { fabric4.fab with tx := [x] } }
      s.fab.tx[0]? = some x ∧ x.sent.find? (fun q => decide (q.1 = (2 : W32).toNat)) = some ((2 : W32).toNat, [], sends, 0) ∧
        0 + bits s.fab.rto.toNat 15 0 * 2 ^ (sends - 1) * 1000 ≤ max s.clock 6400000 ∧
        (s.spanRec x.part).bind (fun r => r.indexOf x.dst) = some 1 ∧
        (({ s with parts := [] } : State).spanRec x.part).bind (fun r => r.indexOf x.dst) = none) := by
  decide

theorem wit_spans :
    (let h : SpanHead := { src := 9, spanId := 0x55 }
     let s := spanned 0 {} []
     s.speaks = true ∧ ({ s with fab := { s.fab with addrState := .tentative } } : State).speaks = false ∧
       s.spanTarget 0x55 8 = none ∧ (s.spanTarget 0x55 h.src).map (fun x => (x.1, x.2.2)) = some (3, 1) ∧
       (s.rxStream { type := 4, src := 9, spanId := 0x55 }).next = h.seq.toNat ∧ (s.rxStream { type := 4, src := 9, spanId := 0x55 }).held = [] ∧
       (s.part 3).span.joined = [] ∧ (0x1F01 : W64).getLsbD 9 = true ∧ s.spanRec 3 = (imageSpan 0).span? ∧
       (imageSpan 0).chans = [] ∧
       -- the first of two members, then the second
       0 + 1 + 1 < 3 ∧ ((spanned 0 { joined := [(2, 1)] } []).part 3).span.joined.length + 2 = 3 ∧
       ((spanned 0 { joined := [(1, 1)] } []).part 3).span.joined.any (fun j => decide (j.1 = 1)) = true) ∧
    (let h : SpanHead := { src := 4, spanId := 0x55 }
     let l := { launch4 with remote := true, epoch := 1 }
     let s := spanned 1 { st := .joining } [l]
     (s.spanTarget 0x55 h.src).map (fun x => (x.1, x.2.1.self, x.2.2)) = some (3, 1, 0) ∧ (s.part 3).st ≠ .held ∧
       (s.part 3).spanLaunch 0 1 = some l ∧ l.started = none ∧ (s.part 3).span.st = .joining) ∧
    (let l := { launch4 with remote := true, epoch := 1, started := some 0 }
     let s := { spanned 1 { st := .ready } [l] with cores := [(0, { core0 with run := { run0 with launch := 4 } })] }
     (s.part 3).spanLaunch 0 1 = some l ∧ l.started.isSome = true ∧ s.launch 3 4 = some l ∧
       l.ends.any (fun e => decide (e.1 = 0)) = false ∧ (s.core 0).busy = true ∧ (s.core 0).run.launch = l.id ∧
       (s.part 3).span.st = .ready) ∧
    (let l := { launch4 with owing := [1, 2], started := some 0, epoch := 1, lostAt := some 0 }
     let s := spanned 0 { st := .ready } [l]
     (s.part 3).spanLaunch 0 1 = some l ∧ l.owing.contains 1 = true ∧ l.over = false ∧ s.launch 3 l.id = some l ∧
       l.lostAt.any (fun a => decide (a + 20000000 ≤ max s.clock 20000000)) = true) := by
  decide

/-- A WORK queue of P3 in ring 2 with one record unread, and connection 4095 to its peer at address 9. -/
def workRing : Ring := { cfg := 0x40000000, size := 16, enabled := true, prod := 1 }
def conn9 : Conn := { st := .opened, peerAddr := 9, peerPart := 3, peerConn := 1, granted := 8, peerCap := 0x1F01, allowed := 1 }
def rmaAt (k : Conn) : State :=
  { fabric4 with rings := [(2, workRing)],
                 parts := [(3, { st := .active, image := some image3,
                                 rma := { conns := [(4095, k)], windows := [(0, { enable := true, rights := 7, region := 5, len := 1 })],
                                          listeners := [(0, { enable := true, port := 7, units := 4 })] } })] }
/-- A work record for connection 4095: operation, flags, LEN, the request's remote offset. -/
def workRec (op flags len space : Byte) : Bytes :=
  [op, flags, 0xFF, 0x0F, 0, 0, 0, 0, len, 0, 0, 0, 0, space, 0, 0] ++ List.replicate 48 0

theorem wit_work :
    (∀ op ∈ [(1 : Byte), 2, 3, 4, 5, 6, 0x11],
      let b := workRec op 0 (if op < 4 ∨ op = 6 then 8 else 0) 0
      let s := rmaAt conn9
      s.workReady 3 2 b = true ∧ s.absRing 3 2 = some 2 ∧ field b 2 2 < 4096 ∧ (s.conn 3 (field b 2 2)).st = .opened ∧
        badRecord b = false ∧ serialNewer (BitVec.ofNat 32 (field b 4 4)) (s.ring 2).lserial = true ∧ field b 0 1 = op.toNat ∧
        (op < 4 → field b 8 4 ≠ 0) ∧ field b 13 1 = 0 ∧ field b 24 8 % 8 = 0 ∧ conn9.peerCap.getLsbD 11 = true ∧ conn9.atomics < 64 ∧
        bit (field b 1 1) 2 = false ∧ conn9.allowed ≠ 0 ∧ conn9.works = []) ∧
    (let b := workRec 0x10 0 0 0
     (rmaAt {}).workReady 3 2 b = true ∧ badRecord b = false ∧ ((rmaAt {}).conn 3 4095).st = .closed) ∧
    (let s := { rmaAt conn9 with rings := [(2, { workRing with lserial := 0 })] }
     s.workReady 3 2 (workRec 1 0 8 0) = true ∧ serialNewer 0 (s.ring 2).lserial = false ∧ bit (field (workRec 1 0 8 0) 1 1) 3 = false) ∧
    (field (workRec 1 0 8 0) 0 1 = 1 ∧ (List.replicate 8193 (0 : Byte)).length ≤ 2 ^ 24) := by
  refine ⟨?_, ?_, ?_, ?_, ?_⟩
  · decide
  · decide
  · decide
  · decide
  · rw [List.length_replicate]; decide

def rpkt (src : Nat) (seq : W32) (data : Bytes) : RmaPkt :=
  { src := src, partFrom := 3, partTo := 3, peerConn := 1, conn := 4095, seq := seq, op1 := 0x400, data := data }

theorem wit_connections :
    (let x : RmaPkt := { rpkt 9 0 [] with conn := 0, roff := 7 }
     let s := rmaAt {}
     s.speaks = true ∧ x.reserved = false ∧
       ((s.part 3).rma.listener (bits x.roff.toNat 15 0)).map Listener.bufs = some 0 ∧ (s.part 3).st = .active ∧
       (s.part 3).molting = false ∧
       x.op1.getLsbD 10 = true ∧ (s.part 3).rma.reserved < 4096 ∧
       ((s.part 3).rma.listener 8) = none ∧
       ({ (s.part 3).rma with conns := [] } : Rma).listener 7 = (s.part 3).rma.listener 7) ∧
    (let k := { conn9 with st := .connecting, sends := 7 }
     let s := rmaAt k
     (s.conn 3 4095).st = .connecting ∧ k.fromPeer (rpkt 9 0 []) = true ∧
       k.sentAt + 1000 * bits s.fab.rto.toNat 15 0 * 2 ^ (k.sends - 1) ≤ max s.clock 3200000 ∧ k.sends < 8 ∧
       ¬ k.sentAt + 1000 * bits s.fab.rto.toNat 15 0 * 2 ^ (k.sends - 1) ≤ max s.clock 3199999) ∧
    (let q : SentPkt := { seq := 6, out := { op := 3, pkt := noPkt, work := 2, at0 := 0 }, sends := 8 }
     let w : Work := { id := 2, op := 3, left := 1, region := some 5, laddr := 0x7FFFFFF8 }
     let k := { conn9 with sent := [q], works := [w] }
     let s := rmaAt k
     let x := rpkt 9 6 [1, 2, 3, 4, 5, 6, 7, 8]
     s.conn 3 4095 = k ∧ k.st = .opened ∧ k.fromPeer x = true ∧ k.peerConn = x.peerConn ∧ k.bufs = [] ∧ k.waiting = [] ∧
       (∀ q ∈ k.sent, ackedSeq x.ack.toNat q.seq = false) ∧ s.fab.tx = [] ∧
       k.sent.find? (fun q => decide (q.seq = x.seq.toNat)) = some q ∧
       k.works.find? (fun w => decide (w.id = q.out.work)) = some w ∧ w.left = 1 ∧ x.status = 0 ∧ w.region = some 5 ∧
       s.tagOk 3 5 (w.laddr + q.out.at0) x.data.length = true ∧
       k.sent.find? (fun q => decide (q.seq = (6 : W32).toNat) && needsReply q.out.op) = some q ∧
       q.lastAt + 1000 * bits s.fab.rto.toNat 15 0 * 2 ^ (q.sends - 1) ≤ max s.clock 6400000 ∧ 8 ≤ q.sends) := by
  decide

theorem wit_inbound :
    (let x : RmaPkt := { rpkt 9 0 (List.replicate 8 1) with roff := 4088, op0 := 8 }
     let s := rmaAt conn9
     s.speaks = true ∧ x.reserved = false ∧ InTurn s x ∧ AcksNone s x ∧ (s.part 3).st = .active ∧ s.windowAt 3 x 1 8 = some (5, 4088) ∧ s.windowAt 3 x 2 8 = some (5, 4088) ∧
       s.windowAt 3 x 0 8 = some (5, 4088) ∧ s.tagOk 3 5 4088 8 = true ∧ x.flags.getLsbD 2 = false ∧
       s.windowAt 3 { x with roff := 4089 } 1 8 = none ∧ (s.region 5).poison = [] ∧
       (0 : W64) ≠ x.op0 ∧ conn9.bufs = [] ∧ s.neighbour 0 9 = some adj9 ∧ s.portUp 0 = true ∧ 8 + 32 ≤ (s.port 0).maxPayload) ∧
    (let k := { conn9 with bufs := [1], pool := 2 }
     InTurn (rmaAt k) (rpkt 9 0 (List.replicate 64 1)) ∧ AcksNone (rmaAt k) (rpkt 9 0 (List.replicate 64 1)) ∧ ((rmaAt k).poolRec 2).map PoolRec.bufSize = some 64) ∧
    seqKind 1 [] (0 : W32).toNat = .again ∧ conn9.fromPeer (rpkt 8 0 []) = false ∧
    ((rpkt 9 0 []).peerConn = conn9.peerConn ∧ ({ rpkt 9 0 [] with peerConn := 2 } : RmaPkt).peerConn ≠ conn9.peerConn) := by
  refine ⟨⟨?_, ?_, ?_, ?_, ?_⟩, ⟨?_, ?_, ?_⟩, ?_⟩
  · decide
  · decide
  · unfold InTurn; decide
  · exact ⟨nofun, nofun⟩
  · decide
  · unfold InTurn; decide
  · exact ⟨nofun, nofun⟩
  · decide
  · decide

/-! ## Time and observation (O39 to O42) -/

/-- The device out of bring-up, its time unit as `x`. -/
def inService (x : Tim) : State := { fabric4 with tim := x, bup := { st := .done, step := 9, nxt := 10 } }

theorem wit_pps :
    (inService { cfg := 1 }).ppsOn = false ∧
    (∀ q ∈ [6, 7], (inService { st := .free, cfg := 1, qualPps := q }).ppsOn = true ∧
      (inService { st := .free, cfg := 1, qualPps := q }).tim.timeRef = true) ∧
    (9999998 ≤ 9999998 ∧ 9999998 ≤ 10000002) ∧ (9999997 < 9999998 ∨ 10000002 < 9999997) ∧
    (∀ m ∈ [0, 1], let x : Tim := { st := .locked, source := 1, cfg := 1, ppsLost := false, ppsMissed := m }
      (inService x).ppsOn = true ∧ x.ppsLastAt + (x.ppsMissed + 1) * 1000000000 + 1000000 ≤ max (inService x).clock 2001000000) ∧
    ((3 : W32).getLsbD 0 = true ∧ (0 : W32).getLsbD 1 = false) := by
  decide

theorem wit_ptp :
    (let x : Tim := { st := .locked, source := 2, cfg := 2, qualPtp := 7, ptpDelay := true, ptpOffset := some 5, ptpTwoStep := true,
                      master := some { valid := true, identity := 1, slavePort := 0, stepsRemoved := 0, clockClass := 6 } }
     let s := inService x
     s.ptpOn = true ∧ ((1005 : Int) - 5).natAbs ≤ 1000 ∧ 1000 < ((1006 : Int) - 5).natAbs ∧ max s.clock 2999999999 < x.ptpGoodAt + 3000000000 ∧
       x.ptpGoodAt + 3000000000 ≤ max s.clock 3000000000 ∧ s.ptpPort 0 = true ∧ s.gmHeard = true ∧ { s with tim := { x with master := none } }.gmHeard = false ∧
       s.ptpMasterOn 0 = false) ∧
    (inService { st := .locked, source := 1, ptpCfg := 0x00808000 }).ptpMasterOn 0 = true := by
  decide

theorem wit_correction :
    (∀ x ∈ ([{ st := .brumation }, { st := .locked, source := 1 }, { st := .off }, { st := .free }] : List Tim),
      (inService x).tim.slew = 0 ∧ (inService x).tim.hold = none ∧ (inService x).tim.stepPending = none) ∧
    (let s := inService { st := .locked, slew := 20 }
     s.tim.slew ≠ 0 ∧ slewDone s.tim.slew (max s.clock 1000000 - s.tim.at0) = s.tim.slew) ∧
    (let s := inService { st := .locked, hold := some 10 }
     s.tim.hold = some 10 ∧ ((10 : Nat) : Int) ≤ (s.at 10).corrected ∧ (s.at 9).corrected < (10 : Nat)) ∧
    (let s := inService { st := .locked, stepPending := some 7, ppsOutAt := some 500000000 }
     s.tim.st ≠ .off ∧ (s.at 1000000001).corrected % 1000000000 ≤ 1 ∧ s.tim.ppsOutAt = some 500000000 ∧
       500000000 + 500000000 ≤ max s.clock 1000000001) := by
  decide

theorem wit_observation :
    (15 : Fin 64).val < 16 ∧ sys.tim.st = .off ∧
    (let s := { inService { st := .free } with snap := { armed := true, time := 5 } }
     s.snap.armed = true ∧ s.tim.st ≠ .off ∧ s.snap.time.toNat ≤ (s.at 5).now ∧ (s.at 4).now < s.snap.time.toNat) ∧
    (let s := { sys with flt := { waiting := [{ kind := 2, valid := true, part := 3 }] } }
     s.flt.waiting[0]? = some { kind := 2, valid := true, part := 3 } ∧ s.flt.emptySlot = some 0) ∧
    (let s := { sys with link := { sys.link with msix := [(11, 1), (4099, 1)] } }
     s.vecMasked 0 2 = false ∧ s.vecMasked (3 + 1) 0 = false) ∧ sys.reaches (.vf 3) = true ∧ sys.reaches (.vf 31) = false ∧
    ((AMap.get {} sys.flt.slots 255).valid = false) ∧ (1 : W32).getLsbD 0 = true ∧ (2 : W32).getLsbD 0 = false ∧
    (let s := inService { st := .free }
     (s.at 1000000).mono % 1000000 = 0 ∧ (s.at 1000001).mono % 1000000 ≠ 0) := by
  decide

/-- A full log: every slot holds a record. -/
theorem wit_full_log : let l : FltLog := { slots := (List.range 256).map (fun i => (i, { kind := 1 })) }
    l.emptySlot = none := by decide +kernel

theorem wit_lamps :
    sys.reaches (.vf 3) = true ∧ sys.lampControl (.vf 3) 0 = true ∧ sys.lampControl .pf 0 = false ∧ sys.lampControl .pf 11 = true ∧
    lampFits 0x00140100 = true ∧ lampFits 0x00C80100 = true ∧ lampFits 0x00C90100 = false ∧ lampFits 0x00140101 = false ∧
    sys.rails.good.getLsbD 7 = true ∧ (sys.lamp 0).pending = none ∧ (State.reset).rails.good.getLsbD 7 = false ∧
    lampMeasured 0 11 0 = true ∧ lampMeasured 0 10 0 = false ∧ (sys.lamp 0).fails = 0 ∧ (sys.lamp 0).status ≠ 2 ∧
    (sys.lamp 0).measuredAt + 1000000000 < max sys.clock 1000000001 ∧
    max sys.clock 1000000000 ≤ (sys.lamp 0).measuredAt + 1000000000 := by
  decide

theorem wit_test_access :
    sys.test.unlocked = false ∧ (0x80000000 : W32).getLsbD 31 = true ∧
    sys.tmxPublic false (0x80000005 &&& 0x8003FFFF) = true ∧ sys.tmxPublic false (0x80000006 &&& 0x8003FFFF) = false ∧
    sys.tmxPublic true (0x80000005 &&& 0x8003FFFF) = false ∧ [true, false].length = [false, false].length := by
  decide

/-! ## Registers, rails, the host link (O43 to O45) -/

theorem wit_registers :
    (∃ v, (sys.at 0).shown .pf 0xA0000 = .half false v ∧ ((sys.at 0).at 1).shown .pf (0xA0000 + 4) = .half true v) ∧
    ((0x10000 : W32) &&& 0xFFFF = 0 ∧ (0x10001 : W32) &&& 0xFFFF ≠ 0) ∧ (2 : Nat) % 4 ≠ 0 ∧
    (sys.reaches (.vf 3) = true ∧ sys.reaches (.vf 4) = false ∧ sys.selectedRing (.vf 3) = some 0 ∧ sys.selectedRing .pf = some 0 ∧
      (sys.ring 0).enabled = false) ∧
    (let s := { sys with recals := [(63, { busyUntil := 1000 })] }
     (s.at 999).clock < (AMap.get {} s.recals 63 : Recal).busyUntil ∧ (AMap.get {} s.recals 63 : Recal).busyUntil ≤ (s.at 1000).clock) ∧
    (let s := { sys with recals := [(63, { owed := some 5 })] }
     (AMap.get {} s.recals 63 : Recal).owed = some 5 ∧ (s.at 100000004).clock < 5 + 100000000 ∧
       5 + 100000000 ≤ (s.at 100000005).clock) ∧
    (let s : State := { on {} with fuse := some dk48 }
     (s.core 0).mode = .off ∧ s.coreUp 0 = true) ∧ (0x4000 ≤ 0xFFFC ∧ 0xFFFC < 0x10000 ∧ 0xFFFC % 4 = 0) := by
  refine ⟨⟨_, rfl, rfl⟩, ?_⟩
  decide

/-- What an already bad or a first good rail does; a device held off; the two ways S1 reads. -/
theorem wit_rails :
    State.reset.rails.vaon = false ∧ sys.rails.vaon = true ∧ sys.rails.good &&& BitVec.ofNat 8 (2 ^ Rail.bit .vio) ≠ 0 ∧
    sys.killed = false ∧ ({ sys with trip := { hold := true } } : State).killed = true ∧
    State.reset.rails.good &&& BitVec.ofNat 8 (2 ^ Rail.bit .vio) = 0 ∧ State.reset.rails.good ≠ 0xFF ∧
    (let s := { sys with bup := { st := .running } }
     s.rails.good = 0xFF ∧ s.bup.st = .running ∧ s.bup.step = 0) ∧
    (let s := { sys with bup := { st := .running, step := 1 } }
     s.bup.st = .running ∧ s.bup.step = 1 ∧ s.bup.cmdErr = 0 ∧ s.bup.seq = 0 ∧ s.bup.code = 0 ∧ s.bup.degraded = false) := by
  decide

theorem wit_link :
    (let s := inService {}
     s.powered = true ∧ s.fused = true ∧ s.dead = false ∧ s.committing = false ∧ s.rails.vaon = true ∧
       s.rails.good.getLsbD 7 = true) ∧
    ({ sys with bup := { st := .failed, step := 1 } } : State).dead = true ∧
    (State.reset.powered = false ∧ ({ sys with fuse := none } : State).fused = false ∧ sys.rails.vaon = true) ∧
    (AMap.get [] ([(4, [7])] : AMap Bytes) 4 ≠ [] ∧ AMap.get [] sys.link.ideKeys 4 = []) ∧
    (let s := { inService {} with rails := { good := 0xFF, vaon := true, perstN := true, allGoodAt := 1 }, link := { training := true } }
     s.powered = true ∧ s.fused = true ∧ s.rails.perstN = true ∧ s.link.up = false ∧ s.link.training = true ∧
       s.rails.allGoodAt + 100000000 ≤ (s.at 100000001).clock ∧ (s.at 100000000).clock < s.rails.allGoodAt + 100000000) ∧
    ({ sys with mbx := { run := some { opcode := 0x11 } } } : State).committing = true ∧ sys.link.training = false ∧
    sys.rails.perstN = false := by
  decide

/-! ## The mailbox (O46 to O48) -/

theorem wit_mailbox :
    (let m := { noCmd with commit := 1, tag := 1 }
     sys.takes m ∧ sys.tadpole = true ∧ m.commit = m.tag) ∧
    (let m : MbxCmd := { tag := 0, args := [], commit := 0 }
     sys.mbx.run = none ∧ (m.commit ≠ m.tag ∨ m.commit = 0)) ∧
    (let s := { sys with mbx := { record := [(1, 6, [7])] } }
     s.mbx.run = none ∧ s.mbx.record.find? (fun r => decide (r.1 = 1)) = some (1, 6, [7])) ∧
    (let r : MbxRun := { tag := 1, opcode := 0x11, code := 6 }
     let s := { sys with mbx := { run := some r } }
     s.mbx.run.isSome = true ∧ r.parked = none ∧ ((r.opcode = 0x10 ∨ r.opcode = 0x11) ∧ (r.code = 0 ∨ r.code = 6)) ∧
       s.committing = true) ∧
    (0xFFFFFFC < 0x10000000 ∧ 0xFFFFFFC + ([1, 2, 3, 4] : Bytes).length ≤ 0x10000000 ∧ 0x10000000 ≤ 0x10000000 ∧
      sys.committing = false) := by
  refine ⟨⟨?_, ?_⟩, ?_⟩
  · unfold State.takes; decide
  · decide
  · decide

/-- The header and one record of an image of 272 bytes with this ID: type, PART, the record. -/
def head (kind part : Byte) (rec : Bytes) : Bytes :=
  [0x56, 0x52, 0x53, 0x49, 1, 0, kind, part, 0x10, 1, 0, 0, 2, 0, 0, 0, 7, 0, 0, 0, 0, 0, 0, 0, 1] ++ List.replicate 39 0 ++ rec

/-- Its signature record under the key 1 of P-384, whose public point is the base point (made outside the model). -/
def signed (r s : Nat) (m : Bytes) : Bytes :=
  m ++ [0xFF, 0xFF, 25, 0, 0, 0, 0, 0] ++ beBytes 48 ecGx ++ beBytes 48 ecGy ++ beBytes 48 r ++ beBytes 48 s

def sigR : Nat := 0x77A41D4606FFA1464793C7E5FDC7D98CB9D3910202DCD06BEA4F240D3566DA6B408BBAE5026580D02D7E5C70500C831
def frameImage : Bytes :=
  signed sigR 0xA20B90CBFB2E46798627C9676B203C0CC9B259C078DCF0D45283725D23F6E7EF2D1BB7EA19EC21F832828A0C41116F38
    (head 1 0 [0, 1, 1, 0, 0x48, 0, 0, 0])
def partImage : Bytes :=
  signed sigR 0xBEDBB48CDDFA0182646EE7480E8AE9F74174CC841DA7A0DC9E4E45F0D2D31EDCEBC9037F6E18075547CA6B5FE1C245CC
    (head 2 3 [0, 2, 1, 0, 3, 0, 0, 0])

/-- The digest of that key; the state in which an image of 272 bytes is staged and no partition stands. -/
def digest1 : Bytes := sha384 (0x04 :: (beBytes 48 ecGx ++ beBytes 48 ecGy))
def staged (img : Bytes) (frame : Option Frame) : State :=
  { fuse := some dk48, rails := { good := 0xFF, vaon := true }, digest := some digest1, frame := frame,
    bup := { st := .done, step := 9, nxt := 10, caps := [(0, 0x7F00000102), (1, 0x7F00000102), (2, 0x7F00000102), (3, 0x7F00000102)] },
    stage := { chunks := [0], bytes := ((List.range img.length).zip img).filter (fun x => decide (x.2 ≠ 0)) } }
def commits (args : List W32) : MbxCmd := { tag := 5, args := args, commit := 5 }

/-- The worked signature holds (R136, R137), and fails for a byte changed, a key off the curve, and s of n or more. -/
theorem test_signature :
    (let p := fun a => ((frameImage.drop 80).drop a).take 48
     ecdsaP384 (p 0) (p 48) (p 96) (p 144) (frameImage.take 72) = true ∧
       ecdsaP384 (p 0) (p 48) (p 96) (p 144) (partImage.take 72) = false ∧
       ecdsaP384 (p 48) (p 0) (p 96) (p 144) (frameImage.take 72) = false ∧
       ecdsaP384 (p 0) (p 48) (p 96) (beBytes 48 ecN) (frameImage.take 72) = false) := by decide +kernel

theorem wit_frame_commit :
    let s := staged frameImage none
    let m := commits [0, 272]
    s.mbx.run = none ∧ m.commit = m.tag ∧ m.tag ≠ 0 ∧ s.mbx.record = [] ∧ s.tadpole = false ∧ m.arg 1 = 272 ∧
      ∃ img rs, stage1 s.stage true 0 272 = .inl (img, rs) ∧ stage2 s.digest img rs = none ∧ stage3Frame s.dk36 img rs = none ∧
        stage4Frame (s.at 0) (toFrame img rs) = none ∧ fitFrame (s.at 0) rs = none := by
  refine ⟨rfl, rfl, by decide, rfl, rfl, by decide, ?_⟩
  refine ⟨frameImage, [⟨64, 0x100, 1, [0x48, 0, 0, 0]⟩, ⟨72, 0xFFFF, 25, frameImage.drop 76⟩], ?_, ?_, ?_, ?_, ?_⟩ <;> decide +kernel

/-- A frame image is refused at stage 1 (nothing staged) and at stage 2 (another key). -/
theorem wit_frame_refused :
    (stage1 {} true 0 272 = .inr { reason := 3, off := 0 }) ∧
    (∃ img rs, stage1 (staged frameImage none).stage true 0 272 = .inl (img, rs) ∧
      stage2 none img rs = some { reason := 7, off := 72 }) := by
  refine ⟨by decide +kernel, ?_⟩
  refine ⟨frameImage, [⟨64, 0x100, 1, [0x48, 0, 0, 0]⟩, ⟨72, 0xFFFF, 25, frameImage.drop 76⟩], ?_, ?_⟩ <;> decide +kernel

theorem wit_part_commit :
    let s := staged partImage (some frame3)
    let m := commits [3, 272, 1]
    s.tadpole = false ∧ m.arg 0 ≤ 31 ∧ m.arg 2 ≤ 1 ∧ m.arg 1 = 272 ∧ s.test.unlocked = false ∧ s.overwriting 3 = false ∧
      ({ s with frame := some { frame3 with regions := [{ index := 5, part := 3, size := 8 }] },
                parts := [(3, { ovw := [{ index := 5, part := 3, size := 8 }] })] } : State).overwriting 3 = true ∧
      ∃ img rs l, stage1 s.stage false 3 272 = .inl (img, rs) ∧ stage2 s.digest img rs = none ∧
        stage3Part 3 (s.spanIds 3) img rs = none ∧ stage4Part (s.at 0) 3 (toPartImage img rs) = none ∧
        admission (s.at 0) 3 (toPartImage img rs) = .inl l := by
  refine ⟨rfl, by decide, by decide, by decide, rfl, by decide +kernel, by decide +kernel, ?_⟩
  refine ⟨partImage, [⟨64, 0x200, 1, [3, 0, 0, 0]⟩, ⟨72, 0xFFFF, 25, partImage.drop 76⟩], [], ?_, ?_, ?_, ?_, ?_⟩ <;> decide +kernel

theorem wit_commit_resume :
    let r : MbxRun := { tag := 5, opcode := 0x11, parked := some { part := 3, image := image3 } }
    let s := { sys with mbx := { run := some r } }
    s.mbx.run = some r ∧ r.parked = some { part := 3, image := image3 } ∧ s.overwriting 3 = false := by
  decide

theorem wit_effects :
    (let s := inService {}
     s.tadpole = false ∧ s.takes (commits [31]) ∧ (commits [31]).arg 0 ≤ 31 ∧ 31 < (commits [32]).arg 0 ∧ (s.image 3).isSome = true ∧
       s.image 31 = none ∧ (s.part 3).st ≠ .held) ∧
    (let s := { inService {} with parts := [(3, { st := .held, image := some image3 })] }
     (s.part 3).st = .held) ∧
    (let m := commits [1]
     (List.range 7).all (fun i => decide (m.arg (i + 1) = 0)) = true ∧ m.arg 0 = 1) ∧
    (let s := { inService {} with parts := [] }
     s.fuse.any (fun f => decide (f.tmxLevel.toNat = 1)) = true ∧
       (List.range 32).all (fun k => (s.image k).isNone && (s.part k).ovw.isEmpty) = true) := by
  refine ⟨⟨?_, ?_, ?_⟩, ?_⟩
  · decide
  · unfold State.takes; decide
  · decide
  · decide

/-! ## Bring-up (O49 to O51) -/

/-- Every clause of R123's order at a state and a step that meet it. -/
theorem wit_bringup_commands :
    (let s := { sys with bup := { st := .done, step := 4, nxt := 5, seq := 1 } }
     (2 : Byte) ≠ 0 ∧ (2 : Byte).toNat ≠ s.bup.seq ∧ (1 : Byte).toNat = s.bup.seq ∧ s.bup.seq ≠ 0 ∧ sys.bup.seq = 0 ∧ s.bup.st ≠ .running ∧ 2 ≤ 5 ∧ 5 ≤ 9 ∧ 5 = s.bup.nxt ∧
       4 < s.bup.nxt ∧ 6 ≠ s.bup.nxt ∧ (s.bup.st ≠ .failed ∨ s.bup.step ≠ 5)) ∧
    (let s := { sys with fuse := some { dk48 with policy := 0x4911 },
                         bup := { st := .failed, step := 2, nxt := 2, report := { hubModulesFailed := [4] },
                                  caps := [(0, 0x7F00000102), (1, 0x7F00000102), (2, 0x7F00000102)] } }
     let off := (List.range 4).filter (fun n => badClass (s.cap n) || badVersion (s.cap n))
     s.bup.st = .failed ∧ s.bup.step = s.bup.nxt ∧ off = [3] ∧ bit 0x4911 14 = true ∧ bits 0x4911 13 11 = 1 ∧
       s.bup.report.hubModulesFailed.dedup.length ≤ 1) ∧
    (let s := { sys with fuse := some { dk48 with policy := 0x11 }, bup := { st := .failed, step := 3, nxt := 3, groupsOff := 1 } }
     s.lostGroups = 0 ∧ (1 : W64).getLsbD 0 = true ∧ bits 0x11 3 0 = 1 ∧ bits 0x11 7 4 = 1) ∧
    (let s := { sys with fuse := some { dk48 with policy := 0x100 },
                         bup := { st := .failed, step := 5, nxt := 5, report := { badStacks := [(7, .train)] } } }
     ((s.bup.report.badStacks.map (fun x => x.1.val)).dedup).length ≤ bits 0x100 10 8 ∧ s.bup.step = 5) ∧
    ({ sys with bup := { st := .done, step := 6, nxt := 7 } } : State).bup.nxt = 7 ∧ (inService {}).tadpole = false ∧ sys.tadpole = true := by
  decide +kernel

theorem wit_bringup_steps :
    (∀ k ∈ [2, 3, 4, 5, 6, 7, 8, 9], let s := { sys with bup := { st := .running, step := k, nxt := k } }
      s.bup.st = .running ∧ s.bup.step = k) ∧
    ((inService {}).bup.st ≠ .running) ∧ sys.digest = none ∧ sys.tim.hold = none ∧ sys.sensorMapped 559 = false ∧ sys.hasPort 0 = true ∧
    (let d := (List.range 12).flatMap (fun i => leBytes 4 (AMap.get 0 sys.bup.keydig i).toNat)
     d.all (fun b => decide (b = 0)) = true) := by
  decide

/-! ## The sideband, trips, power, tempo, the machine (O52 to O60) -/

/-- The sideband with an address on a powered device. -/
def side (x : Sideband) : State := { inService {} with sb := { x with addr := some 9 }, frame := none }

theorem wit_sideband :
    sys.sb.addr = none ∧ (side {}).sbOn = true ∧ ((0x5B : BitVec 7) ≠ 0x5C) ∧
    (∀ d < 29, (side {}).diePowered d = true) ∧ (∃ d < 29, State.reset.diePowered d = false) ∧
    (let first : BitVec 16 := 559
     let n : Byte := 1
     n ≠ 0 ∧ first.toNat + n.toNat ≤ 560 ∧ 560 < first.toNat + (2 : Byte).toNat) ∧
    (∀ x ∈ (List.range 1).map (fun i => 559 + i), (side {}).diePowered (sensorDie x) = true) ∧
    ((11 : Byte).toNat ≤ 11 ∧ 11 < (12 : Byte).toNat ∧ (side {}).rails.good.getLsbD 7 = true) := by
  decide

theorem wit_sideband_writes :
    (AMap.get none (side {}).sb.last 0x20 = none) ∧
    (let r : SbLast := { seq := 3, status := 0, fields := [] }
     AMap.get none (side { last := [(0x20, some r)] }).sb.last 0x20 = some r ∧ r.seq = 3) ∧
    (let w := (924 : BitVec 16).toNat / 25 * 25
     (if (side {}).dk36 then 725 else 900) ≤ w ∧ w ≤ (if (side {}).dk36 then 1250 else 1600)) ∧
    (let w := (899 : BitVec 16).toNat / 25 * 25
     ¬ ((if (side {}).dk36 then 725 else 900) ≤ w ∧ w ≤ (if (side {}).dk36 then 1250 else 1600))) ∧
    ((side {}).pwr.armed = false) ∧
    (let b0 : Byte := 0x1B
     let b1 : Byte := 0
     let b2 : Byte := 200
     256 * (b0.toNat / 16 % 2) + b1.toNat = 256 ∧ ¬ 200 < b2.toNat ∧ ¬ 11 < b0.toNat % 16 ∧ ¬ b0.toNat / 32 ≠ 0 ∧
       (side {}).lampOwner 11 = none) ∧
    ((sys.lampOwner 0).isSome = true) ∧
    (let s := side { armedAt := some 5 }
     s.sb.armedAt = some 5 ∧ (s.at 10000005).clock ≤ 5 + 10000000 ∧ ¬ (s.at 10000006).clock ≤ 5 + 10000000) := by
  decide

theorem wit_trips :
    sys.rails.vaon = true ∧ sys.tripMapped 57 = false ∧ (839 : BitVec 16).toInt < tripAt 57 ∧ tripAt 57 ≤ (840 : BitVec 16).toInt ∧
    State.reset.rails.vaon = false ∧ sys.trip.hold = false ∧
    (let s := { sys with trip := { hold := true, since := some 3 } }
     s.trip.hold = true ∧ s.trip.since = some 3 ∧ 3 + 10000000000 ≤ (s.at 10000000003).clock ∧
       (s.at 10000000002).clock < 3 + 10000000000 ∧
       ∀ y < 58, s.tripMapped y = true ∨ (y ∉ s.trip.broken ∧ (AMap.get (0 : BitVec 16) [(57, 679)] y).toInt < rearmAt y)) := by
  decide

theorem wit_power :
    sys.pwr.armed = false ∧
    (let s := { sys with frame := none, pwr := { armed := true, opLimit := 900, steps := 1, coolSince := some 0 } }
     s.pwr.armed = true ∧ s.powered = true ∧ s.limit = 875 ∧ s.anyBand 1 = false ∧ s.anyBand 2 = false ∧ s.limit < 876 ∧
       850 + 25 ≤ s.limit ∧ (875 ≤ s.limit ∧ s.limit < 875 + 25) ∧ 0 < s.pwr.steps ∧ s.pwr.coolSince = some 0 ∧
       0 + 100000000 ≤ (s.at 100000000).clock ∧ s.pwr.stepsAt + 100000000 ≤ (s.at 100000000).clock ∧ s.vcore 0 = 750) ∧
    (let s := { sys with pwr := { armed := true, opLimit := 900, sensors := [(0, { reading := 1000 })] },
                         bup := { st := .done, step := 9, nxt := 10 } }
     s.anyBand 2 = true ∧ s.limit ≠ s.floorSum) ∧
    (sys.sensorMapped 559 = false ∧ (sys.sensor 559).fault = .none ∧ ¬ (1200 : BitVec 16).toInt > 1200 ∧
      1200 < (1201 : BitVec 16).toInt ∧ (-321 : BitVec 16).toInt < -320) := by
  decide +kernel

theorem wit_pace :
    sys.powered = true ∧ sys.coreUp 0 = true ∧ State.reset.powered = false ∧
    (max (sys.core 0).tmonAt sys.rails.allGoodAt + 1000 * 10 ^ bits (sys.core 0).tmonCfg.toNat 1 0 ≤ (sys.at 10000).clock ∧
      ¬ max (sys.core 0).tmonAt sys.rails.allGoodAt + 1000 * 10 ^ bits (sys.core 0).tmonCfg.toNat 1 0 ≤ (sys.at 9999).clock) ∧
    (inService {}).tim.st = .off ∧
    (inService { st := .free }).tim.st ≠ .off ∧
    (let s := { inService { st := .free } with
                  parts := [(3, { st := .active, image := some { image3 with info := [(64, 3, 1)] } })] }
     s.pinned 0 = true ∧ s.pinned 767 = false) := by
  decide

theorem wit_queue : (State.reset).pending = [] ∧ ({ sys with pending := [.vaonWake 0] } : State).pending = .vaonWake 0 :: [] :=
  ⟨rfl, rfl⟩

/-- Bring-up at S3 with the re-arm timer running meets the invariant, and a step of it answers a next state. -/
theorem wit_sound :
    (let s := { sys with bup := { st := .running, step := 3, nxt := 3, seq := 255 }, trip := { hold := true, since := some 0, count := 0xFFFF },
                         stage := { bytes := [(0xFFFFFFF, 1)], chunks := [4095] }, pending := [.tapReset 1] }
     s.Sound ∧ ∃ t, step s = .next t) := by
  refine ⟨?_, _, rfl⟩
  constructor <;> decide

/-! ## Worked examples of the spec -/

def stepped (o : Result) (s : State) : State := match o with | .next t => t | _ => s

/-- "Two devices claim one address" (ch. 16): both candidates, and B's second. -/
theorem test_claim :
    ({ fuse := some { dk48 with unitId := 0x00001A2B3C4D5E6F } } : State).candidate 0 = 0x780A ∧
    ({ fuse := some { dk48 with unitId := 0x0000780900000000 } } : State).candidate 0 = 0x780A ∧
    ({ fuse := some { dk48 with unitId := 0x0000780900000000 } } : State).candidate 1 = 0x880D := by decide

/-- "The hash and its inverse" (ch. 14): stack 6, pseudo-channel 8, local offset 0x91A200. -/
theorem test_placement : ({ mode := 0, size := 64 } : RegionRec).offset 6 8 0x91A200 = 0x123456600 := by decide

/-- "A fan failure" (ch. 19): the trip record of trip sensor 1 at 115.0 °C. -/
theorem test_trip_cause : after (execTripTemp 0 1 0x398 sys) (fun t => decide (t.trip.cause = 0x90010398)) = true := by decide +kernel

/-- The same example: at 103.25 °C TLD0 is in band 2, the limit falls by a step to 1,175 W. -/
theorem test_throttle :
    let s : State := { sys with frame := none, pwr := { armed := true, opLimit := 1200, sensors := [(0, { reading := 400 })] } }
    let s := stepped (execSensorSample 0 0 826 .none s) s
    after (execThermalRound 0 s) (fun t => decide (t.dieBand 0 = 2) && decide (t.limit = 1175)) = true := by decide +kernel

/-- "Proving a dim lamp" (ch. 20): period 255 carries the measured pulse, period 254 does not. -/
theorem test_dim_lamp :
    let s := { sys with frame := none, lamps := [(3, { cfg := 0x81320003, periods := 254 })] }
    let t := stepped (execLampPeriod 254 3 true s) s
    (t.lamp 3).status = 0 ∧ after (execLampPeriod 255 3 true t) (fun u => decide ((u.lamp 3).status = 1)) = true := by decide +kernel

/-- "Exact phase at a large position" (ch. 11): SIN and COS of 1,152,000 of 2^64 turns. -/
theorem test_phase :
    let lane (o : Nat) : V1024 := BitVec.ofNat 1024 ((List.range 32).foldl (fun a i => a + o * 2 ^ (32 * i)) 0)
    let k := regs [(1, 3000000)]
    let i : Issue := { i0 with rd := 8, rs1 := 1, rs2 := 4 }
    let f (op : Nat) (o : Issue → State → Result) : Nat :=
      let s := coded { k with run := { k.run with v := [(4, lane 0x4BC6A7F0), (5, lane 0x00418937)] } } i 7 op
      let t := stepped (o i s) s
      ((stepped (execSfuOpComplete 9 0 t) t).core 0).el 8 0 31
    f 0 execSin = 0x2ADCE4AB ∧ f 1 execCos = 0x3F800000 := by decide +kernel

/-- "Decode-time scoring" (ch. 14): the score of key 0, and the MARKER with TAG 7. -/
theorem test_score :
    let x := BitVec.ofNat 256 (leNat (List.replicate 16 [(0x00 : Byte), 0x3F]).flatten)
    let y := BitVec.ofNat 256 (leNat (List.replicate 16 [(0x80 : Byte), 0x3F]).flatten)
    let u : Nbu := { x := (List.range 8).map (fun i => (i, x)) }
    nbuEntry 0 0 (BitVec.ofNat 32 (nbuScore u 2 0x3DB504F3 (List.replicate 8 y)).1) = 0x8000000040B504F3 ∧
      nbuEntry 2 7 0 = 0x8002000700000000 := by decide +kernel

/-- "A DK48 with a second faulty site" (ch. 04): BUP_STAT, BUP_DETAIL0 and BUP_DETAIL1 when S3 failed. -/
theorem test_second_site :
    let s : State := { sys with fuse := some { dk48 with faulty := [⟨2, 5, 9⟩] },
                                bup := { st := .running, step := 3, nxt := 3, seq := 2, bad := [(37, 0x200)] } }
    after (execBupStepEnd 5 { badSites := [⟨2, 5, 3⟩] } s) (fun t => decide (t.bupStat = 0x0240B330)
      && decide (AMap.get 0 t.bup.detail 0 = 0x205) && decide (AMap.get 0 t.bup.detail 1 = 0x208)) = true := by decide +kernel

end Sys2Proof.Tests
end

section
/-!
PROOFS. Bring-up: how a write of BUP_CMD is ignored or refused (R122, R123).
-/
namespace Sys2Proof.Machine

/-! ## The first case of R123's list -/

section
variable (s : State) {a k : Nat}

theorem State.bupRefusal_badStep (h : 9 < k ∨ k < 2) : s.bupRefusal a k = 2 :=
  if_pos h

theorem State.bupRefusal_busy (lo : 2 ≤ k) (hi : k ≤ 9) (h : s.bup.st = .running) : s.bupRefusal a k = 3 := by
  simp [State.bupRefusal, Nat.not_lt.mpr lo, Nat.not_lt.mpr hi, h]

variable {s} (lo : 2 ≤ k) (hi : k ≤ 9) (rest : s.bup.st ≠ .running)
include lo hi rest

theorem State.bupRefusal_alreadyDone (ha : a = 0) (h : k < s.bup.nxt) : s.bupRefusal a k = 4 := by
  simp [State.bupRefusal, Nat.not_lt.mpr lo, Nat.not_lt.mpr hi, rest, ha, h]

theorem State.bupRefusal_order (ha : a ≠ 0 ∨ s.bup.nxt ≤ k) (h : k ≠ s.bup.nxt) : s.bupRefusal a k = 1 := by
  have done : ¬ (a = 0 ∧ k < s.bup.nxt) := by omega
  simp [State.bupRefusal, Nat.not_lt.mpr lo, Nat.not_lt.mpr hi, rest, done, h]

/-- At the next step only the action is left to refuse: NOT_DEGRADABLE before NOT_FAILED. -/
theorem State.bupRefusal_next (h : k = s.bup.nxt) :
    s.bupRefusal a k =
      if (a = 2 ∧ 5 < k) ∨ (a = 3 ∧ k ≠ 7) then 7
      else if (a = 1 ∨ a = 2) ∧ (s.bup.st ≠ .failed ∨ s.bup.step ≠ k) then 8
      else 0 := by
  have degradable : (!([2, 3, 4, 5] : List Nat).contains k) = true ↔ 5 < k := by
    simp only [List.contains_eq_mem, List.mem_cons, List.not_mem_nil, or_false, Bool.not_eq_true', decide_eq_false_iff_not]
    omega
  have failed : (!(decide (s.bup.st = .failed) && decide (s.bup.step = k))) = true ↔
      s.bup.st ≠ .failed ∨ s.bup.step ≠ k := by
    simp
  simp only [State.bupRefusal, Nat.not_lt.mpr lo, Nat.not_lt.mpr hi, rest, degradable, failed, ← h, Nat.lt_irrefl,
    and_false, or_self, if_false, ne_eq, not_true_eq_false]

theorem State.bupRefusal_notDegradable (h : k = s.bup.nxt) (na : (a = 2 ∧ 5 < k) ∨ (a = 3 ∧ k ≠ 7)) :
    s.bupRefusal a k = 7 := by
  rw [State.bupRefusal_next lo hi rest h, if_pos na]

theorem State.bupRefusal_notFailed (h : k = s.bup.nxt) (ha : a = 1 ∨ (a = 2 ∧ k ≤ 5))
    (nf : s.bup.st ≠ .failed ∨ s.bup.step ≠ k) : s.bupRefusal a k = 8 := by
  have may : ¬ ((a = 2 ∧ 5 < k) ∨ (a = 3 ∧ k ≠ 7)) := by omega
  have asks : a = 1 ∨ a = 2 := ha.imp_right And.left
  rw [State.bupRefusal_next lo hi rest h, if_neg may, if_pos ⟨asks, nf⟩]

end

/-! ## A write of BUP_CMD -/

section
variable (s : State) (seq : Byte) (a k : Nat) (body : State → State)

theorem State.bupCmd_seq_zero : s.bupCmd 0 a k body = { s with bup := { s.bup with cmdErr := 6 } } := by
  simp [State.bupCmd]

variable {s seq a k}

theorem State.bupCmd_seq_repeated (h0 : seq ≠ 0) (h : seq.toNat = s.bup.seq) : s.bupCmd seq a k body = s := by
  rw [State.bupCmd, if_neg h0, if_pos h]

theorem State.bupCmd_refused {e : Nat} (h0 : seq ≠ 0) (hs : seq.toNat ≠ s.bup.seq) (he : s.bupRefusal a k = e + 1) :
    s.bupCmd seq a k body = { s with bup := { s.bup with cmdErr := e + 1 } } := by
  rw [State.bupCmd, if_neg h0, if_neg hs, he]
  rfl

end

/-- The commands of bring-up, each with its ACTION, are writes of BUP_CMD that differ in what they do once accepted. -/
theorem exec_eq_bupCmd {s : State} {τ : Instant} {seq : Byte} {step : BitVec 4} {c : Instr} {a : Nat}
    (hc : (c, a) ∈ [(Instr.bupRun τ seq step, 0), (.bupRetry τ seq step, 1), (.bupDegrade τ seq step, 2),
      (.bupSkip τ seq step, 3)]) :
    ∃ body, exec c s = .next ((s.at τ).bupCmd seq a step.toNat body) := by
  simp only [List.mem_cons, Prod.mk.injEq, List.not_mem_nil, or_false] at hc
  obtain ⟨rfl, rfl⟩ | ⟨rfl, rfl⟩ | ⟨rfl, rfl⟩ | ⟨rfl, rfl⟩ := hc
  · exact ⟨_, rfl⟩
  · exact ⟨_, rfl⟩
  · exact ⟨_, rfl⟩
  · exact ⟨_, rfl⟩

/-- Settles O49: each clause is the refusal of its case of R123's list, carried through the write of BUP_CMD. -/
theorem bringUpRefusals : Obligations.BringUpRefusals := by
  unfold Obligations.BringUpRefusals
  intro s τ seq step now st cmds err c a hc
  obtain ⟨body, hx⟩ := exec_eq_bupCmd (s := s) hc
  refine ⟨?seqZero, ?seqRepeated, ?listed⟩
  case seqZero =>
    rintro rfl -
    exact hx.trans (congrArg _ (State.bupCmd_seq_zero _ a st body))
  case seqRepeated =>
    intro h0 hs
    exact hx.trans (congrArg _ (State.bupCmd_seq_repeated (s := s.at τ) body h0 hs))
  case listed =>
    intro h0 hs
    have refused {e : Nat} (he : s.bupRefusal a st = e + 1) : exec c s = err (e + 1) :=
      hx.trans (congrArg _ (State.bupCmd_refused (s := s.at τ) body h0 hs he))
    exact ⟨fun h => refused (s.bupRefusal_badStep h), fun lo hi =>
      ⟨fun h => refused (s.bupRefusal_busy lo hi h), fun rest =>
        ⟨fun ha h => refused (State.bupRefusal_alreadyDone lo hi rest ha h),
         fun ha h => refused (State.bupRefusal_order lo hi rest ha h), fun h =>
          ⟨fun na => refused (State.bupRefusal_notDegradable lo hi rest h na),
           fun ha nf => refused (State.bupRefusal_notFailed lo hi rest h ha nf)⟩⟩⟩⟩

end Sys2Proof.Machine
end

section
/-!
PROOFS. What a fault makes of the core that it stops (R249-R252).
-/
namespace Sys2Proof.Machine

/-! ## What a fault's own steps leave of a core -/

section
variable (s : State)

theorem State.each_core {α : Type} (l : List α) (f : State → α → State) {c : Nat}
    (h : ∀ t, ∀ x ∈ l, (f t x).core c = t.core c) : (s.each l f).core c = s.core c := by
  induction l generalizing s with
  | nil => rfl
  | cons x l ih =>
    calc (s.each (x :: l) f).core c = (f s x).core c := ih (f s x) fun t y hy => h t y (.tail x hy)
      _ = s.core c := h s x (.head l)

@[simp] theorem State.modLaunch_core (n id c : Nat) (f : Launch → Launch) : (s.modLaunch n id f).core c = s.core c := rfl

@[simp] theorem State.unsent_core (c d : Nat) : (s.unsent c).core d = s.core d := by
  unfold State.unsent
  split
  · rfl
  · exact s.each_core _ _ fun _ _ _ => rfl

theorem State.coreEnds_core (n c id outcome : Nat) (run : CoreRun) :
    { (s.coreEnds n c id outcome run).core c with evc := [] } = { s.core c with evc := [] } := by
  obtain ⟨m, hm⟩ := (s.modLaunch n id _).countCore_core c 0x15 1
  exact congrArg (fun k : Core => { k with evc := [] }) hm

theorem State.coreEnds_core_other (n id outcome : Nat) (run : CoreRun) {c d : Nat} (h : d ≠ c) :
    (s.coreEnds n c id outcome run).core d = s.core d :=
  (OnlyCore.countCore _ c _ _).1 d h

theorem State.abortCore_core_other (n id last : Nat) {c d : Nat} (h : d ≠ c) :
    (s.abortCore n id last c).core d = s.core d := by
  unfold State.abortCore
  dsimp only
  split_ifs <;> simp [State.coreEnds_core_other, State.setCore_other, h]

/-- An abort passes over a core whose part of the launch has ended. -/
theorem State.abortLaunch_core_ended (n id last : Nat) {c : Nat}
    (h : ∀ l, s.launch n id = some l → l.ends.any (fun e => decide (e.1 = c)) = true) :
    (s.abortLaunch n id last).core c = s.core c := by
  unfold State.abortLaunch
  split
  next l hl =>
    refine s.each_core _ _ fun t d hd => t.abortCore_core_other n id last ?_
    rintro rfl
    simp [h l hl] at hd
  · rfl

/-! ## The launch once a core's part has ended -/

theorem State.launch_modLaunch {n id : Nat} {f : Launch → Launch} {l : Launch}
    (h : (s.modLaunch n id f).launch n id = some l) (hf : ∀ l, (f l).id = l.id) : ∃ l', s.launch n id = some l' ∧ f l' = l := by
  have same (l : Launch) : (if l.id = id then f l else l).id = l.id := by
    split
    · exact hf l
    · rfl
  simp only [State.launch, State.modLaunch, State.modPart_eq, State.setPart_same, List.find?_map, Function.comp_def, same,
    Option.map_eq_some_iff] at h
  obtain ⟨l', hl', rfl⟩ := h
  have hid : l'.id = id := by simpa using List.find?_some hl'
  exact ⟨l', hl', (if_pos hid).symm⟩

theorem State.launch_countCore (c a k n id : Nat) : (s.countCore c a k).launch n id = s.launch n id := by
  obtain ⟨m, rs, h⟩ := s.countCore_eq c a k
  rw [h]
  rfl

theorem State.coreEnds_ended {n c id outcome : Nat} {run : CoreRun} {l : Launch}
    (h : (s.coreEnds n c id outcome run).launch n id = some l) : l.ends.any (fun e => decide (e.1 = c)) = true := by
  rw [State.coreEnds, State.launch_countCore] at h
  obtain ⟨l', -, rfl⟩ := s.launch_modLaunch h fun _ => rfl
  dsimp only
  split
  · assumption
  · simp

/-- Where a core's part ends before its launch is aborted, the abort does not come back to the core. -/
theorem State.abortLaunch_coreEnds_core (n c id outcome last : Nat) (run : CoreRun) (f : Launch → Launch)
    (hid : ∀ l, (f l).id = l.id) (hends : ∀ l, (f l).ends = l.ends) :
    { (((s.coreEnds n c id outcome run).modLaunch n id f).abortLaunch n id last).core c with evc := [] } =
      { s.core c with evc := [] } := by
  rw [State.abortLaunch_core_ended, State.modLaunch_core]
  · exact s.coreEnds_core n c id outcome run
  · intro l hl
    obtain ⟨l', hl', rfl⟩ := State.launch_modLaunch _ hl hid
    rw [hends]
    exact s.coreEnds_ended hl'

end

/-! ## The fault -/

/-- What a fault makes of a core that runs a launch: it stops and shows the fault. -/
theorem State.fault_core {s : State} {c : Nat} (h : (s.core c).busy = true) (precise : Bool) (cause detail pc : Nat) (addr : W64) :
    { (s.fault c precise cause detail pc addr).core c with evc := [] } =
      { (s.core c).stop 2 with
        mode := .faulted, fltValid := true, fltPrecise := precise, fltDetail := detail, fltCause := cause, fltPc := pc % 8192,
        fltAddr := if namesAddr cause then addr else Config.faultAddr s.free, evc := [] } := by
  unfold State.fault
  simp only [h, if_true]
  exact (State.abortLaunch_coreEnds_core _ _ _ _ _ _ _ _ (by intro; rfl) (by intro; rfl)).trans (by simp)

theorem State.fault_faulted {s : State} {c : Nat} (h : (s.core c).busy = true) (precise : Bool) (cause detail pc : Nat)
    (addr : W64) : Faulted (s.fault c precise cause detail pc addr) c precise cause detail pc := by
  have hk := State.fault_core h precise cause detail pc addr
  simp only [Core.mk.injEq] at hk
  simp [Faulted, hk, Core.stop]

theorem State.precise_faulted {s : State} {c : Nat} (h : (s.core c).busy = true) (cause detail : Nat) (addr : W64) :
    Faulted (s.precise c cause detail addr) c true cause detail (s.core c).run.pc :=
  State.fault_faulted h true cause detail _ addr

/-- A core that issues runs a launch. -/
theorem Core.issuing_busy {k : Core} (h : k.issuing = true) : k.busy = true := by
  unfold Core.issuing at h
  split at h
  next hm => simp [Core.busy, hm]
  next hm _ => simp [Core.busy, hm]
  · cases h

end Sys2Proof.Machine
end

section
/-!
PROOFS. The system instructions: RDSYS, SQSTAT and CLRF (R242, R247, R373).
-/
namespace Sys2Proof.Machine

/-! ## Issue -/

section
variable {s : State} {i : Issue} {cls op : Nat} (check : Core → Option (Nat × Nat × W64))
  (h : Issues s i) (hw : (s.core i.c).word = i.word cls op)
include h hw

/-- After its fetch (R230, R234) an instruction that uses its fields wrongly comes to nothing but its fault. -/
theorem State.issue_illegal_eq (ready : Core → Bool) (body : State → State) :
    s.issue i cls op false check ready body =
      (if i.code = .corrected then (s.at i.time).countCore i.c 0x12 1 else s.at i.time).precise i.c 1 0 0 := by
  obtain ⟨hissuing, hbudget, hprogram, hcode⟩ := h
  unfold State.issue
  dsimp only
  rw [if_neg, if_neg, if_neg, if_neg, if_pos]
  · rfl
  · simp [hw]
  · exact hcode
  · simp [hprogram]
  · change ¬ (!(s.core i.c).issuing && _ || s.pinned i.c && decide ((s.core i.c).budgetIssues = 0)) = true
    simpa [hissuing] using fun hp => (hbudget hp).ne'

/-- An instruction that uses its fields wrongly is ILLEGAL (R238, R249). -/
theorem State.issue_illegal (ready : Core → Bool) (body : State → State) :
    Faulted (s.issue i cls op false check ready body) i.c true 1 0 (s.core i.c).run.pc := by
  have busy : (s.core i.c).busy = true := Core.issuing_busy h.1
  rw [State.issue_illegal_eq check h hw]
  split
  · have counted : (((s.at i.time).countCore i.c 0x12 1).core i.c).busy = true := by simpa [Core.busy] using busy
    simpa using State.precise_faulted counted 1 0 0
  · exact State.precise_faulted (s := s.at i.time) busy 1 0 0

/-- A legal instruction whose effect is to write a value of the state to RD. -/
theorem State.issue_setReg (hd : definedOp cls op = true) (f : State → W64) {v : W64} (hc : check (s.core i.c) = none)
    (hf : ∀ u, Issued s u i → (u.core i.c).quiet = (s.core i.c).quiet → f u = v) :
    let t := s.issue i cls op true check always (fun u => u.setReg i.c i.d (f u))
    NextPc s t i ∧ RegResult s t i v := by
  obtain ⟨u, e, hi, hq, hp⟩ := s.issue_runs i cls op true check always (fun u => u.setReg i.c i.d (f u)) h hw hd rfl hc rfl
  rw [e, hf u hi hq]
  exact ⟨(State.setReg_pc u i.c i.d v).trans hp, RegResult.setReg hi hq v⟩

end

/-! ## The fields that they use -/

/-- IMM has no bit above its three lowest ones. -/
theorem imm_and_not_seven (x : W32) : x &&& ~~~7 = 0 ↔ x.toNat < 8 := by
  have low : (x.toNat &&& (2 ^ 29 - 1) * 8) % 2 ^ 3 = 0 := by
    rw [Nat.and_mod_two_pow]
    exact Nat.and_zero _
  have high : (x.toNat &&& (2 ^ 29 - 1) * 8) / 2 ^ 3 = x.toNat / 8 := by
    rw [Nat.and_div_two_pow]
    have := x.isLt
    exact Nat.and_two_pow_sub_one_of_lt_two_pow (n := 29) (by omega)
  rw [← BitVec.toNat_inj]
  change (x.toNat &&& (2 ^ 29 - 1) * 8) = 0 ↔ _
  omega

/-- RDSYS uses RD and the three lowest bits of IMM (R238, R247). -/
theorem Issue.uses_rdsys {i : Issue} (hrs1 : i.rs1 = 0) (hrs2 : i.rs2 = 0) (hmd : i.md = 0) :
    i.uses true false false 0 7 = decide (i.imm.toNat < 8) := by
  have himm : decide (i.imm &&& ~~~7 = 0) = decide (i.imm.toNat < 8) := decide_eq_decide.mpr (imm_and_not_seven i.imm)
  rw [Issue.uses, himm]
  simp [hrs1, hrs2, hmd]

/-! ## What they do -/

/-- The flags cleared after an issue (R242). -/
theorem IssuedAs.clearFlags {s u : State} {i : Issue} (h : Issued s u i) (hq : (u.core i.c).quiet = (s.core i.c).quiet)
    (hp : NextPc s u i) :
    IssuedAs s (u.modRun i.c (fun r => { r with vflags := 0 })) i
      { s.core i.c with run := { (s.core i.c).run with vflags := 0 } } := by
  have cleared : ({ u.core i.c with run := { (u.core i.c).run with vflags := 0 } } : Core).quiet =
      ({ s.core i.c with run := { (s.core i.c).run with vflags := 0 } } : Core).quiet :=
    congrArg (fun k : Core => { k with run := { k.run with vflags := 0 } }) hq
  exact ⟨h.then (OnlyCore.setCore _ _ _) rfl (by simp) (by simp), by simpa [NextPc] using hp, by simpa using cleared⟩

/-- An issue leaves what RDSYS can read as it stands at the instant of the issue. -/
theorem Issued.sysValue {s u : State} {i : Issue} (h : Issued s u i) (hq : (u.core i.c).quiet = (s.core i.c).quiet) (sel : Nat) :
    u.sysValue i.c sel = (s.at i.time).sysValue i.c sel := by
  obtain ⟨⟨-, -, hs⟩, hclock, -, -⟩ := h
  have htim : u.tim = s.tim := congrArg (·.tim) hs
  have hnow : u.now = (s.at i.time).now := by
    unfold State.now State.corrected
    rw [htim, hclock]
    rfl
  have hmono : u.mono = (s.at i.time).mono := by
    unfold State.mono
    rw [htim, hclock]
    rfl
  simp only [Core.quiet, Core.mk.injEq, CoreRun.mk.injEq] at hq
  simp only [State.sysValue, State.stamp, State.at_view_core, hnow, hmono, hq]

/-- Settles O16: RDSYS and SQSTAT write a value of the state to RD, an IMM that selects none is a field used wrongly, and CLRF
clears the flags after its issue. -/
theorem systemInstructions : Obligations.SystemInstructions := by
  unfold Obligations.SystemInstructions
  intro s i h hrs1 hrs2 hmd k
  refine ⟨?rdsys, ?rdsysIllegal, ?sqstat, ?clrf⟩
  case rdsys =>
    intro himm hx
    refine ⟨_, rfl, ?_⟩
    rw [Issue.uses_rdsys hrs1 hrs2 hmd, decide_eq_true himm]
    exact State.issue_setReg noFault h (hx.word rfl) rfl _ rfl fun u hu hq => hu.sysValue hq i.imm.toNat
  case rdsysIllegal =>
    intro himm hx
    refine ⟨_, rfl, ?_⟩
    rw [Issue.uses_rdsys hrs1 hrs2 hmd, decide_eq_false himm.not_gt]
    exact State.issue_illegal noFault h (hx.word rfl) _ _
  case sqstat =>
    intro himm hx
    have legal : i.uses true false false 0 0 = true := by simp [Issue.uses, hrs1, hrs2, hmd, himm]
    refine ⟨_, rfl, ?_⟩
    rw [legal]
    refine State.issue_setReg noFault h (hx.word rfl) rfl _ rfl fun u _ hq => ?_
    have hstr : (u.core i.c).run.str = k.run.str := congrArg (·.run.str) hq
    rw [hstr]
  case clrf =>
    intro hrd himm hx
    have legal : i.uses false false false 0 0 = true := by simp [Issue.uses, hrd, hrs1, hrs2, hmd, himm]
    refine ⟨_, rfl, ?_⟩
    obtain ⟨u, e, hu, hq, hp⟩ := s.issue_runs i 9 3 _ noFault always (fun u => u.modRun i.c fun r => { r with vflags := 0 })
      h (hx.word rfl) rfl legal rfl rfl
    rw [e]
    exact IssuedAs.clearFlags hu hq hp

end Sys2Proof.Machine
end

section
/-!
PROOFS. Buffer pools: a take is granted, queued or refused, and a buffer comes back (R452, R454, R461).
-/
namespace Sys2Proof.Machine

/-! ## What a command on one pool changes -/

/-- `t` comes of `s` by a command that leaves pool `p` as `y`: no other pool has moved, and nothing else but the clock, the free
values, what the command shows and the event counters with their records. -/
def OnlyPool (s t : State) (p : Nat) (y : Pool) : Prop :=
  t.pool p = y ∧ (∀ q, q ≠ p → t.pool q = s.pool q) ∧
    { t with clock := s.clock, free := s.free, pools := s.pools, out := s.out, evc := s.evc, flt := s.flt } = s

theorem State.readsWord_read (s : State) (w : W32) : (s.readsWord w).out.read = leBytes 4 w.toNat := rfl

section
variable {s t : State} {p : Nat} {y : Pool}

theorem OnlyPool.setPool (τ : Instant) : OnlyPool s ((s.at τ).drawn.setPool p y) p y :=
  ⟨State.setPool_same _ p y, fun _ hq => State.setPool_other _ p y hq, rfl⟩

theorem OnlyPool.countHub (h : OnlyPool s t p y) (src n : Nat) (tag : Option Nat) : OnlyPool s (t.countHub src n tag) p y := by
  obtain ⟨m, rs, e⟩ := t.countHub_eq src n tag
  rw [e]
  exact h

theorem OnlyPool.readsWord (h : OnlyPool s t p y) (w : W32) : OnlyPool s (t.readsWord w) p y := h

end

/-! ## A take -/

section
variable {s : State} {p : Nat}

/-- With nobody waiting, a take is given one of the free buffers; which one is a free value. -/
theorem State.poolTakeOne_some (hfree : s.poolFree p ≠ []) (hw : (s.pool p).waiters = []) :
    ∃ b ∈ s.poolFree p, s.poolTakeOne p =
      some (b, s.drawn.setPool p { s.pool p with taken := insertNat b (s.pool p).taken }) := by
  have hi : Config.poolPick s.free % (s.poolFree p).length < (s.poolFree p).length :=
    Nat.mod_lt _ (List.length_pos_iff.mpr hfree)
  refine ⟨_, ?_, if_neg (by simp [hfree, hw])⟩
  rw [List.getD_eq_getElem _ _ hi]
  exact List.getElem_mem hi

theorem State.poolTakeOne_none (h : s.poolFree p = [] ∨ (s.pool p).waiters ≠ []) : s.poolTakeOne p = none :=
  if_pos h

variable {n : PartId} (howner : (s.poolRec p).map PoolRec.part = some n.val)
include howner

theorem State.poolTake_granted {b : Nat} {t : State} (h : s.poolTakeOne p = some (b, t)) :
    s.poolTake (.vf n) p = (t.countHub 5 1 (some n.val)).readsWord (BitVec.ofNat 32 (2 ^ 31 + b)) := by
  simp [State.poolTake, howner, h]

variable (hnone : s.poolTakeOne p = none)
include hnone

theorem State.poolTake_queued (hwait : (s.pool p).cfg.getLsbD 31 = true) (hroom : (s.pool p).waiters.length < 64) :
    s.poolTake (.vf n) p =
      (s.drawn.setPool p { s.pool p with waiters := (s.pool p).waiters ++ [.host (Config.poolTicket s.free)] }).readsWord
        (BitVec.ofNat 32 (2 ^ 30 + 2 ^ 29 + (Config.poolTicket s.free).toNat)) := by
  simp [State.poolTake, howner, hnone, hwait, hroom]

/-- EMPTY: the pool is not set to let the host wait. -/
theorem State.poolTake_empty (hwait : (s.pool p).cfg.getLsbD 31 = false) :
    s.poolTake (.vf n) p = s.readsWord 0x40000000 := by
  simp [State.poolTake, howner, hnone, hwait, -BitVec.getLsbD_eq_getElem]

/-- EMPTY and LIST_FULL. -/
theorem State.poolTake_listFull (hwait : (s.pool p).cfg.getLsbD 31 = true) (hfull : 64 ≤ (s.pool p).waiters.length) :
    s.poolTake (.vf n) p = s.readsWord 0x50000000 := by
  simp [State.poolTake, howner, hnone, hwait, Nat.not_lt.mpr hfull]

end

/-! ## A free -/

theorem State.poolReturn_free {s : State} {p : Nat} (hw : (s.pool p).waiters = []) (b : Nat) :
    s.poolReturn p b = s.setPool p { s.pool p with taken := (s.pool p).taken.filter (fun i => decide (i ≠ b)) } := by
  simp [State.poolReturn, hw]

section
variable {s : State} {n : PartId} {p : Nat} {r : PoolRec} {v : W32} (hrec : s.poolRec p = some r) (howner : r.part = n.val)
include hrec howner

/-- A free of a buffer that is taken gives it back. -/
theorem State.poolPut_returned (hlt : bits v.toNat 19 0 < r.bufCount) (htaken : bits v.toNat 19 0 ∈ (s.pool p).taken) :
    s.poolPut (.vf n) p v = s.poolReturn p (bits v.toNat 19 0) := by
  simp [State.poolPut, hrec, howner, Nat.not_le.mpr hlt, htaken]

/-- A free that is ignored counts for the pool's partition and for PF0 (R461). -/
theorem State.poolPut_ignored (h : r.bufCount ≤ bits v.toNat 19 0 ∨ bits v.toNat 19 0 ∉ (s.pool p).taken) :
    s.poolPut (.vf n) p v =
      { s.setPart n.val { s.part n.val with poolErr := sat32 ((s.part n.val).poolErr + 1) } with
        poolErr := sat32 (s.poolErr + 1) } := by
  simp [State.poolPut, hrec, howner, h]

end

/-! ## The commands through an enabled VF -/

section
variable {s : State} {f : Fn} (h : s.reaches f = true) (τ : Instant) (pool : Fin 1024)
include h

theorem exec_poolTake_reached : exec (.poolTake τ f pool) s = .next ((s.at τ).poolTake f pool.val) :=
  congrArg Host.Outcome.next (if_pos h)

theorem exec_poolFree_reached (v : W32) : exec (.poolFree τ f pool v) s = .next ((s.at τ).poolPut f pool.val v) :=
  congrArg Host.Outcome.next (if_pos h)

end

/-- Settles O31: a take through the owner's VF is granted where a buffer is free and nobody waits, and is otherwise answered by WAIT
and the length of the list; a free gives back a buffer that is taken and otherwise only counts. -/
theorem pools : Obligations.Pools := by
  unfold Obligations.Pools
  intro s τ n pool r hrec hpart hreach p x only
  have howner : ((s.at τ).poolRec p).map PoolRec.part = some n.val := by simp [p, hrec, hpart]
  have refused (h : s.poolFree p = [] ∨ x.waiters ≠ []) : (s.at τ).poolTakeOne p = none := State.poolTakeOne_none h
  rw [exec_poolTake_reached hreach]
  refine ⟨?granted, ?empty, ?queued, ?listFull, fun v => ?free⟩
  case granted =>
    intro hfree hw
    obtain ⟨b, hb, htake⟩ := State.poolTakeOne_some (s := s.at τ) (p := p) hfree hw
    rw [State.poolTake_granted howner htake]
    exact ⟨_, b, rfl, hb, ((OnlyPool.setPool τ).countHub 5 1 _).readsWord _, State.readsWord_read _ _⟩
  case empty =>
    intro h hwait
    exact congrArg _ (State.poolTake_empty howner (refused h) hwait)
  case queued =>
    intro h hwait hroom
    exact ⟨_, _, congrArg _ (State.poolTake_queued howner (refused h) hwait hroom), (OnlyPool.setPool τ).readsWord _, State.readsWord_read _ _⟩
  case listFull =>
    intro h hwait hfull
    exact congrArg _ (State.poolTake_listFull howner (refused h) hwait hfull)
  case free =>
    rw [exec_poolFree_reached hreach]
    refine ⟨fun hlt htaken hw => congrArg _ ?_, fun h => congrArg _ ?_⟩
    · exact (State.poolPut_returned (s := s.at τ) hrec hpart hlt htaken).trans (State.poolReturn_free (s := s.at τ) hw _)
    · exact State.poolPut_ignored (s := s.at τ) hrec hpart h

end Sys2Proof.Machine
end
